-- ==== Sys2Proof/Word.lean ====
section
/-! DEFINITION. The word types of the machine: a register, a byte, a line, and sparse tables keyed by a number. -/
namespace Sys2Proof

/-- A 64-bit register or doubleword (04 R84). -/
abbrev Word := BitVec 64
/-- The unit of every byte-addressed store (00 R2). -/
abbrev Byte := BitVec 8
/-- A 128-byte line, byte 0 in the low bits (08 R196, 00 R2). -/
abbrev Line := BitVec 1024
/-- A 128-bit grid or stream word (05 R111). -/
abbrev QWord := BitVec 128
/-- A general register number, x0 to x31 (04 R84). -/
abbrev Reg := Fin 32
/-- A sparse table: strictly rising keys, one entry each. -/
abbrev Tbl (α : Type) := List (Nat × α)

end Sys2Proof
end

