-- ==== Sys2Proof/Fields.lean ====
section
/-! DEFINITION. The coded fields of the control-processor words (14 R295, R296), the PE word (05 R112),
the packet (08 R200), the decrement message (03 R75), the host command (12 R271), and the operands that the
environment supplies to an event. -/
namespace Sys2Proof

/-- The order field: the slot an instruction raises and the slot it waits for; 0 names none (04 R91). -/
structure Order where
  set : Fin 8
  wait : Fin 8
  deriving DecidableEq, Repr, Inhabited

/-- ORD of R295. -/
inductive Ord where | rlx | acq | rel | ar | sc
  deriving DecidableEq, Repr, Inhabited
/-- SCP of R295. -/
inductive Scp where | tile | die | dev | sys
  deriving DecidableEq, Repr, Inhabited
/-- SZ of a load, R295: size and sign extension. -/
inductive LoadSize where | b | h | w | d | bs | hs | ws
  deriving DecidableEq, Repr, Inhabited
/-- SZ2, and SZ of a store, R295. -/
inductive Size where | b | h | w | d
  deriving DecidableEq, Repr, Inhabited
/-- AOP of R295. -/
inductive AtomicOp where | add | min | max | and | or | xor | swap
  deriving DecidableEq, Repr, Inhabited
/-- COND of R295. -/
inductive Cond where | eq | ne | lt | le | gt | ge
  deriving DecidableEq, Repr, Inhabited
/-- POP of R295. -/
inductive PredOp where | and | or | xor | andn | orn | not
  deriving DecidableEq, Repr, Inhabited
/-- HS of R295: the states of a handle (06 R142). -/
inductive HState where | free | filling | full | draining
  deriving DecidableEq, Repr, Inhabited
/-- The tile selector of a format E word: every tile of the region, or the one a register names (14 R296). -/
inductive TileSel where | all | one (rb : Reg)
  deriving DecidableEq, Repr, Inhabited
/-- The system registers in the order of their indices (14 R297). -/
inductive SysReg where
  | status | cause | epc | eval | tvec | sbst | wid | widw | rgnb | genr | part | gkey | zscf | satf | rndm
  deriving DecidableEq, Repr, Inhabited

/-- The fields of a triggered word but for its opcode (05 R112). -/
structure PeWord where
  pcare : BitVec 8
  pval : BitVec 8
  inrdy : BitVec 4
  ospc : BitVec 4
  tte : Bool
  tq : Fin 4
  tval : BitVec 5
  dst : Fin 16
  sa : Fin 16
  sb : Fin 16
  deq : BitVec 4
  pidx : Fin 8
  pact : Fin 4
  lt : Fin 16
  deriving DecidableEq, Repr, Inhabited

/-- The requesting agent's identity that a request carries: partition, graph key and region generation (10 R244, R253). -/
structure Ident where
  part : BitVec 4
  gkey : BitVec 8
  gen : Nat
  deriving DecidableEq, Repr, Inhabited

/-- A packet but for its opcode: the header fields of R200 and the bytes its data flits carry (08 R200, R212). `key` is the number of the key
that a carried line is stored under, and `enables` the bytes of its line that an uncached write stores: no header field holds
them (log 9). -/
structure Packet where
  src : Nat
  dst : Nat
  ndf : Nat
  tok : Nat
  own : Bool
  drty : Bool
  psn : Bool
  part : BitVec 4
  txn : Nat
  line : Nat
  boff : Nat
  size : Nat
  gen : Nat
  stat : BitVec 8
  aux : Nat
  data : Line
  key : Nat
  enables : Nat
  deriving DecidableEq, Repr, Inhabited

/-- The kind field of a decrement message (03 R75). -/
inductive DecrKind where | decrement | forward | abort | ack
  deriving DecidableEq, Repr, Inhabited

/-- A decrement message (03 R75). -/
structure DecrMsg where
  sdev : Nat
  sdie : Nat
  tinst : Nat
  seq : Nat
  record : Nat
  pbx : Nat
  pby : Nat
  pw : Nat
  ph : Nat
  deriving DecidableEq, Repr, Inhabited

/-- A host command but for its opcode (12 R271). -/
structure Cmd where
  part : BitVec 4
  reserved : BitVec 20
  seq : BitVec 32
  ts : Word
  arg0 : Word
  arg1 : Word
  arg2 : Word
  arg3 : Word
  arg4 : Word
  arg5 : Word
  deriving DecidableEq, Repr, Inhabited

/-- The operation of a UALink request (12 R276). -/
inductive UaOp where | read | write | atomic (op : AtomicOp) | cas
  deriving DecidableEq, Repr, Inhabited

/-- A UALink request (12 R276, R277, R279): the device that sends it, its transaction, its offset and size, up to 256 bytes of data with
their mask, PART and KIDX, poison, and whether it is an SC operation (09 R233). -/
structure UaReq where
  src : Nat
  id : Nat
  off : Nat
  op : UaOp
  bytes : Nat
  data : List Byte
  mask : List Bool
  part : BitVec 4
  kidx : Nat
  psn : Bool
  sc : Bool
  deriving DecidableEq, Repr, Inhabited

/-- A UALink answer to a request of this device (12 R277, R279). -/
structure UaRsp where
  id : Nat
  error : Bool
  data : List Byte
  psn : Bool
  deriving DecidableEq, Repr, Inhabited

/-- What the Plinth finds at boot: signature checks, the signed configuration table, and the outcomes of the loads,
trainings and tests (12 R280). A die is numbered as its node, 0 to 16 (08 R199). -/
structure BootInput where
  bankAOk : Bool
  bankBOk : Bool
  tableOk : Bool
  dieState : List Nat
  armWidth : List Nat
  roles : List (Nat × Nat)
  defects : List (Nat × Nat)
  hbmOff : List (Nat × Nat)
  ualOff : List Nat
  flowLimit : Nat
  loadFailed : List Nat
  trainFailed : List (Nat × Nat)
  siteFailed : List (Nat × Nat)
  roleFailed : List (Nat × Nat)
  cmdBase : Nat
  cmdSize : Nat
  cplBase : Nat
  cplSize : Nat
  evtBase : Nat
  evtSize : Nat
  deriving DecidableEq, Repr, Inhabited

/-- One sampling of the sensors: four junction temperatures in degrees for each of 17 dies, voltage and current of the
rails, coolant temperatures and flow, failed rail sensors, and the module power (13 R281). -/
structure SensorInput where
  junction : List (List Nat)
  volts : List Nat
  amps : List Nat
  inlet : Nat
  outlet : Nat
  flow : Nat
  railFault : List Nat
  power : Nat
  deriving DecidableEq, Repr, Inhabited

/-- One rail of an interval: its number, the node it belongs to, its measured energy in uJ, and whether its sensor failed (13 R285, R286). -/
structure RailInput where
  rail : Nat
  node : Nat
  energy : Rat
  failed : Bool
  deriving DecidableEq, Repr, Inhabited

/-- Where a memory error strikes: 64 data bits of an SRAM, a line, or a tag (11 R261, R263, R268). `reg` and `k` of PE registers and constants
count 8-byte halves. -/
inductive EccPlace where
  | scratch (die site off : Nat)
  | l1 (die site line : Nat)
  | instr (die site word : Nat)
  | peData (die site pe reg : Nat)
  | shadow (die site pe : Nat)
  | active (die site pe slot : Nat)
  | handle (die site h : Nat)
  | dieLine (die line : Nat)
  | homeLine (line : Nat)
  | tokenMeta (line : Nat)
  | windowWord (off : Nat)
  | acc (die site row : Nat)
  | tlb (die : Nat)
  | capability (die site slot : Nat)
  | peQueue (die site pe q k : Nat)
  | peOutput (die site pe q k : Nat)
  | predicate (die site pe : Nat)
  | strandReg (die site strand reg : Nat)
  | channel (die site strand k : Nat)
  | inbound (die site k : Nat)
  | delayLine (die site stream off : Nat)
  | streamPort (die site stream k : Nat)
  | token (die site q k : Nat)
  | receive (die site port k : Nat)
  | lane (die site lane k : Nat)
  | latch (die site : Nat) (front : Bool)
  | constant (die site pe k : Nat)
  | l1Tag (die site line : Nat)
  | dieTag (die line : Nat)
  | sliceTag (line : Nat)
  | utlb (die site group k : Nat)
  deriving DecidableEq, Repr, Inhabited

/-- Scheduler state that an uncorrectable error strikes (11 R262). -/
inductive SchedPlace where
  | core (die site : Nat)
  | record (die rec : Nat)
  | queue (die part prio : Nat)
  | successors (die rec : Nat)
  | maquette (die mq : Nat)
  | bitmap (die : Nat)
  | placeLog (die seq : Nat)
  | faultLog (die seq : Nat)
  deriving DecidableEq, Repr, Inhabited

end Sys2Proof
end

