-- ==== Sys2Proof/Syntax.lean ====
section
/-! DEFINITION. One constructor for each row of spec/opcode_table.json: control-processor words, PE words, packets,
decrement messages, host commands, and last the events, which no decoder makes. -/
namespace Sys2Proof

/-- The steps of the machine (spec/opcode_table.json; 95). A constructor cites the rule that governs its row. -/
inductive Instr where
  /-- NOP, R398. -/
  | nop
  /-- ADD, R321. -/
  | add (d : Reg) (a : Reg) (b : Reg)
  /-- SUB, R428. -/
  | sub (d : Reg) (a : Reg) (b : Reg)
  /-- MUL, R380. -/
  | mul (d : Reg) (a : Reg) (b : Reg)
  /-- MULH, R380. -/
  | mulh (d : Reg) (a : Reg) (b : Reg) (u : Bool)
  /-- DIV, R352. -/
  | div (d : Reg) (a : Reg) (b : Reg) (u : Bool)
  /-- REM, R352. -/
  | rem (d : Reg) (a : Reg) (b : Reg) (u : Bool)
  /-- AND, R321. -/
  | and (d : Reg) (a : Reg) (b : Reg)
  /-- OR, R380. -/
  | or (d : Reg) (a : Reg) (b : Reg)
  /-- XOR, R443. -/
  | xor (d : Reg) (a : Reg) (b : Reg)
  /-- SHL, R420. -/
  | shl (d : Reg) (a : Reg) (b : Reg)
  /-- SHR, R420. -/
  | shr (d : Reg) (a : Reg) (b : Reg)
  /-- SRA, R420. -/
  | sra (d : Reg) (a : Reg) (b : Reg)
  /-- MIN, R380. -/
  | min (d : Reg) (a : Reg) (b : Reg) (u : Bool)
  /-- MAX, R380. -/
  | max (d : Reg) (a : Reg) (b : Reg) (u : Bool)
  /-- ADDI, R323. -/
  | addi (d : Reg) (a : Reg) (i : BitVec 15)
  /-- ANDI, R323. -/
  | andi (d : Reg) (a : Reg) (i : BitVec 15)
  /-- ORI, R401. -/
  | ori (d : Reg) (a : Reg) (i : BitVec 15)
  /-- XORI, R443. -/
  | xori (d : Reg) (a : Reg) (i : BitVec 15)
  /-- SHLI, R420. -/
  | shli (d : Reg) (a : Reg) (n : Fin 64)
  /-- SHRI, R420. -/
  | shri (d : Reg) (a : Reg) (n : Fin 64)
  /-- SRAI, R420. -/
  | srai (d : Reg) (a : Reg) (n : Fin 64)
  /-- CMPI, R343. -/
  | cmpi (p : Fin 8) (a : Reg) (c : Cond) (u : Bool) (i : BitVec 11)
  /-- CMP, R343. -/
  | cmp (p : Fin 8) (a : Reg) (b : Reg) (c : Cond) (u : Bool)
  /-- SEL, R417. -/
  | sel (d : Reg) (a : Reg) (b : Reg) (p : Fin 8)
  /-- CLZ, R342. -/
  | clz (d : Reg) (a : Reg)
  /-- CTZ, R342. -/
  | ctz (d : Reg) (a : Reg)
  /-- POPC, R404. -/
  | popc (d : Reg) (a : Reg)
  /-- BFX, R336. -/
  | bfx (d : Reg) (a : Reg) (x : Bool) (p : Fin 64) (l : Fin 64)
  /-- BFI, R336. -/
  | bfi (d : Reg) (a : Reg) (p : Fin 64) (l : Fin 64)
  /-- SEXT, R419. -/
  | sext (d : Reg) (a : Reg) (z : Size)
  /-- MOV, R384. -/
  | mov (d : Reg) (a : Reg)
  /-- MOV_CHANNEL, R384. -/
  | movChannel (d : Reg) (k : Fin 8)
  /-- LIS, R376. -/
  | lis (d : Reg) (i : BitVec 15)
  /-- LI, R292. -/
  | li (d : Reg) (v : BitVec 52)
  /-- WIDF, R440. -/
  | widf (d : Reg) (n : Fin 6)
  /-- PLOG, R402. -/
  | plog (d : Fin 8) (a : Fin 8) (b : Fin 8) (q : PredOp)
  /-- PMOV_TO_REGISTER, R403. -/
  | pmovToRegister (d : Reg)
  /-- PMOV_TO_PREDICATES, R403. -/
  | pmovToPredicates (a : Reg)
  /-- ENRD, R290. -/
  | enrd (d : Reg) (a : Reg)
  /-- B, R327. -/
  | b (t : BitVec 21)
  /-- BC, R327. -/
  | bc (p : Fin 8) (w : Bool) (t : BitVec 21)
  /-- CALL, R327. -/
  | call (t : BitVec 21)
  /-- CALLR, R338. -/
  | callr (a : Reg)
  /-- RET, R408. -/
  | ret
  /-- JMPR, R372. -/
  | jmpr (a : Reg)
  /-- LDL, R374. -/
  | ldl (d : Reg) (a : Reg) (z : LoadSize) (e : BitVec 6) (o : Order)
  /-- STL, R426. -/
  | stl (d : Reg) (a : Reg) (z : Size) (e : BitVec 6) (o : Order)
  /-- LDG, R374. -/
  | ldg (d : Reg) (a : Reg) (z : LoadSize) (e : BitVec 6) (o : Order)
  /-- STG, R426. -/
  | stg (d : Reg) (a : Reg) (z : Size) (e : BitVec 6) (o : Order)
  /-- LDA, R373. -/
  | lda (d : Reg) (a : Reg) (q : Ord) (c : Scp) (z : Size) (o : Order)
  /-- STRL, R427. -/
  | strl (d : Reg) (a : Reg) (q : Ord) (c : Scp) (z : Size) (o : Order)
  /-- AMO, R324. -/
  | amo (d : Reg) (a : Reg) (q : Ord) (c : Scp) (wide : Bool) (f : AtomicOp) (o : Order)
  /-- AMOL, R325. -/
  | amol (d : Reg) (a : Reg) (q : Ord) (c : Scp) (wide : Bool) (f : AtomicOp) (o : Order)
  /-- CAS, R339. -/
  | cas (d : Reg) (a : Reg) (q : Ord) (c : Scp) (wide : Bool) (o : Order)
  /-- FENCE, R358. -/
  | fence (q : Ord) (c : Scp) (o : Order)
  /-- PREF, R405. -/
  | pref (a : Reg) (e : BitVec 9) (o : Order)
  /-- CFLUSH, R341. -/
  | cflush (a : Reg) (e : BitVec 9) (o : Order)
  /-- CINV, R341. -/
  | cinv (a : Reg) (e : BitVec 9) (o : Order)
  /-- TLOOK, R432. -/
  | tlook (d : Reg) (a : Reg) (b : Reg) (o : Order)
  /-- TINS, R432. -/
  | tins (d : Reg) (a : Reg) (b : Reg) (o : Order)
  /-- TEVICT, R432. -/
  | tevict (d : Reg) (a : Reg) (b : Reg) (o : Order)
  /-- BARI, R330. -/
  | bari (a : Reg) (b : Reg) (o : Order)
  /-- BARA, R329. -/
  | bara (d : Reg) (a : Reg) (o : Order)
  /-- BARW, R333. -/
  | barw (a : Reg) (b : Reg) (o : Order)
  /-- TSB, R435. -/
  | tsb (d : Reg) (a : Reg) (b : Reg) (o : Order)
  /-- LREL, R377. -/
  | lrel (a : Reg) (o : Order)
  /-- EQPUT, R356. -/
  | eqput (d : Reg) (a : Reg) (b : Reg) (k : Bool) (o : Order)
  /-- EQGET, R356. -/
  | eqget (d : Reg) (a : Reg) (b : Reg) (k : Bool) (o : Order)
  /-- SEND, R87. -/
  | send (a : Reg) (b : Reg) (o : Order)
  /-- WAITK, R439. -/
  | waitk (m : BitVec 8)
  /-- SBWAIT, R409. -/
  | sbwait (m : BitVec 7)
  /-- YIELD, R106. -/
  | yield
  /-- STRGO, R106. -/
  | strgo (a : Reg) (b : Reg)
  /-- STRHLT, R106. -/
  | strhlt (a : Reg)
  /-- SLEEP, R106. -/
  | sleep
  /-- WAKE, R106. -/
  | wake (a : Reg)
  /-- HALLOC, R368. -/
  | halloc (d : Reg) (a : Reg) (b : Reg) (o : Order)
  /-- HFREE, R368. -/
  | hfree (h : Fin 128) (o : Order)
  /-- HSET, R369. -/
  | hset (h : Fin 128) (t : HState) (o : Order)
  /-- HWAIT, R369. -/
  | hwait (h : Fin 128) (t : HState) (o : Order)
  /-- HSTAT, R371. -/
  | hstat (d : Reg) (h : Fin 128) (o : Order)
  /-- CPY, R346. -/
  | cpy (a : Reg) (o : Order)
  /-- CPYT, R348. -/
  | cpyt (a : Reg) (q : Fin 64) (o : Order)
  /-- CPYQ, R347. -/
  | cpyq (a : Reg) (q : Fin 64) (o : Order)
  /-- CPYC, R346. -/
  | cpyc (a : Reg) (o : Order)
  /-- SCFG, R411. -/
  | scfg (a : Reg) (e : Fin 8) (o : Order)
  /-- SWIN, R415. -/
  | swin (a : Reg) (e : Fin 8) (o : Order)
  /-- SGO, R412. -/
  | sgo (e : Fin 8) (o : Order)
  /-- SHALT, R413. -/
  | shalt (e : Fin 8) (o : Order)
  /-- SSTAT, R414. -/
  | sstat (d : Reg) (e : Fin 8) (o : Order)
  /-- GLOAD, R364. -/
  | gload (a : Reg) (t : TileSel) (o : Order)
  /-- GCOMMIT, R360. -/
  | gcommit (o : Order)
  /-- GSPLICE, R365. -/
  | gsplice (a : Reg) (t : TileSel) (o : Order)
  /-- GRUN, R362. -/
  | grun (t : TileSel) (o : Order)
  /-- GFRZ, R362. -/
  | gfrz (t : TileSel) (o : Order)
  /-- GDRAIN, R362. -/
  | gdrain (t : TileSel) (o : Order)
  /-- GSEND, R366. -/
  | gsend (a : Reg) (b : Reg) (n : Fin 4) (o : Order)
  /-- GRECV, R366. -/
  | grecv (d : Reg) (h : Bool) (n : Fin 4) (o : Order)
  /-- GCONST, R361. -/
  | gconst (a : Reg) (b : Reg) (o : Order)
  /-- GSTAT, R367. -/
  | gstat (d : Reg) (b : Reg) (o : Order)
  /-- MXCFG, R388. -/
  | mxcfg (a : Reg) (o : Order)
  /-- MXLDB, R391. -/
  | mxldb (a : Reg) (o : Order)
  /-- MXROT, R394. -/
  | mxrot (o : Order)
  /-- MXZERO, R396. -/
  | mxzero (a : Reg) (o : Order)
  /-- MXRD, R393. -/
  | mxrd (a : Reg) (b : Reg) (t : Bool) (o : Order)
  /-- MXCHK, R390. -/
  | mxchk (d : Reg) (o : Order)
  /-- TDONE, R430. -/
  | tdone
  /-- TSIG, R436. -/
  | tsig (a : Reg) (o : Order)
  /-- GINST, R363. -/
  | ginst (d : Reg) (a : Reg) (b : Reg)
  /-- TSTAT, R438. -/
  | tstat (d : Reg) (a : Reg)
  /-- TFAIL, R433. -/
  | tfail (c : BitVec 8)
  /-- XLT, R441. -/
  | xlt (d : Reg) (a : Reg) (o : Order)
  /-- TLBI, R434. -/
  | tlbi (a : Reg) (b : Reg)
  /-- SVC, R258. -/
  | svc (n : BitVec 8)
  /-- TRAP, R258. -/
  | trap (n : BitVec 8)
  /-- ERET, R258. -/
  | eret
  /-- SRD, R424. -/
  | srd (d : Reg) (r : SysReg)
  /-- SWR, R424. -/
  | swr (a : Reg) (r : SysReg)
  /-- HALT, R106. -/
  | halt
  /-- BRK, R337. -/
  | brk (n : BitVec 8)
  /-- GRID_NOP, R399. -/
  | gridNop (w : PeWord)
  /-- MOVE, R385. -/
  | move (w : PeWord)
  /-- DUP, R353. -/
  | dup (w : PeWord)
  /-- GRID_ADD, R322. -/
  | gridAdd (w : PeWord)
  /-- GRID_SUB, R428. -/
  | gridSub (w : PeWord)
  /-- GRID_MUL, R386. -/
  | gridMul (w : PeWord)
  /-- FMA, R359. -/
  | fma (w : PeWord)
  /-- FMS, R359. -/
  | fms (w : PeWord)
  /-- GRID_MIN, R381. -/
  | gridMin (w : PeWord)
  /-- GRID_MAX, R381. -/
  | gridMax (w : PeWord)
  /-- ABS, R320. -/
  | abs (w : PeWord)
  /-- NEG, R397. -/
  | neg (w : PeWord)
  /-- GRID_CMP, R344. -/
  | gridCmp (w : PeWord)
  /-- GRID_SEL, R418. -/
  | gridSel (w : PeWord)
  /-- GRID_AND, R326. -/
  | gridAnd (w : PeWord)
  /-- GRID_OR, R400. -/
  | gridOr (w : PeWord)
  /-- GRID_XOR, R443. -/
  | gridXor (w : PeWord)
  /-- NOT, R400. -/
  | not (w : PeWord)
  /-- GRID_SHL, R421. -/
  | gridShl (w : PeWord)
  /-- GRID_SHR, R421. -/
  | gridShr (w : PeWord)
  /-- GRID_SRA, R421. -/
  | gridSra (w : PeWord)
  /-- CVT, R350. -/
  | cvt (w : PeWord)
  /-- CVTS, R351. -/
  | cvts (w : PeWord)
  /-- EXP2, R357. -/
  | exp2 (w : PeWord)
  /-- LOG2, R357. -/
  | log2 (w : PeWord)
  /-- RCP, R357. -/
  | rcp (w : PeWord)
  /-- RSQ, R357. -/
  | rsq (w : PeWord)
  /-- RED, R407. -/
  | red (w : PeWord)
  /-- BCST, R335. -/
  | bcst (w : PeWord)
  /-- SHUF, R422. -/
  | shuf (w : PeWord)
  /-- TAG, R429. -/
  | tag (w : PeWord)
  /-- STEER, R425. -/
  | steer (w : PeWord)
  /-- MERGE, R382. -/
  | merge (w : PeWord)
  /-- LGEN, R375. -/
  | lgen (w : PeWord)
  /-- CNT, R345. -/
  | cnt (w : PeWord)
  /-- RAND, R406. -/
  | rand (w : PeWord)
  /-- RAND_SEED, R406. -/
  | randSeed (w : PeWord)
  /-- MLD, R383. -/
  | mld (w : PeWord)
  /-- MST, R383. -/
  | mst (w : PeWord)
  /-- MAMO, R379. -/
  | mamo (w : PeWord)
  /-- MTAS, R379. -/
  | mtas (w : PeWord)
  /-- XLTN, R442. -/
  | xltn (w : PeWord)
  /-- BARN, R331. -/
  | barn (w : PeWord)
  /-- ENDK, R354. -/
  | endk (w : PeWord)
  /-- GETS, R203. -/
  | gets (p : Packet)
  /-- GETX, R203. -/
  | getx (p : Packet)
  /-- TOKD, R204. -/
  | tokd (p : Packet)
  /-- TOKN, R204. -/
  | tokn (p : Packet)
  /-- REFUSE, R204. -/
  | refuse (p : Packet)
  /-- TICKET, R204. -/
  | ticket (p : Packet)
  /-- GRANT, R204. -/
  | grant (p : Packet)
  /-- PREQ, R205. -/
  | preq (p : Packet)
  /-- PACT, R206. -/
  | pact (p : Packet)
  /-- PDEACT, R206. -/
  | pdeact (p : Packet)
  /-- PACK, R205. -/
  | pack (p : Packet)
  /-- PDONE, R205. -/
  | pdone (p : Packet)
  /-- UCRD, R208. -/
  | ucrd (p : Packet)
  /-- UCWR, R208. -/
  | ucwr (p : Packet)
  /-- UCRSP, R201. -/
  | ucrsp (p : Packet)
  /-- MTOP, R212. -/
  | mtop (p : Packet)
  /-- MTRSP, R213. -/
  | mtrsp (p : Packet)
  /-- SCT, R232. -/
  | sct (p : Packet)
  /-- NACK, R201. -/
  | nack (p : Packet)
  /-- UNKNOWN_PACKET, R201. -/
  | unknownPacket (opc reserved : Nat) (p : Packet)
  /-- DECREMENT, R77. -/
  | decrement (die : Nat) (m : DecrMsg)
  /-- FORWARD_DECREMENT, R68. -/
  | forwardDecrement (die : Nat) (m : DecrMsg)
  /-- ABORT_MESSAGE, R31. -/
  | abortMessage (die : Nat) (m : DecrMsg)
  /-- ACKNOWLEDGEMENT, R77. -/
  | acknowledgement (die : Nat) (m : DecrMsg)
  /-- MALFORMED_DECREMENT_MESSAGE, R75. -/
  | malformedDecrementMessage (p : Packet) (w0 w1 : Word)
  /-- HOST_NOP, R273. -/
  | hostNop (c : Cmd)
  /-- RESERVED_COMMAND, R273. -/
  | reservedCommand (opc : BitVec 8) (c : Cmd)
  /-- RDINV, R273. -/
  | rdinv (c : Cmd)
  /-- RDLOG, R273. -/
  | rdlog (c : Cmd)
  /-- LDMQ, R306. -/
  | ldmq (c : Cmd)
  /-- INST, R27. -/
  | inst (c : Cmd)
  /-- RSVI, R30. -/
  | rsvi (c : Cmd)
  /-- KILL, R273. -/
  | kill (c : Cmd)
  /-- FREEZE, R264. -/
  | freeze (c : Cmd)
  /-- SETQW, R57. -/
  | setqw (c : Cmd)
  /-- SETCTX, R239. -/
  | setctx (c : Cmd)
  /-- SETKEY, R245. -/
  | setkey (c : Cmd)
  /-- HOST_TLBI, R247. -/
  | hostTlbi (c : Cmd)
  /-- PANS, R251. -/
  | pans (c : Cmd)
  /-- MTASN, R273. -/
  | mtasn (c : Cmd)
  /-- FPOOL, R264. -/
  | fpool (c : Cmd)
  /-- OFFLINE, R269. -/
  | offline (c : Cmd)
  /-- PWRCAP, R21. -/
  | pwrcap (c : Cmd)
  /-- SETID, R277. -/
  | setid (c : Cmd)
  /-- ADMIT, R278. -/
  | admitDevice (c : Cmd)
  /-- DISMISS, R278. -/
  | dismiss (c : Cmd)
  /-- RDCNT, R273. -/
  | rdcnt (c : Cmd)
  /-- BPOOL, R273. -/
  | bpool (c : Cmd)
  /-- RDPAT, R283. -/
  | rdpat (c : Cmd)
  /-- RDPUB, R283. -/
  | rdpub (c : Cmd)
  /-- RDSNS, R283. -/
  | rdsns (c : Cmd)
  /-- RDWLOG, R283. -/
  | rdwlog (c : Cmd)
  /-- FWSTAGE, R283. -/
  | fwstage (c : Cmd)
  /-- FWCOMMIT, R283. -/
  | fwcommit (c : Cmd)
  /-- RDACC, R283. -/
  | rdacc (c : Cmd)
  /-- FETCH_FAULT, R96. -/
  | fetchFault
  /-- IMPRECISE_TRAP, R257. -/
  | impreciseTrap (k : Nat)
  /-- CONTINUATION_MESSAGE_ARRIVAL, R86. -/
  | continuationMessageArrival (k : Nat)
  /-- BARN_ARRIVAL, R331. -/
  | barnArrival (die site pe slot : Nat)
  /-- DELAYED_RESULT, R119. -/
  | delayedResult (die site k : Nat)
  /-- ROUTE_WORD_ARRIVAL, R121. -/
  | routeWordArrival (die site k : Nat)
  /-- PE_PLANE_SWITCH, R72. -/
  | pePlaneSwitch (die site pe : Nat)
  /-- CONFIG_LOAD_COMPLETE, R129. -/
  | configLoadComplete (die site : Nat)
  /-- ISLAND_BEAT, R136. -/
  | islandBeat (die site : Nat) (upset : Nat)
  /-- LATCH_FILL_START, R137. -/
  | latchFillStart (die site : Nat)
  /-- LATCH_FILL_COMPLETE, R137. -/
  | latchFillComplete (die site : Nat)
  /-- ENGINE_WRITE, R144. -/
  | engineWrite (die site job : Nat)
  /-- ENGINE_CONSUMER_START, R144. -/
  | engineConsumerStart (die site job : Nat)
  /-- ENGINE_CONSUMER_END, R144. -/
  | engineConsumerEnd (die site job : Nat)
  /-- TOKEN_FIRE, R153. -/
  | tokenFire (die site queue : Nat)
  /-- COPY_COMPLETION, R150. -/
  | copyCompletion (die site job : Nat)
  /-- STREAM_ELEMENT, R155. -/
  | streamElement (die site engine : Nat)
  /-- STREAM_RUN_END, R157. -/
  | streamRunEnd (die site engine : Nat)
  /-- PLACEMENT_PASS, R58. -/
  | placementPass (die : Nat)
  /-- STAGING_ACCEPTED, R63. -/
  | stagingAccepted (die rec : Nat)
  /-- TASK_RUNNABLE, R48. -/
  | taskRunnable (die rec : Nat)
  /-- TASK_START, R43. -/
  | taskStart (die rec : Nat)
  /-- TASK_RETIREMENT, R44. -/
  | taskRetirement (die rec : Nat)
  /-- FREEZE_SAVE_COMPLETE, R264. -/
  | freezeSaveComplete (die rec : Nat)
  /-- RESTORE_COMPLETE, R266. -/
  | restoreComplete (die rec : Nat)
  /-- DECREMENT_RESEND, R76. -/
  | decrementResend (die k : Nat)
  /-- LINKLOST, R76. -/
  | linklost (die k : Nat)
  /-- DISPATCHER_WINDOW_WRITE, R278. -/
  | dispatcherWindowWrite (die : Nat) (r : UaReq)
  /-- TRANSIENT_TIMEOUT, R204. -/
  | transientTimeout (die line : Nat)
  /-- PERSISTENT_POISON_TIMEOUT, R209. -/
  | persistentPoisonTimeout (line : Nat)
  /-- SCLOST, R234. -/
  | sclost
  /-- DIE_CACHE_EVICTION, R209. -/
  | dieCacheEviction (die line : Nat)
  /-- WAITER_RETRY, R328. -/
  | waiterRetry (k : Nat)
  /-- WALK_COMPLETION, R244. -/
  | walkCompletion (k : Nat)
  /-- REMOTE_WRITE_DRAIN, R236. -/
  | remoteWriteDrain (die k : Nat)
  /-- REMOTE_WRITE_ACK, R236. -/
  | remoteWriteAck (die k : Nat) (error : Bool)
  /-- UALINK_REQUEST, R277. -/
  | ualinkRequest (r : UaReq)
  /-- UALINK_RESPONSE, R279. -/
  | ualinkResponse (r : UaRsp)
  /-- UALINK_PORT_DOWN, R279. -/
  | ualinkPortDown (port : Nat)
  /-- UALINK_PORT_UP, R279. -/
  | ualinkPortUp (port : Nat)
  /-- GOLFY_REPLY, R275. -/
  | golfyReply (k : Nat)
  /-- GOLFY_LINK_DOWN, R270. -/
  | golfyLinkDown
  /-- GOLFY_LINK_UP, R270. -/
  | golfyLinkUp
  /-- DOORBELL, R271. -/
  | doorbell (tail : Nat)
  /-- COMPLETION_HEAD, R272. -/
  | completionHead (head : Nat)
  /-- SENSOR_SAMPLE, R281. -/
  | sensorSample (x : SensorInput)
  /-- ATTRIBUTION_INTERVAL, R286. -/
  | attributionInterval (x : List RailInput)
  /-- CHECKPOINT, R289; `made`: its records follow in the same step. -/
  | checkpoint (made : Bool) (cycles : Nat)
  /-- BUNDLE_SIGN, R288. -/
  | bundleSign
  /-- BOOT, R280. -/
  | boot (x : BootInput)
  /-- ALWAYS_ON_POWER_LOSS, R289. -/
  | alwaysOnPowerLoss
  /-- ECC_ERROR, R261. -/
  | eccError (place : EccPlace) (double : Bool)
  /-- SCRUB_PASS, R261. -/
  | scrubPass (line : Nat)
  /-- SCHEDULER_STATE_ERROR, R262. -/
  | schedulerStateError (place : SchedPlace)
  /-- DIE_FAILURE, R269. -/
  | dieFailure (node : Nat)
  /-- DIE_CACHE_ACCESS, R196. -/
  | dieCacheAccess (die k : Nat)
  /-- COMPUTE_TILE_LOST_IN_SERVICE, R61. -/
  | computeTileLostInService (die site : Nat)
  deriving DecidableEq, Repr, Inhabited

end Sys2Proof
end

