-- ==== Sys2Proof/Decode.lean ====
section
/-! DEFINITION. The decoders of control-processor words (14 R291 to R297), PE words (05 R112, 14 R298), packets
(08 R200, R201), decrement messages (03 R75) and host commands (12 R271, R273, 13 R283), and the encoder of
control-processor and PE words. -/
namespace Sys2Proof

/-- Bits [lo + n - 1 : lo] of a word (00 R3). -/
def bits (w lo n : Nat) : Nat := w / 2 ^ lo % 2 ^ n

/-- The first check of R293 that a control-processor word fails. -/
inductive DecodeFail where
  | opcode | reserved | orderField | suffix
  deriving DecidableEq, Repr

/-- CAUSE.DETAIL of a word that fails a check (14 R293). -/
def DecodeFail.detail : DecodeFail → Nat
  | .opcode => 1 | .reserved => 2 | .orderField => 3 | .suffix => 4

/-- What decoding a word gives. -/
abbrev Dec := Except DecodeFail Instr

/-- R217: the ordering suffixes of LDA. -/
def Ord.okLoad : Ord → Bool
  | .rlx | .acq | .sc => true | .rel | .ar => false
/-- R217: the ordering suffixes of STRL. -/
def Ord.okStore : Ord → Bool
  | .rlx | .rel | .sc => true | .acq | .ar => false
/-- R217: the ordering suffixes of FENCE. -/
def Ord.okFence : Ord → Bool
  | .rlx => false | .acq | .rel | .ar | .sc => true
/-- R217: AMOL takes .TILE alone, and not .SC. -/
def Ord.okLocal (o : Ord) (c : Scp) : Bool := o != .sc && c == .tile

/-- The code of a value (R295). -/
def Ord.code : Ord → Nat
  | .rlx => 0 | .acq => 1 | .rel => 2 | .ar => 3 | .sc => 4
/-- The value of a code, none for a reserved one (R295). -/
def Ord.ofCode : Nat → Option Ord
  | 0 => some .rlx | 1 => some .acq | 2 => some .rel | 3 => some .ar | 4 => some .sc | _ => none

/-- The code of a value (R295). -/
def Scp.code : Scp → Nat
  | .tile => 0 | .die => 1 | .dev => 2 | .sys => 3
/-- The value of a code, none for a reserved one (R295). -/
def Scp.ofCode : Nat → Option Scp
  | 0 => some .tile | 1 => some .die | 2 => some .dev | 3 => some .sys | _ => none

/-- The code of a value (R295). -/
def LoadSize.code : LoadSize → Nat
  | .b => 0 | .h => 1 | .w => 2 | .d => 3 | .bs => 4 | .hs => 5 | .ws => 6
/-- The value of a code, none for a reserved one (R295). -/
def LoadSize.ofCode : Nat → Option LoadSize
  | 0 => some .b | 1 => some .h | 2 => some .w | 3 => some .d | 4 => some .bs | 5 => some .hs | 6 => some .ws | _ => none

/-- The code of a value (R295). -/
def Size.code : Size → Nat
  | .b => 0 | .h => 1 | .w => 2 | .d => 3
/-- The value of a code, none for a reserved one (R295). -/
def Size.ofCode : Nat → Option Size
  | 0 => some .b | 1 => some .h | 2 => some .w | 3 => some .d | _ => none

/-- The code of a value (R295). -/
def AtomicOp.code : AtomicOp → Nat
  | .add => 0 | .min => 1 | .max => 2 | .and => 3 | .or => 4 | .xor => 5 | .swap => 6
/-- The value of a code, none for a reserved one (R295). -/
def AtomicOp.ofCode : Nat → Option AtomicOp
  | 0 => some .add | 1 => some .min | 2 => some .max | 3 => some .and | 4 => some .or | 5 => some .xor | 6 => some .swap | _ => none

/-- The code of a value (R295). -/
def Cond.code : Cond → Nat
  | .eq => 0 | .ne => 1 | .lt => 2 | .le => 3 | .gt => 4 | .ge => 5
/-- The value of a code, none for a reserved one (R295). -/
def Cond.ofCode : Nat → Option Cond
  | 0 => some .eq | 1 => some .ne | 2 => some .lt | 3 => some .le | 4 => some .gt | 5 => some .ge | _ => none

/-- The code of a value (R295). -/
def PredOp.code : PredOp → Nat
  | .and => 0 | .or => 1 | .xor => 2 | .andn => 3 | .orn => 4 | .not => 5
/-- The value of a code, none for a reserved one (R295). -/
def PredOp.ofCode : Nat → Option PredOp
  | 0 => some .and | 1 => some .or | 2 => some .xor | 3 => some .andn | 4 => some .orn | 5 => some .not | _ => none

/-- The code of a value (R295). -/
def HState.code : HState → Nat
  | .free => 0 | .filling => 1 | .full => 2 | .draining => 3
/-- The value of a code, none for a reserved one (R295). -/
def HState.ofCode : Nat → Option HState
  | 0 => some .free | 1 => some .filling | 2 => some .full | 3 => some .draining | _ => none

/-- The code of a value (R297). -/
def SysReg.code : SysReg → Nat
  | .status => 0 | .cause => 1 | .epc => 2 | .eval => 3 | .tvec => 4 | .sbst => 5 | .wid => 6 | .widw => 7 | .rgnb => 8 | .genr => 9 | .part => 10 | .gkey => 11 | .zscf => 12 | .satf => 13 | .rndm => 14
/-- The value of a code, none for a reserved one (R297). -/
def SysReg.ofCode : Nat → Option SysReg
  | 0 => some .status | 1 => some .cause | 2 => some .epc | 3 => some .eval | 4 => some .tvec | 5 => some .sbst | 6 => some .wid | 7 => some .widw | 8 => some .rgnb | 9 => some .genr | 10 => some .part | 11 => some .gkey | 12 => some .zscf | 13 => some .satf | 14 => some .rndm | _ => none

/-- The order field of a word (04 R91). -/
def orderOf (w : Nat) : Order := ⟨Fin.ofNat 8 (w / 8), Fin.ofNat 8 w⟩
/-- The order field as bits [5:0] (04 R91). -/
def Order.code (o : Order) : Nat := o.set.val * 8 + o.wait.val
/-- A register field whose lowest bit is `lo`. -/
def regOf (w lo : Nat) : Reg := Fin.ofNat 32 (w / 2 ^ lo)
/-- A one-bit field. -/
def flagOf (w lo : Nat) : Bool := w / 2 ^ lo % 2 == 1
/-- The bit of a flag. -/
def flagCode (b : Bool) : Nat := if b then 1 else 0
/-- The tile selector of GLOAD and its like: fn[0] and rb (14 R296). -/
def TileSel.code : TileSel → Nat
  | .all => 64 | .one r => r.val * 1024

/-- NOP (14 R296). -/
def decodeNop (w : Nat) : Dec :=
  if bits w 6 19 ≠ 0 then .error .reserved
  else if bits w 0 6 ≠ 0 then .error .orderField else .ok (.nop)
/-- ADD (14 R296). -/
def decodeAdd (w : Nat) : Dec :=
  if bits w 6 4 ≠ 0 then .error .reserved
  else if bits w 0 6 ≠ 0 then .error .orderField else .ok (.add (regOf w 20) (regOf w 15) (regOf w 10))
/-- SUB (14 R296). -/
def decodeSub (w : Nat) : Dec :=
  if bits w 6 4 ≠ 0 then .error .reserved
  else if bits w 0 6 ≠ 0 then .error .orderField else .ok (.sub (regOf w 20) (regOf w 15) (regOf w 10))
/-- MUL (14 R296). -/
def decodeMul (w : Nat) : Dec :=
  if bits w 6 4 ≠ 0 then .error .reserved
  else if bits w 0 6 ≠ 0 then .error .orderField else .ok (.mul (regOf w 20) (regOf w 15) (regOf w 10))
/-- MULH (14 R296). -/
def decodeMulh (w : Nat) : Dec :=
  if bits w 7 3 ≠ 0 then .error .reserved
  else if bits w 0 6 ≠ 0 then .error .orderField else .ok (.mulh (regOf w 20) (regOf w 15) (regOf w 10) (flagOf w 6))
/-- DIV (14 R296). -/
def decodeDiv (w : Nat) : Dec :=
  if bits w 7 3 ≠ 0 then .error .reserved
  else if bits w 0 6 ≠ 0 then .error .orderField else .ok (.div (regOf w 20) (regOf w 15) (regOf w 10) (flagOf w 6))
/-- REM (14 R296). -/
def decodeRem (w : Nat) : Dec :=
  if bits w 7 3 ≠ 0 then .error .reserved
  else if bits w 0 6 ≠ 0 then .error .orderField else .ok (.rem (regOf w 20) (regOf w 15) (regOf w 10) (flagOf w 6))
/-- AND (14 R296). -/
def decodeAnd (w : Nat) : Dec :=
  if bits w 6 4 ≠ 0 then .error .reserved
  else if bits w 0 6 ≠ 0 then .error .orderField else .ok (.and (regOf w 20) (regOf w 15) (regOf w 10))
/-- OR (14 R296). -/
def decodeOr (w : Nat) : Dec :=
  if bits w 6 4 ≠ 0 then .error .reserved
  else if bits w 0 6 ≠ 0 then .error .orderField else .ok (.or (regOf w 20) (regOf w 15) (regOf w 10))
/-- XOR (14 R296). -/
def decodeXor (w : Nat) : Dec :=
  if bits w 6 4 ≠ 0 then .error .reserved
  else if bits w 0 6 ≠ 0 then .error .orderField else .ok (.xor (regOf w 20) (regOf w 15) (regOf w 10))
/-- SHL (14 R296). -/
def decodeShl (w : Nat) : Dec :=
  if bits w 6 4 ≠ 0 then .error .reserved
  else if bits w 0 6 ≠ 0 then .error .orderField else .ok (.shl (regOf w 20) (regOf w 15) (regOf w 10))
/-- SHR (14 R296). -/
def decodeShr (w : Nat) : Dec :=
  if bits w 6 4 ≠ 0 then .error .reserved
  else if bits w 0 6 ≠ 0 then .error .orderField else .ok (.shr (regOf w 20) (regOf w 15) (regOf w 10))
/-- SRA (14 R296). -/
def decodeSra (w : Nat) : Dec :=
  if bits w 6 4 ≠ 0 then .error .reserved
  else if bits w 0 6 ≠ 0 then .error .orderField else .ok (.sra (regOf w 20) (regOf w 15) (regOf w 10))
/-- MIN (14 R296). -/
def decodeMin (w : Nat) : Dec :=
  if bits w 7 3 ≠ 0 then .error .reserved
  else if bits w 0 6 ≠ 0 then .error .orderField else .ok (.min (regOf w 20) (regOf w 15) (regOf w 10) (flagOf w 6))
/-- MAX (14 R296). -/
def decodeMax (w : Nat) : Dec :=
  if bits w 7 3 ≠ 0 then .error .reserved
  else if bits w 0 6 ≠ 0 then .error .orderField else .ok (.max (regOf w 20) (regOf w 15) (regOf w 10) (flagOf w 6))
/-- ADDI (14 R296). -/
def decodeAddi (w : Nat) : Dec :=
  .ok (.addi (regOf w 20) (regOf w 15) (BitVec.ofNat 15 (w / 1)))
/-- ANDI (14 R296). -/
def decodeAndi (w : Nat) : Dec :=
  .ok (.andi (regOf w 20) (regOf w 15) (BitVec.ofNat 15 (w / 1)))
/-- ORI (14 R296). -/
def decodeOri (w : Nat) : Dec :=
  .ok (.ori (regOf w 20) (regOf w 15) (BitVec.ofNat 15 (w / 1)))
/-- XORI (14 R296). -/
def decodeXori (w : Nat) : Dec :=
  .ok (.xori (regOf w 20) (regOf w 15) (BitVec.ofNat 15 (w / 1)))
/-- SHLI (14 R296). -/
def decodeShli (w : Nat) : Dec :=
  if bits w 6 9 ≠ 0 then .error .reserved
  else .ok (.shli (regOf w 20) (regOf w 15) (Fin.ofNat 64 (w / 1)))
/-- SHRI (14 R296). -/
def decodeShri (w : Nat) : Dec :=
  if bits w 6 9 ≠ 0 then .error .reserved
  else .ok (.shri (regOf w 20) (regOf w 15) (Fin.ofNat 64 (w / 1)))
/-- SRAI (14 R296). -/
def decodeSrai (w : Nat) : Dec :=
  if bits w 6 9 ≠ 0 then .error .reserved
  else .ok (.srai (regOf w 20) (regOf w 15) (Fin.ofNat 64 (w / 1)))
/-- CMPI (14 R296). -/
def decodeCmpi (w : Nat) : Dec :=
  if bits w 23 2 ≠ 0 then .error .reserved
  else match Cond.ofCode (bits w 12 3) with
    | some c => .ok (.cmpi (Fin.ofNat 8 (w / 1048576)) (regOf w 15) c (flagOf w 11) (BitVec.ofNat 11 (w / 1)))
    | _ => .error .reserved
/-- CMP (14 R296). -/
def decodeCmp (w : Nat) : Dec :=
  if bits w 23 2 ≠ 0 then .error .reserved
  else match Cond.ofCode (bits w 7 3) with
    | some c => if bits w 0 6 ≠ 0 then .error .orderField else .ok (.cmp (Fin.ofNat 8 (w / 1048576)) (regOf w 15) (regOf w 10) c (flagOf w 6))
    | _ => .error .reserved
/-- SEL (14 R296). -/
def decodeSel (w : Nat) : Dec :=
  if bits w 9 1 ≠ 0 then .error .reserved
  else if bits w 0 6 ≠ 0 then .error .orderField else .ok (.sel (regOf w 20) (regOf w 15) (regOf w 10) (Fin.ofNat 8 (w / 64)))
/-- CLZ (14 R296). -/
def decodeClz (w : Nat) : Dec :=
  if bits w 6 9 ≠ 0 then .error .reserved
  else if bits w 0 6 ≠ 0 then .error .orderField else .ok (.clz (regOf w 20) (regOf w 15))
/-- CTZ (14 R296). -/
def decodeCtz (w : Nat) : Dec :=
  if bits w 6 9 ≠ 0 then .error .reserved
  else if bits w 0 6 ≠ 0 then .error .orderField else .ok (.ctz (regOf w 20) (regOf w 15))
/-- POPC (14 R296). -/
def decodePopc (w : Nat) : Dec :=
  if bits w 6 9 ≠ 0 then .error .reserved
  else if bits w 0 6 ≠ 0 then .error .orderField else .ok (.popc (regOf w 20) (regOf w 15))
/-- BFX (14 R296). -/
def decodeBfx (w : Nat) : Dec :=
  if bits w 13 2 ≠ 0 ∨ 64 < bits w 6 6 + (bits w 0 6 + 1) then .error .reserved
  else .ok (.bfx (regOf w 20) (regOf w 15) (flagOf w 12) (Fin.ofNat 64 (w / 64)) (Fin.ofNat 64 (w / 1)))
/-- BFI (14 R296). -/
def decodeBfi (w : Nat) : Dec :=
  if bits w 12 3 ≠ 0 ∨ 64 < bits w 6 6 + (bits w 0 6 + 1) then .error .reserved
  else .ok (.bfi (regOf w 20) (regOf w 15) (Fin.ofNat 64 (w / 64)) (Fin.ofNat 64 (w / 1)))
/-- SEXT (14 R296). -/
def decodeSext (w : Nat) : Dec :=
  if bits w 8 7 ≠ 0 then .error .reserved
  else match Size.ofCode (bits w 6 2) with
    | some z => if z = .d then .error .reserved else if bits w 0 6 ≠ 0 then .error .orderField else .ok (.sext (regOf w 20) (regOf w 15) z)
    | _ => .error .reserved
/-- MOV (14 R296). -/
def decodeMov (w : Nat) : Dec :=
  if bits w 6 9 ≠ 0 then .error .reserved
  else if bits w 0 6 ≠ 0 then .error .orderField else .ok (.mov (regOf w 20) (regOf w 15))
/-- MOV_CHANNEL (14 R296). -/
def decodeMovChannel (w : Nat) : Dec :=
  if bits w 6 9 ≠ 8 ∨ bits w 18 2 ≠ 0 then .error .reserved
  else if bits w 0 6 ≠ 0 then .error .orderField else .ok (.movChannel (regOf w 20) (Fin.ofNat 8 (w / 32768)))
/-- LIS (14 R296). -/
def decodeLis (w : Nat) : Dec :=
  if bits w 15 5 ≠ 0 then .error .reserved
  else .ok (.lis (regOf w 20) (BitVec.ofNat 15 (w / 1)))
/-- LI (14 R296). -/
def decodeLi (w w2 : Nat) : Dec :=
  .ok (.li (regOf w 20) (BitVec.ofNat 52 (w % 2 ^ 20 * 2 ^ 32 + w2 % 2 ^ 32)))
/-- WIDF (14 R296). -/
def decodeWidf (w : Nat) : Dec :=
  if bits w 15 5 ≠ 0 ∨ 6 ≤ bits w 0 15 then .error .reserved
  else .ok (.widf (regOf w 20) (Fin.ofNat 6 (bits w 0 15)))
/-- PLOG (14 R296). -/
def decodePlog (w : Nat) : Dec :=
  if bits w 13 2 ≠ 0 ∨ bits w 18 2 ≠ 0 ∨ bits w 23 2 ≠ 0 then .error .reserved
  else match PredOp.ofCode (bits w 6 4) with
    | some q => if q = .not ∧ bits w 10 3 ≠ 0 then .error .reserved else if bits w 0 6 ≠ 0 then .error .orderField else .ok (.plog (Fin.ofNat 8 (w / 1048576)) (Fin.ofNat 8 (w / 32768)) (Fin.ofNat 8 (w / 1024)) q)
    | _ => .error .reserved
/-- PMOV_TO_REGISTER (14 R296). -/
def decodePmovToRegister (w : Nat) : Dec :=
  if bits w 6 14 ≠ 0 then .error .reserved
  else if bits w 0 6 ≠ 0 then .error .orderField else .ok (.pmovToRegister (regOf w 20))
/-- PMOV_TO_PREDICATES (14 R296). -/
def decodePmovToPredicates (w : Nat) : Dec :=
  if bits w 6 9 ≠ 1 ∨ bits w 20 5 ≠ 0 then .error .reserved
  else if bits w 0 6 ≠ 0 then .error .orderField else .ok (.pmovToPredicates (regOf w 15))
/-- ENRD (14 R296). -/
def decodeEnrd (w : Nat) : Dec :=
  if bits w 6 9 ≠ 0 then .error .reserved
  else if bits w 0 6 ≠ 0 then .error .orderField else .ok (.enrd (regOf w 20) (regOf w 15))
/-- B (14 R296). -/
def decodeB (w : Nat) : Dec :=
  if bits w 21 4 ≠ 0 then .error .reserved
  else .ok (.b (BitVec.ofNat 21 (w / 1)))
/-- BC (14 R296). -/
def decodeBc (w : Nat) : Dec :=
  .ok (.bc (Fin.ofNat 8 (w / 4194304)) (flagOf w 21) (BitVec.ofNat 21 (w / 1)))
/-- CALL (14 R296). -/
def decodeCall (w : Nat) : Dec :=
  if bits w 21 4 ≠ 0 then .error .reserved
  else .ok (.call (BitVec.ofNat 21 (w / 1)))
/-- CALLR (14 R296). -/
def decodeCallr (w : Nat) : Dec :=
  if bits w 6 9 ≠ 0 ∨ bits w 20 5 ≠ 0 then .error .reserved
  else if bits w 0 6 ≠ 0 then .error .orderField else .ok (.callr (regOf w 15))
/-- RET (14 R296). -/
def decodeRet (w : Nat) : Dec :=
  if bits w 6 19 ≠ 0 then .error .reserved
  else if bits w 0 6 ≠ 0 then .error .orderField else .ok (.ret)
/-- JMPR (14 R296). -/
def decodeJmpr (w : Nat) : Dec :=
  if bits w 6 9 ≠ 0 ∨ bits w 20 5 ≠ 0 then .error .reserved
  else if bits w 0 6 ≠ 0 then .error .orderField else .ok (.jmpr (regOf w 15))
/-- LDL (14 R296). -/
def decodeLdl (w : Nat) : Dec :=
  match LoadSize.ofCode (bits w 12 3) with
    | some z => .ok (.ldl (regOf w 20) (regOf w 15) z (BitVec.ofNat 6 (w / 64)) (orderOf w))
    | _ => .error .reserved
/-- STL (14 R296). -/
def decodeStl (w : Nat) : Dec :=
  if bits w 14 1 ≠ 0 ∨ bits w 14 1 ≠ 0 then .error .reserved
  else match Size.ofCode (bits w 12 2) with
    | some z => .ok (.stl (regOf w 20) (regOf w 15) z (BitVec.ofNat 6 (w / 64)) (orderOf w))
    | _ => .error .reserved
/-- LDG (14 R296). -/
def decodeLdg (w : Nat) : Dec :=
  match LoadSize.ofCode (bits w 12 3) with
    | some z => .ok (.ldg (regOf w 20) (regOf w 15) z (BitVec.ofNat 6 (w / 64)) (orderOf w))
    | _ => .error .reserved
/-- STG (14 R296). -/
def decodeStg (w : Nat) : Dec :=
  if bits w 14 1 ≠ 0 ∨ bits w 14 1 ≠ 0 then .error .reserved
  else match Size.ofCode (bits w 12 2) with
    | some z => .ok (.stg (regOf w 20) (regOf w 15) z (BitVec.ofNat 6 (w / 64)) (orderOf w))
    | _ => .error .reserved
/-- LDA (14 R296). -/
def decodeLda (w : Nat) : Dec :=
  if bits w 6 2 ≠ 0 then .error .reserved
  else match Ord.ofCode (bits w 12 3), Scp.ofCode (bits w 10 2), Size.ofCode (bits w 8 2) with
    | some q, some c, some z => if !q.okLoad then .error .suffix else .ok (.lda (regOf w 20) (regOf w 15) q c z (orderOf w))
    | _, _, _ => .error .reserved
/-- STRL (14 R296). -/
def decodeStrl (w : Nat) : Dec :=
  if bits w 6 2 ≠ 0 then .error .reserved
  else match Ord.ofCode (bits w 12 3), Scp.ofCode (bits w 10 2), Size.ofCode (bits w 8 2) with
    | some q, some c, some z => if !q.okStore then .error .suffix else .ok (.strl (regOf w 20) (regOf w 15) q c z (orderOf w))
    | _, _, _ => .error .reserved
/-- AMO (14 R296). -/
def decodeAmo (w : Nat) : Dec :=
  match Ord.ofCode (bits w 12 3), Scp.ofCode (bits w 10 2), AtomicOp.ofCode (bits w 6 3) with
    | some q, some c, some f => .ok (.amo (regOf w 20) (regOf w 15) q c (flagOf w 9) f (orderOf w))
    | _, _, _ => .error .reserved
/-- CAS (14 R296). -/
def decodeCas (w : Nat) : Dec :=
  if bits w 6 3 ≠ 0 ∨ bits w 20 5 = 31 then .error .reserved
  else match Ord.ofCode (bits w 12 3), Scp.ofCode (bits w 10 2) with
    | some q, some c => .ok (.cas (regOf w 20) (regOf w 15) q c (flagOf w 9) (orderOf w))
    | _, _ => .error .reserved
/-- AMOL (14 R296). -/
def decodeAmol (w : Nat) : Dec :=
  match Ord.ofCode (bits w 12 3), Scp.ofCode (bits w 10 2), AtomicOp.ofCode (bits w 6 3) with
    | some q, some c, some f => if !q.okLocal c then .error .suffix else .ok (.amol (regOf w 20) (regOf w 15) q c (flagOf w 9) f (orderOf w))
    | _, _, _ => .error .reserved
/-- FENCE (14 R296). -/
def decodeFence (w : Nat) : Dec :=
  if bits w 6 4 ≠ 0 ∨ bits w 15 10 ≠ 0 then .error .reserved
  else match Ord.ofCode (bits w 12 3), Scp.ofCode (bits w 10 2) with
    | some q, some c => if !q.okFence then .error .suffix else .ok (.fence q c (orderOf w))
    | _, _ => .error .reserved
/-- PREF (14 R296). -/
def decodePref (w : Nat) : Dec :=
  if bits w 20 5 ≠ 0 then .error .reserved
  else .ok (.pref (regOf w 15) (BitVec.ofNat 9 (w / 64)) (orderOf w))
/-- CFLUSH (14 R296). -/
def decodeCflush (w : Nat) : Dec :=
  if bits w 20 5 ≠ 0 then .error .reserved
  else .ok (.cflush (regOf w 15) (BitVec.ofNat 9 (w / 64)) (orderOf w))
/-- CINV (14 R296). -/
def decodeCinv (w : Nat) : Dec :=
  if bits w 20 5 ≠ 0 then .error .reserved
  else .ok (.cinv (regOf w 15) (BitVec.ofNat 9 (w / 64)) (orderOf w))
/-- TLOOK (14 R296). -/
def decodeTlook (w : Nat) : Dec :=
  if bits w 6 4 ≠ 0 then .error .reserved
  else .ok (.tlook (regOf w 20) (regOf w 15) (regOf w 10) (orderOf w))
/-- TINS (14 R296). -/
def decodeTins (w : Nat) : Dec :=
  if bits w 6 4 ≠ 0 then .error .reserved
  else .ok (.tins (regOf w 20) (regOf w 15) (regOf w 10) (orderOf w))
/-- TEVICT (14 R296). -/
def decodeTevict (w : Nat) : Dec :=
  if bits w 6 4 ≠ 0 then .error .reserved
  else .ok (.tevict (regOf w 20) (regOf w 15) (regOf w 10) (orderOf w))
/-- BARI (14 R296). -/
def decodeBari (w : Nat) : Dec :=
  if bits w 6 4 ≠ 0 ∨ bits w 20 5 ≠ 0 then .error .reserved
  else .ok (.bari (regOf w 15) (regOf w 10) (orderOf w))
/-- BARA (14 R296). -/
def decodeBara (w : Nat) : Dec :=
  if bits w 6 9 ≠ 0 then .error .reserved
  else .ok (.bara (regOf w 20) (regOf w 15) (orderOf w))
/-- BARW (14 R296). -/
def decodeBarw (w : Nat) : Dec :=
  if bits w 6 4 ≠ 0 ∨ bits w 20 5 ≠ 0 then .error .reserved
  else .ok (.barw (regOf w 15) (regOf w 10) (orderOf w))
/-- TSB (14 R296). -/
def decodeTsb (w : Nat) : Dec :=
  if bits w 6 4 ≠ 0 then .error .reserved
  else .ok (.tsb (regOf w 20) (regOf w 15) (regOf w 10) (orderOf w))
/-- LREL (14 R296). -/
def decodeLrel (w : Nat) : Dec :=
  if bits w 6 9 ≠ 0 ∨ bits w 20 5 ≠ 0 then .error .reserved
  else .ok (.lrel (regOf w 15) (orderOf w))
/-- EQPUT (14 R296). -/
def decodeEqput (w : Nat) : Dec :=
  if bits w 7 3 ≠ 0 then .error .reserved
  else .ok (.eqput (regOf w 20) (regOf w 15) (regOf w 10) (flagOf w 6) (orderOf w))
/-- EQGET: its entry and status registers differ unless both are x0 (14 R296, 16 R355). -/
def decodeEqget (w : Nat) : Dec :=
  if bits w 7 3 ≠ 0 ∨ (bits w 20 5 = bits w 10 5 ∧ bits w 20 5 ≠ 0) then .error .reserved
  else .ok (.eqget (regOf w 20) (regOf w 15) (regOf w 10) (flagOf w 6) (orderOf w))
/-- SEND (14 R296). -/
def decodeSend (w : Nat) : Dec :=
  if bits w 6 4 ≠ 0 ∨ bits w 20 5 ≠ 0 then .error .reserved
  else .ok (.send (regOf w 15) (regOf w 10) (orderOf w))
/-- WAITK (14 R296). -/
def decodeWaitk (w : Nat) : Dec :=
  if bits w 8 17 ≠ 0 then .error .reserved
  else .ok (.waitk (BitVec.ofNat 8 (w / 1)))
/-- SBWAIT (14 R296). -/
def decodeSbwait (w : Nat) : Dec :=
  if bits w 0 1 ≠ 0 ∨ bits w 8 17 ≠ 0 then .error .reserved
  else .ok (.sbwait (BitVec.ofNat 7 (w / 2)))
/-- YIELD (14 R296). -/
def decodeYield (w : Nat) : Dec :=
  if bits w 0 25 ≠ 0 then .error .reserved
  else .ok (.yield)
/-- STRGO (14 R296). -/
def decodeStrgo (w : Nat) : Dec :=
  if bits w 6 4 ≠ 0 ∨ bits w 20 5 ≠ 0 then .error .reserved
  else if bits w 0 6 ≠ 0 then .error .orderField else .ok (.strgo (regOf w 15) (regOf w 10))
/-- STRHLT (14 R296). -/
def decodeStrhlt (w : Nat) : Dec :=
  if bits w 6 9 ≠ 0 ∨ bits w 20 5 ≠ 0 then .error .reserved
  else if bits w 0 6 ≠ 0 then .error .orderField else .ok (.strhlt (regOf w 15))
/-- SLEEP (14 R296). -/
def decodeSleep (w : Nat) : Dec :=
  if bits w 6 19 ≠ 0 then .error .reserved
  else if bits w 0 6 ≠ 0 then .error .orderField else .ok (.sleep)
/-- WAKE (14 R296). -/
def decodeWake (w : Nat) : Dec :=
  if bits w 6 9 ≠ 0 ∨ bits w 20 5 ≠ 0 then .error .reserved
  else if bits w 0 6 ≠ 0 then .error .orderField else .ok (.wake (regOf w 15))
/-- HALLOC (14 R296). -/
def decodeHalloc (w : Nat) : Dec :=
  if bits w 6 4 ≠ 0 then .error .reserved
  else .ok (.halloc (regOf w 20) (regOf w 15) (regOf w 10) (orderOf w))
/-- HFREE (14 R296). -/
def decodeHfree (w : Nat) : Dec :=
  if bits w 6 2 ≠ 0 ∨ bits w 15 10 ≠ 0 then .error .reserved
  else .ok (.hfree (Fin.ofNat 128 (w / 256)) (orderOf w))
/-- HSET (14 R296). -/
def decodeHset (w : Nat) : Dec :=
  if bits w 15 10 ≠ 0 then .error .reserved
  else match HState.ofCode (bits w 6 2) with
    | some t => .ok (.hset (Fin.ofNat 128 (w / 256)) t (orderOf w))
    | _ => .error .reserved
/-- HWAIT (14 R296). -/
def decodeHwait (w : Nat) : Dec :=
  if bits w 15 10 ≠ 0 then .error .reserved
  else match HState.ofCode (bits w 6 2) with
    | some t => .ok (.hwait (Fin.ofNat 128 (w / 256)) t (orderOf w))
    | _ => .error .reserved
/-- HSTAT (14 R296). -/
def decodeHstat (w : Nat) : Dec :=
  if bits w 6 2 ≠ 0 ∨ bits w 15 5 ≠ 0 then .error .reserved
  else .ok (.hstat (regOf w 20) (Fin.ofNat 128 (w / 256)) (orderOf w))
/-- CPY (14 R296). -/
def decodeCpy (w : Nat) : Dec :=
  if bits w 6 9 ≠ 0 ∨ bits w 20 5 ≠ 0 then .error .reserved
  else .ok (.cpy (regOf w 15) (orderOf w))
/-- CPYT (14 R296). -/
def decodeCpyt (w : Nat) : Dec :=
  if bits w 6 3 ≠ 0 ∨ bits w 20 5 ≠ 0 then .error .reserved
  else .ok (.cpyt (regOf w 15) (Fin.ofNat 64 (w / 512)) (orderOf w))
/-- CPYQ (14 R296). -/
def decodeCpyq (w : Nat) : Dec :=
  if bits w 6 3 ≠ 0 ∨ bits w 20 5 ≠ 0 then .error .reserved
  else .ok (.cpyq (regOf w 15) (Fin.ofNat 64 (w / 512)) (orderOf w))
/-- CPYC (14 R296). -/
def decodeCpyc (w : Nat) : Dec :=
  if bits w 6 9 ≠ 0 ∨ bits w 20 5 ≠ 0 then .error .reserved
  else .ok (.cpyc (regOf w 15) (orderOf w))
/-- SCFG (14 R296). -/
def decodeScfg (w : Nat) : Dec :=
  if bits w 6 4 ≠ 0 ∨ bits w 13 2 ≠ 0 ∨ bits w 20 5 ≠ 0 then .error .reserved
  else .ok (.scfg (regOf w 15) (Fin.ofNat 8 (w / 1024)) (orderOf w))
/-- SWIN (14 R296). -/
def decodeSwin (w : Nat) : Dec :=
  if bits w 6 4 ≠ 0 ∨ bits w 13 2 ≠ 0 ∨ bits w 20 5 ≠ 0 then .error .reserved
  else .ok (.swin (regOf w 15) (Fin.ofNat 8 (w / 1024)) (orderOf w))
/-- SGO (14 R296). -/
def decodeSgo (w : Nat) : Dec :=
  if bits w 6 4 ≠ 0 ∨ bits w 13 12 ≠ 0 then .error .reserved
  else .ok (.sgo (Fin.ofNat 8 (w / 1024)) (orderOf w))
/-- SHALT (14 R296). -/
def decodeShalt (w : Nat) : Dec :=
  if bits w 6 4 ≠ 0 ∨ bits w 13 12 ≠ 0 then .error .reserved
  else .ok (.shalt (Fin.ofNat 8 (w / 1024)) (orderOf w))
/-- SSTAT (14 R296). -/
def decodeSstat (w : Nat) : Dec :=
  if bits w 6 4 ≠ 0 ∨ bits w 13 7 ≠ 0 then .error .reserved
  else .ok (.sstat (regOf w 20) (Fin.ofNat 8 (w / 1024)) (orderOf w))
/-- GLOAD (14 R296). -/
def decodeGload (w : Nat) : Dec :=
  if bits w 7 3 ≠ 0 ∨ bits w 20 5 ≠ 0 ∨ (bits w 6 1 = 1 ∧ bits w 10 5 ≠ 0) then .error .reserved
  else .ok (.gload (regOf w 15) (if bits w 6 1 = 1 then .all else .one (regOf w 10)) (orderOf w))
/-- GCOMMIT (14 R296). -/
def decodeGcommit (w : Nat) : Dec :=
  if bits w 6 19 ≠ 0 then .error .reserved
  else .ok (.gcommit (orderOf w))
/-- GSPLICE (14 R296). -/
def decodeGsplice (w : Nat) : Dec :=
  if bits w 7 3 ≠ 0 ∨ bits w 20 5 ≠ 0 ∨ (bits w 6 1 = 1 ∧ bits w 10 5 ≠ 0) then .error .reserved
  else .ok (.gsplice (regOf w 15) (if bits w 6 1 = 1 then .all else .one (regOf w 10)) (orderOf w))
/-- GRUN (14 R296). -/
def decodeGrun (w : Nat) : Dec :=
  if bits w 7 3 ≠ 0 ∨ bits w 15 10 ≠ 0 ∨ (bits w 6 1 = 1 ∧ bits w 10 5 ≠ 0) then .error .reserved
  else .ok (.grun (if bits w 6 1 = 1 then .all else .one (regOf w 10)) (orderOf w))
/-- GFRZ (14 R296). -/
def decodeGfrz (w : Nat) : Dec :=
  if bits w 7 3 ≠ 0 ∨ bits w 15 10 ≠ 0 ∨ (bits w 6 1 = 1 ∧ bits w 10 5 ≠ 0) then .error .reserved
  else .ok (.gfrz (if bits w 6 1 = 1 then .all else .one (regOf w 10)) (orderOf w))
/-- GDRAIN (14 R296). -/
def decodeGdrain (w : Nat) : Dec :=
  if bits w 7 3 ≠ 0 ∨ bits w 15 10 ≠ 0 ∨ (bits w 6 1 = 1 ∧ bits w 10 5 ≠ 0) then .error .reserved
  else .ok (.gdrain (if bits w 6 1 = 1 then .all else .one (regOf w 10)) (orderOf w))
/-- GSEND (14 R296). -/
def decodeGsend (w : Nat) : Dec :=
  if bits w 8 2 ≠ 0 ∨ bits w 20 5 ≠ 0 then .error .reserved
  else .ok (.gsend (regOf w 15) (regOf w 10) (Fin.ofNat 4 (w / 64)) (orderOf w))
/-- GRECV (14 R296). -/
def decodeGrecv (w : Nat) : Dec :=
  if bits w 9 11 ≠ 0 then .error .reserved
  else .ok (.grecv (regOf w 20) (flagOf w 8) (Fin.ofNat 4 (w / 64)) (orderOf w))
/-- GCONST (14 R296). -/
def decodeGconst (w : Nat) : Dec :=
  if bits w 6 4 ≠ 0 ∨ bits w 20 5 ≠ 0 then .error .reserved
  else .ok (.gconst (regOf w 15) (regOf w 10) (orderOf w))
/-- GSTAT (14 R296). -/
def decodeGstat (w : Nat) : Dec :=
  if bits w 6 4 ≠ 0 ∨ bits w 15 5 ≠ 0 then .error .reserved
  else .ok (.gstat (regOf w 20) (regOf w 10) (orderOf w))
/-- MXCFG (14 R296). -/
def decodeMxcfg (w : Nat) : Dec :=
  if bits w 6 9 ≠ 0 ∨ bits w 20 5 ≠ 0 then .error .reserved
  else .ok (.mxcfg (regOf w 15) (orderOf w))
/-- MXLDB (14 R296). -/
def decodeMxldb (w : Nat) : Dec :=
  if bits w 6 9 ≠ 0 ∨ bits w 20 5 ≠ 0 then .error .reserved
  else .ok (.mxldb (regOf w 15) (orderOf w))
/-- MXROT (14 R296). -/
def decodeMxrot (w : Nat) : Dec :=
  if bits w 6 19 ≠ 0 then .error .reserved
  else .ok (.mxrot (orderOf w))
/-- MXZERO (14 R296). -/
def decodeMxzero (w : Nat) : Dec :=
  if bits w 6 9 ≠ 0 ∨ bits w 20 5 ≠ 0 then .error .reserved
  else .ok (.mxzero (regOf w 15) (orderOf w))
/-- MXRD (14 R296). -/
def decodeMxrd (w : Nat) : Dec :=
  if bits w 7 3 ≠ 0 ∨ bits w 20 5 ≠ 0 then .error .reserved
  else .ok (.mxrd (regOf w 15) (regOf w 10) (flagOf w 6) (orderOf w))
/-- MXCHK (14 R296). -/
def decodeMxchk (w : Nat) : Dec :=
  if bits w 6 14 ≠ 0 then .error .reserved
  else .ok (.mxchk (regOf w 20) (orderOf w))
/-- TDONE (14 R296). -/
def decodeTdone (w : Nat) : Dec :=
  if bits w 6 19 ≠ 0 then .error .reserved
  else if bits w 0 6 ≠ 0 then .error .orderField else .ok (.tdone)
/-- TSIG (14 R296). -/
def decodeTsig (w : Nat) : Dec :=
  if bits w 6 9 ≠ 0 ∨ bits w 20 5 ≠ 0 then .error .reserved
  else .ok (.tsig (regOf w 15) (orderOf w))
/-- GINST (14 R296). -/
def decodeGinst (w : Nat) : Dec :=
  if bits w 6 4 ≠ 0 then .error .reserved
  else if bits w 0 6 ≠ 0 then .error .orderField else .ok (.ginst (regOf w 20) (regOf w 15) (regOf w 10))
/-- TSTAT (14 R296). -/
def decodeTstat (w : Nat) : Dec :=
  if bits w 6 9 ≠ 0 then .error .reserved
  else if bits w 0 6 ≠ 0 then .error .orderField else .ok (.tstat (regOf w 20) (regOf w 15))
/-- TFAIL (14 R296). -/
def decodeTfail (w : Nat) : Dec :=
  if bits w 8 17 ≠ 0 ∨ bits w 0 8 = 0 ∨ 0x13 < bits w 0 8 then .error .reserved
  else .ok (.tfail (BitVec.ofNat 8 (w / 1)))
/-- XLT (14 R296). -/
def decodeXlt (w : Nat) : Dec :=
  if bits w 6 9 ≠ 0 then .error .reserved
  else .ok (.xlt (regOf w 20) (regOf w 15) (orderOf w))
/-- TLBI (14 R296). -/
def decodeTlbi (w : Nat) : Dec :=
  if bits w 6 4 ≠ 0 ∨ bits w 20 5 ≠ 0 then .error .reserved
  else if bits w 0 6 ≠ 0 then .error .orderField else .ok (.tlbi (regOf w 15) (regOf w 10))
/-- SVC (14 R296). -/
def decodeSvc (w : Nat) : Dec :=
  if bits w 8 17 ≠ 0 then .error .reserved
  else .ok (.svc (BitVec.ofNat 8 (w / 1)))
/-- TRAP (14 R296). -/
def decodeTrap (w : Nat) : Dec :=
  if bits w 8 17 ≠ 0 then .error .reserved
  else .ok (.trap (BitVec.ofNat 8 (w / 1)))
/-- ERET (14 R296). -/
def decodeEret (w : Nat) : Dec :=
  if bits w 0 25 ≠ 0 then .error .reserved else .ok (.eret)
/-- SRD (14 R296). -/
def decodeSrd (w : Nat) : Dec :=
  if bits w 15 5 ≠ 0 then .error .reserved
  else match SysReg.ofCode (bits w 0 15) with
    | some r => .ok (.srd (regOf w 20) r)
    | _ => .error .reserved
/-- SWR (14 R296). -/
def decodeSwr (w : Nat) : Dec :=
  if bits w 20 5 ≠ 0 then .error .reserved
  else match SysReg.ofCode (bits w 0 15) with
    | some r => .ok (.swr (regOf w 15) r)
    | _ => .error .reserved
/-- HALT (14 R296). -/
def decodeHalt (w : Nat) : Dec :=
  if bits w 6 19 ≠ 0 then .error .reserved
  else if bits w 0 6 ≠ 0 then .error .orderField else .ok (.halt)
/-- BRK (14 R296). -/
def decodeBrk (w : Nat) : Dec :=
  if bits w 8 17 ≠ 0 then .error .reserved
  else .ok (.brk (BitVec.ofNat 8 (w / 1)))
/-- The two forms of MOV, told apart by fn (14 R296). -/
def decodeMovForms (w : Nat) : Dec := if bits w 9 1 = 1 then decodeMovChannel w else decodeMov w
/-- The two forms of PMOV, told apart by fn (14 R296). -/
def decodePmovForms (w : Nat) : Dec := if bits w 6 1 = 1 then decodePmovToPredicates w else decodePmovToRegister w

/-- Opcodes 0x00 to 0x0F of R294. -/
def decodeRow0 (op w : Nat) : Dec :=
  match op with
  | 1 => decodeNop w
  | 2 => decodeAdd w
  | 3 => decodeSub w
  | 4 => decodeMul w
  | 5 => decodeMulh w
  | 6 => decodeDiv w
  | 7 => decodeRem w
  | 8 => decodeAnd w
  | 9 => decodeOr w
  | 10 => decodeXor w
  | 11 => decodeShl w
  | 12 => decodeShr w
  | 13 => decodeSra w
  | 14 => decodeMin w
  | 15 => decodeMax w
  | _ => .error .opcode
/-- Opcodes 0x10 to 0x1F of R294. -/
def decodeRow1 (op w : Nat) : Dec :=
  match op with
  | 16 => decodeAddi w
  | 17 => decodeAndi w
  | 18 => decodeOri w
  | 19 => decodeXori w
  | 20 => decodeShli w
  | 21 => decodeShri w
  | 22 => decodeSrai w
  | 23 => decodeCmpi w
  | 24 => decodeCmp w
  | 25 => decodeSel w
  | 26 => decodeClz w
  | 27 => decodeCtz w
  | 28 => decodePopc w
  | 29 => decodeBfx w
  | 30 => decodeBfi w
  | 31 => decodeSext w
  | _ => .error .opcode
/-- Opcodes 0x20 to 0x2F of R294. -/
def decodeRow2 (op w w2 : Nat) : Dec :=
  match op with
  | 32 => decodeMovForms w
  | 33 => decodeLis w
  | 34 => decodeLi w w2
  | 35 => decodeWidf w
  | 36 => decodePlog w
  | 37 => decodePmovForms w
  | 38 => decodeEnrd w
  | 40 => decodeB w
  | 41 => decodeBc w
  | 42 => decodeCall w
  | 43 => decodeCallr w
  | 44 => decodeRet w
  | 45 => decodeJmpr w
  | _ => .error .opcode
/-- Opcodes 0x30 to 0x3F of R294. -/
def decodeRow3 (op w : Nat) : Dec :=
  match op with
  | 48 => decodeLdl w
  | 49 => decodeStl w
  | 50 => decodeLdg w
  | 51 => decodeStg w
  | 52 => decodeLda w
  | 53 => decodeStrl w
  | 54 => decodeAmo w
  | 55 => decodeCas w
  | 56 => decodeAmol w
  | 57 => decodeFence w
  | 58 => decodePref w
  | 59 => decodeCflush w
  | 60 => decodeCinv w
  | _ => .error .opcode
/-- Opcodes 0x40 to 0x4F of R294. -/
def decodeRow4 (op w : Nat) : Dec :=
  match op with
  | 64 => decodeTlook w
  | 65 => decodeTins w
  | 66 => decodeTevict w
  | 67 => decodeBari w
  | 68 => decodeBara w
  | 69 => decodeBarw w
  | 70 => decodeTsb w
  | 71 => decodeLrel w
  | 72 => decodeEqput w
  | 73 => decodeEqget w
  | 76 => decodeSend w
  | 77 => decodeWaitk w
  | 78 => decodeSbwait w
  | 79 => decodeYield w
  | _ => .error .opcode
/-- Opcodes 0x50 to 0x5F of R294. -/
def decodeRow5 (op w : Nat) : Dec :=
  match op with
  | 80 => decodeStrgo w
  | 81 => decodeStrhlt w
  | 82 => decodeSleep w
  | 83 => decodeWake w
  | 84 => decodeHalloc w
  | 85 => decodeHfree w
  | 86 => decodeHset w
  | 87 => decodeHwait w
  | 88 => decodeHstat w
  | 89 => decodeCpy w
  | 90 => decodeCpyt w
  | 91 => decodeCpyq w
  | 92 => decodeCpyc w
  | 93 => decodeScfg w
  | 94 => decodeSwin w
  | 95 => decodeSgo w
  | _ => .error .opcode
/-- Opcodes 0x60 to 0x6F of R294. -/
def decodeRow6 (op w : Nat) : Dec :=
  match op with
  | 96 => decodeShalt w
  | 97 => decodeSstat w
  | 98 => decodeGload w
  | 99 => decodeGcommit w
  | 100 => decodeGsplice w
  | 101 => decodeGrun w
  | 102 => decodeGfrz w
  | 103 => decodeGdrain w
  | 104 => decodeGsend w
  | 105 => decodeGrecv w
  | 106 => decodeGconst w
  | 107 => decodeGstat w
  | 108 => decodeMxcfg w
  | 109 => decodeMxldb w
  | 110 => decodeMxrot w
  | 111 => decodeMxzero w
  | _ => .error .opcode
/-- Opcodes 0x70 to 0x7F of R294. -/
def decodeRow7 (op w : Nat) : Dec :=
  match op with
  | 112 => decodeMxrd w
  | 113 => decodeMxchk w
  | 114 => decodeTdone w
  | 115 => decodeTsig w
  | 116 => decodeGinst w
  | 117 => decodeTstat w
  | 118 => decodeTfail w
  | 119 => decodeXlt w
  | 120 => decodeTlbi w
  | 121 => decodeSvc w
  | 122 => decodeTrap w
  | 123 => decodeEret w
  | 124 => decodeSrd w
  | 125 => decodeSwr w
  | 126 => decodeHalt w
  | 127 => decodeBrk w
  | _ => .error .opcode
/-- The control-processor decoder: `w` is the word at the program counter and `w2` the word after it, which only LI
reads. The checks come in the order of R293. -/
def decode (w w2 : Nat) : Dec :=
  let op := bits w 25 7
  match op / 16 with
  | 0 => decodeRow0 op w | 1 => decodeRow1 op w | 2 => decodeRow2 op w w2 | 3 => decodeRow3 op w
  | 4 => decodeRow4 op w | 5 => decodeRow5 op w | 6 => decodeRow6 op w | _ => decodeRow7 op w

/-- The bytes an instruction takes in instruction memory (04 R96). -/
def Instr.length : Instr → Nat
  | .li _ _ => 8
  | _ => 4

/-- The first word of a control-processor instruction (14 R296); 0, which is no instruction, for every other row. -/
def encode : Instr → Nat
  | .nop => 33554432
  | .add d a b => 67108864 + d.val * 1048576 + a.val * 32768 + b.val * 1024
  | .sub d a b => 100663296 + d.val * 1048576 + a.val * 32768 + b.val * 1024
  | .mul d a b => 134217728 + d.val * 1048576 + a.val * 32768 + b.val * 1024
  | .mulh d a b u => 167772160 + d.val * 1048576 + a.val * 32768 + b.val * 1024 + flagCode u * 64
  | .div d a b u => 201326592 + d.val * 1048576 + a.val * 32768 + b.val * 1024 + flagCode u * 64
  | .rem d a b u => 234881024 + d.val * 1048576 + a.val * 32768 + b.val * 1024 + flagCode u * 64
  | .and d a b => 268435456 + d.val * 1048576 + a.val * 32768 + b.val * 1024
  | .or d a b => 301989888 + d.val * 1048576 + a.val * 32768 + b.val * 1024
  | .xor d a b => 335544320 + d.val * 1048576 + a.val * 32768 + b.val * 1024
  | .shl d a b => 369098752 + d.val * 1048576 + a.val * 32768 + b.val * 1024
  | .shr d a b => 402653184 + d.val * 1048576 + a.val * 32768 + b.val * 1024
  | .sra d a b => 436207616 + d.val * 1048576 + a.val * 32768 + b.val * 1024
  | .min d a b u => 469762048 + d.val * 1048576 + a.val * 32768 + b.val * 1024 + flagCode u * 64
  | .max d a b u => 503316480 + d.val * 1048576 + a.val * 32768 + b.val * 1024 + flagCode u * 64
  | .addi d a i => 536870912 + d.val * 1048576 + a.val * 32768 + i.toNat
  | .andi d a i => 570425344 + d.val * 1048576 + a.val * 32768 + i.toNat
  | .ori d a i => 603979776 + d.val * 1048576 + a.val * 32768 + i.toNat
  | .xori d a i => 637534208 + d.val * 1048576 + a.val * 32768 + i.toNat
  | .shli d a n => 671088640 + d.val * 1048576 + a.val * 32768 + n.val
  | .shri d a n => 704643072 + d.val * 1048576 + a.val * 32768 + n.val
  | .srai d a n => 738197504 + d.val * 1048576 + a.val * 32768 + n.val
  | .cmpi p a c u i => 771751936 + p.val * 1048576 + a.val * 32768 + c.code * 4096 + flagCode u * 2048 + i.toNat
  | .cmp p a b c u => 805306368 + p.val * 1048576 + a.val * 32768 + b.val * 1024 + c.code * 128 + flagCode u * 64
  | .sel d a b p => 838860800 + d.val * 1048576 + a.val * 32768 + b.val * 1024 + p.val * 64
  | .clz d a => 872415232 + d.val * 1048576 + a.val * 32768
  | .ctz d a => 905969664 + d.val * 1048576 + a.val * 32768
  | .popc d a => 939524096 + d.val * 1048576 + a.val * 32768
  | .bfx d a x p l => 973078528 + d.val * 1048576 + a.val * 32768 + flagCode x * 4096 + p.val * 64 + l.val
  | .bfi d a p l => 1006632960 + d.val * 1048576 + a.val * 32768 + p.val * 64 + l.val
  | .sext d a z => 1040187392 + d.val * 1048576 + a.val * 32768 + z.code * 64
  | .mov d a => 1073741824 + d.val * 1048576 + a.val * 32768
  | .movChannel d k => 1073741824 + 512 + d.val * 1048576 + k.val * 32768
  | .lis d i => 1107296256 + d.val * 1048576 + i.toNat
  | .li d v => 1140850688 + d.val * 1048576 + v.toNat / 2 ^ 32
  | .widf d n => 1174405120 + d.val * 1048576 + n.val
  | .plog d a b q => 1207959552 + d.val * 1048576 + a.val * 32768 + b.val * 1024 + q.code * 64
  | .pmovToRegister d => 1241513984 + d.val * 1048576
  | .pmovToPredicates a => 1241513984 + 64 + a.val * 32768
  | .enrd d a => 1275068416 + d.val * 1048576 + a.val * 32768
  | .b t => 1342177280 + t.toNat
  | .bc p w t => 1375731712 + p.val * 4194304 + flagCode w * 2097152 + t.toNat
  | .call t => 1409286144 + t.toNat
  | .callr a => 1442840576 + a.val * 32768
  | .ret => 1476395008
  | .jmpr a => 1509949440 + a.val * 32768
  | .ldl d a z e o => 1610612736 + d.val * 1048576 + a.val * 32768 + z.code * 4096 + e.toNat * 64 + o.code
  | .stl d a z e o => 1644167168 + d.val * 1048576 + a.val * 32768 + z.code * 4096 + e.toNat * 64 + o.code
  | .ldg d a z e o => 1677721600 + d.val * 1048576 + a.val * 32768 + z.code * 4096 + e.toNat * 64 + o.code
  | .stg d a z e o => 1711276032 + d.val * 1048576 + a.val * 32768 + z.code * 4096 + e.toNat * 64 + o.code
  | .lda d a q c z o => 1744830464 + d.val * 1048576 + a.val * 32768 + q.code * 4096 + c.code * 1024 + z.code * 256 + o.code
  | .strl d a q c z o => 1778384896 + d.val * 1048576 + a.val * 32768 + q.code * 4096 + c.code * 1024 + z.code * 256 + o.code
  | .amo d a q c wide f o => 1811939328 + d.val * 1048576 + a.val * 32768 + q.code * 4096 + c.code * 1024 + flagCode wide * 512 + f.code * 64 + o.code
  | .amol d a q c wide f o => 1879048192 + d.val * 1048576 + a.val * 32768 + q.code * 4096 + c.code * 1024 + flagCode wide * 512 + f.code * 64 + o.code
  | .cas d a q c wide o => 1845493760 + d.val * 1048576 + a.val * 32768 + q.code * 4096 + c.code * 1024 + flagCode wide * 512 + o.code
  | .fence q c o => 1912602624 + q.code * 4096 + c.code * 1024 + o.code
  | .pref a e o => 1946157056 + a.val * 32768 + e.toNat * 64 + o.code
  | .cflush a e o => 1979711488 + a.val * 32768 + e.toNat * 64 + o.code
  | .cinv a e o => 2013265920 + a.val * 32768 + e.toNat * 64 + o.code
  | .tlook d a b o => 2147483648 + d.val * 1048576 + a.val * 32768 + b.val * 1024 + o.code
  | .tins d a b o => 2181038080 + d.val * 1048576 + a.val * 32768 + b.val * 1024 + o.code
  | .tevict d a b o => 2214592512 + d.val * 1048576 + a.val * 32768 + b.val * 1024 + o.code
  | .bari a b o => 2248146944 + a.val * 32768 + b.val * 1024 + o.code
  | .bara d a o => 2281701376 + d.val * 1048576 + a.val * 32768 + o.code
  | .barw a b o => 2315255808 + a.val * 32768 + b.val * 1024 + o.code
  | .tsb d a b o => 2348810240 + d.val * 1048576 + a.val * 32768 + b.val * 1024 + o.code
  | .lrel a o => 2382364672 + a.val * 32768 + o.code
  | .eqput d a b k o => 2415919104 + d.val * 1048576 + a.val * 32768 + b.val * 1024 + flagCode k * 64 + o.code
  | .eqget d a b k o => 2449473536 + d.val * 1048576 + a.val * 32768 + b.val * 1024 + flagCode k * 64 + o.code
  | .send a b o => 2550136832 + a.val * 32768 + b.val * 1024 + o.code
  | .waitk m => 2583691264 + m.toNat
  | .sbwait m => 2617245696 + m.toNat * 2
  | .yield => 2650800128
  | .strgo a b => 2684354560 + a.val * 32768 + b.val * 1024
  | .strhlt a => 2717908992 + a.val * 32768
  | .sleep => 2751463424
  | .wake a => 2785017856 + a.val * 32768
  | .halloc d a b o => 2818572288 + d.val * 1048576 + a.val * 32768 + b.val * 1024 + o.code
  | .hfree h o => 2852126720 + h.val * 256 + o.code
  | .hset h t o => 2885681152 + h.val * 256 + t.code * 64 + o.code
  | .hwait h t o => 2919235584 + h.val * 256 + t.code * 64 + o.code
  | .hstat d h o => 2952790016 + d.val * 1048576 + h.val * 256 + o.code
  | .cpy a o => 2986344448 + a.val * 32768 + o.code
  | .cpyt a q o => 3019898880 + a.val * 32768 + q.val * 512 + o.code
  | .cpyq a q o => 3053453312 + a.val * 32768 + q.val * 512 + o.code
  | .cpyc a o => 3087007744 + a.val * 32768 + o.code
  | .scfg a e o => 3120562176 + a.val * 32768 + e.val * 1024 + o.code
  | .swin a e o => 3154116608 + a.val * 32768 + e.val * 1024 + o.code
  | .sgo e o => 3187671040 + e.val * 1024 + o.code
  | .shalt e o => 3221225472 + e.val * 1024 + o.code
  | .sstat d e o => 3254779904 + d.val * 1048576 + e.val * 1024 + o.code
  | .gload a t o => 3288334336 + a.val * 32768 + t.code + o.code
  | .gcommit o => 3321888768 + o.code
  | .gsplice a t o => 3355443200 + a.val * 32768 + t.code + o.code
  | .grun t o => 3388997632 + t.code + o.code
  | .gfrz t o => 3422552064 + t.code + o.code
  | .gdrain t o => 3456106496 + t.code + o.code
  | .gsend a b n o => 3489660928 + a.val * 32768 + b.val * 1024 + n.val * 64 + o.code
  | .grecv d h n o => 3523215360 + d.val * 1048576 + flagCode h * 256 + n.val * 64 + o.code
  | .gconst a b o => 3556769792 + a.val * 32768 + b.val * 1024 + o.code
  | .gstat d b o => 3590324224 + d.val * 1048576 + b.val * 1024 + o.code
  | .mxcfg a o => 3623878656 + a.val * 32768 + o.code
  | .mxldb a o => 3657433088 + a.val * 32768 + o.code
  | .mxrot o => 3690987520 + o.code
  | .mxzero a o => 3724541952 + a.val * 32768 + o.code
  | .mxrd a b t o => 3758096384 + a.val * 32768 + b.val * 1024 + flagCode t * 64 + o.code
  | .mxchk d o => 3791650816 + d.val * 1048576 + o.code
  | .tdone => 3825205248
  | .tsig a o => 3858759680 + a.val * 32768 + o.code
  | .ginst d a b => 3892314112 + d.val * 1048576 + a.val * 32768 + b.val * 1024
  | .tstat d a => 3925868544 + d.val * 1048576 + a.val * 32768
  | .tfail c => 3959422976 + c.toNat
  | .xlt d a o => 3992977408 + d.val * 1048576 + a.val * 32768 + o.code
  | .tlbi a b => 4026531840 + a.val * 32768 + b.val * 1024
  | .svc n => 4060086272 + n.toNat
  | .trap n => 4093640704 + n.toNat
  | .eret => 4127195136
  | .srd d r => 4160749568 + d.val * 1048576 + r.code
  | .swr a r => 4194304000 + a.val * 32768 + r.code
  | .halt => 4227858432
  | .brk n => 4261412864 + n.toNat
  | _ => 0

/-- The second word of LI (14 R292). -/
def encodeSecond : Instr → Nat
  | .li _ v => v.toNat % 2 ^ 32
  | _ => 0

/-- The fields of a triggered word (05 R112). -/
def peFields (w : Nat) : PeWord :=
  ⟨BitVec.ofNat 8 (w / 2 ^ 56), BitVec.ofNat 8 (w / 2 ^ 48), BitVec.ofNat 4 (w / 2 ^ 44), BitVec.ofNat 4 (w / 2 ^ 40),
    flagOf w 39, Fin.ofNat 4 (w / 2 ^ 37), BitVec.ofNat 5 (w / 2 ^ 32), Fin.ofNat 16 (w / 2 ^ 21), Fin.ofNat 16 (w / 2 ^ 17),
    Fin.ofNat 16 (w / 2 ^ 13), BitVec.ofNat 4 (w / 2 ^ 9), Fin.ofNat 8 (w / 2 ^ 6), Fin.ofNat 4 (w / 2 ^ 4), Fin.ofNat 16 w⟩
/-- A triggered word from its opcode and fields (05 R112). -/
def packPe (op : Nat) (f : PeWord) : Nat :=
  f.pcare.toNat * 2 ^ 56 + f.pval.toNat * 2 ^ 48 + f.inrdy.toNat * 2 ^ 44 + f.ospc.toNat * 2 ^ 40 + flagCode f.tte * 2 ^ 39
    + f.tq.val * 2 ^ 37 + f.tval.toNat * 2 ^ 32 + op * 2 ^ 25 + f.dst.val * 2 ^ 21 + f.sa.val * 2 ^ 17 + f.sb.val * 2 ^ 13
    + f.deq.toNat * 2 ^ 9 + f.pidx.val * 64 + f.pact.val * 16 + f.lt.val

/-- The word of a slot that never fires (14 R298). -/
def emptySlot : Nat := 0xFE000000

/-- The PE decoder (14 R298): none for an unassigned opcode and for EMPTY. The two forms of RAND are told apart by LT
(17 R406). -/
def decodePe (w : Nat) : Option Instr :=
  let f := peFields w
  match bits w 25 7 with
  | 0 => some (.gridNop f)
  | 1 => some (.move f)
  | 2 => some (.dup f)
  | 3 => some (.gridAdd f)
  | 4 => some (.gridSub f)
  | 5 => some (.gridMul f)
  | 6 => some (.fma f)
  | 7 => some (.fms f)
  | 8 => some (.gridMin f)
  | 9 => some (.gridMax f)
  | 10 => some (.abs f)
  | 11 => some (.neg f)
  | 12 => some (.gridCmp f)
  | 13 => some (.gridSel f)
  | 14 => some (.gridAnd f)
  | 15 => some (.gridOr f)
  | 16 => some (.gridXor f)
  | 17 => some (.not f)
  | 18 => some (.gridShl f)
  | 19 => some (.gridShr f)
  | 20 => some (.gridSra f)
  | 21 => some (.cvt f)
  | 22 => some (.cvts f)
  | 23 => some (.exp2 f)
  | 24 => some (.log2 f)
  | 25 => some (.rcp f)
  | 26 => some (.rsq f)
  | 27 => some (.red f)
  | 28 => some (.bcst f)
  | 29 => some (.shuf f)
  | 30 => some (.tag f)
  | 31 => some (.steer f)
  | 32 => some (.merge f)
  | 33 => some (.lgen f)
  | 34 => some (.cnt f)
  | 35 => some (if f.lt = 6 then .randSeed f else .rand f)
  | 36 => some (.mld f)
  | 37 => some (.mst f)
  | 38 => some (.mamo f)
  | 39 => some (.mtas f)
  | 40 => some (.xltn f)
  | 41 => some (.barn f)
  | 42 => some (.endk f)
  | _ => none
/-- The triggered word of a PE instruction; 0 for every other row (14 R298). -/
def encodePe : Instr → Nat
  | .gridNop f => packPe 0 f
  | .move f => packPe 1 f
  | .dup f => packPe 2 f
  | .gridAdd f => packPe 3 f
  | .gridSub f => packPe 4 f
  | .gridMul f => packPe 5 f
  | .fma f => packPe 6 f
  | .fms f => packPe 7 f
  | .gridMin f => packPe 8 f
  | .gridMax f => packPe 9 f
  | .abs f => packPe 10 f
  | .neg f => packPe 11 f
  | .gridCmp f => packPe 12 f
  | .gridSel f => packPe 13 f
  | .gridAnd f => packPe 14 f
  | .gridOr f => packPe 15 f
  | .gridXor f => packPe 16 f
  | .not f => packPe 17 f
  | .gridShl f => packPe 18 f
  | .gridShr f => packPe 19 f
  | .gridSra f => packPe 20 f
  | .cvt f => packPe 21 f
  | .cvts f => packPe 22 f
  | .exp2 f => packPe 23 f
  | .log2 f => packPe 24 f
  | .rcp f => packPe 25 f
  | .rsq f => packPe 26 f
  | .red f => packPe 27 f
  | .bcst f => packPe 28 f
  | .shuf f => packPe 29 f
  | .tag f => packPe 30 f
  | .steer f => packPe 31 f
  | .merge f => packPe 32 f
  | .lgen f => packPe 33 f
  | .cnt f => packPe 34 f
  | .rand f => packPe 35 f
  | .randSeed f => packPe 35 f
  | .mld f => packPe 36 f
  | .mst f => packPe 37 f
  | .mamo f => packPe 38 f
  | .mtas f => packPe 39 f
  | .xltn f => packPe 40 f
  | .barn f => packPe 41 f
  | .endk f => packPe 42 f
  | _ => 0

/-- The header fields that make a packet malformed whatever its opcode (08 R200). `reserved` is bits [80:0]. -/
def Packet.malformed (p : Packet) (reserved : Nat) : Bool :=
  16 < p.src || 16 < p.dst || 4 < p.ndf || 16 < p.tok || (p.own && (p.tok == 0 || p.ndf != 4)) || reserved != 0

/-- The 32 bytes of a packet's header (08 R200). `reserved` is bits [80:0]. -/
def packetHeader (opc reserved : Nat) (p : Packet) : Nat :=
  opc * 2 ^ 249 + p.src * 2 ^ 244 + p.dst * 2 ^ 239 + p.ndf * 2 ^ 236 + p.tok * 2 ^ 231 + flagCode p.own * 2 ^ 230 + flagCode p.drty * 2 ^ 229
    + flagCode p.psn * 2 ^ 228 + p.part.toNat * 2 ^ 224 + p.txn % 2 ^ 16 * 2 ^ 208 + p.line * 2 ^ 163 + p.boff * 2 ^ 156 + p.size * 2 ^ 153
    + p.gen * 2 ^ 105 + p.stat.toNat * 2 ^ 97 + p.aux * 2 ^ 81 + reserved

/-- The opcode, the reserved bits and the fields that a packet's header holds (08 R200), beside the line its data flits carry and what no
header field holds (log 9). -/
def packetFields (h : Nat) (data : Line) (key enables : Nat) : Nat × Nat × Packet :=
  (bits h 249 7, bits h 0 81,
   { src := bits h 244 5
     dst := bits h 239 5
     ndf := bits h 236 3
     tok := bits h 231 5
     own := flagOf h 230
     drty := flagOf h 229
     psn := flagOf h 228
     part := BitVec.ofNat 4 (bits h 224 4)
     txn := bits h 208 16
     line := bits h 163 45
     boff := bits h 156 7
     size := bits h 153 3
     gen := bits h 105 48
     stat := BitVec.ofNat 8 (bits h 97 8)
     aux := bits h 81 16
     data := data
     key := key
     enables := enables })

/-- Every field of the packet fits its place in the header (08 R200). -/
def Packet.fits (p : Packet) : Bool :=
  decide (p.src < 2 ^ 5) && decide (p.dst < 2 ^ 5) && decide (p.ndf < 2 ^ 3) && decide (p.tok < 2 ^ 5) && decide (p.txn < 2 ^ 16)
    && decide (p.line < 2 ^ 45) && decide (p.boff < 2 ^ 7) && decide (p.size < 2 ^ 3) && decide (p.gen < 2 ^ 48) && decide (p.aux < 2 ^ 16)

/-- The row of a packet (08 R201): by its opcode, or UNKNOWN_PACKET for an unassigned opcode or a malformed header.
DECR is decoded as the message that it carries. -/
def decodePacket (opc reserved : Nat) (p : Packet) : Instr :=
  if p.malformed reserved then .unknownPacket opc reserved p else
  match opc with
  | 1 => .gets p
  | 2 => .getx p
  | 3 => .tokd p
  | 4 => .tokn p
  | 5 => .refuse p
  | 6 => .ticket p
  | 7 => .grant p
  | 8 => .preq p
  | 9 => .pact p
  | 10 => .pdeact p
  | 11 => .pack p
  | 12 => .pdone p
  | 13 => .ucrd p
  | 14 => .ucwr p
  | 15 => .ucrsp p
  | 16 => .mtop p
  | 17 => .mtrsp p
  | 19 => .sct p
  | 20 => .nack p
  | _ => .unknownPacket opc reserved p

/-- The opcode of DECR (08 R201). -/
def opcDecr : Nat := 0x12

/-- The row of a decrement message that reaches a dispatcher (03 R75): by its kind, or malformed for a reserved kind or
a non-zero reserved bit. `p` is the packet that carries it. -/
def decodeDecr (p : Packet) (w0 w1 : Word) : Instr :=
  let die := p.dst
  let a := w0.toNat
  let b := w1.toNat
  let m : DecrMsg := ⟨bits a 54 10, bits a 51 3, bits a 32 16, bits a 0 32, bits b 34 15, bits b 30 4, bits b 26 4, bits b 22 4,
    bits b 18 4⟩
  if bits b 49 15 ≠ 0 ∨ bits b 0 18 ≠ 0 then .malformedDecrementMessage p w0 w1
  else match bits a 48 3 with
    | 0 => .decrement die m
    | 1 => .forwardDecrement die m
    | 2 => .abortMessage die m
    | 3 => .acknowledgement die m
    | _ => .malformedDecrementMessage p w0 w1

/-- The code of a message's kind (03 R75). -/
def DecrKind.code : DecrKind → Nat
  | .decrement => 0 | .forward => 1 | .abort => 2 | .ack => 3

/-- The two words of a decrement message (03 R75). -/
def encodeDecr (k : DecrKind) (m : DecrMsg) : Word × Word :=
  (BitVec.ofNat 64 (m.sdev * 2 ^ 54 + m.sdie * 2 ^ 51 + k.code * 2 ^ 48 + m.tinst * 2 ^ 32 + m.seq),
   BitVec.ofNat 64 (m.record * 2 ^ 34 + m.pbx * 2 ^ 30 + m.pby * 2 ^ 26 + m.pw * 2 ^ 22 + m.ph * 2 ^ 18))

/-- The opcode, fields and arguments of a command's eight doublewords (12 R271). -/
def commandFields (w0 ts a0 a1 a2 a3 a4 a5 : Word) : Nat × Cmd :=
  (bits w0.toNat 56 8,
   ⟨BitVec.ofNat 4 (w0.toNat / 2 ^ 52), BitVec.ofNat 20 (w0.toNat / 2 ^ 32), BitVec.ofNat 32 w0.toNat, ts, a0, a1, a2, a3, a4, a5⟩)

/-- Word 0 of a command's 64 bytes (12 R271); TS and the arguments are its other seven words. -/
def commandWord (opc : Nat) (c : Cmd) : Word :=
  BitVec.ofNat 64 (opc * 2 ^ 56 + c.part.toNat * 2 ^ 52 + c.reserved.toNat * 2 ^ 32 + c.seq.toNat)

/-- The row of a host command (12 R273, 13 R283); every opcode without a command is RESERVED_COMMAND. -/
def decodeCommand (opc : Nat) (c : Cmd) : Instr :=
  match opc with
  | 1 => .hostNop c
  | 2 => .rdinv c
  | 3 => .rdlog c
  | 4 => .ldmq c
  | 5 => .inst c
  | 6 => .rsvi c
  | 7 => .kill c
  | 8 => .freeze c
  | 9 => .setqw c
  | 10 => .setctx c
  | 11 => .setkey c
  | 12 => .hostTlbi c
  | 13 => .pans c
  | 14 => .mtasn c
  | 15 => .fpool c
  | 16 => .offline c
  | 17 => .pwrcap c
  | 18 => .setid c
  | 19 => .admitDevice c
  | 20 => .dismiss c
  | 21 => .rdcnt c
  | 22 => .rdpat c
  | 23 => .rdpub c
  | 24 => .rdsns c
  | 25 => .rdwlog c
  | 26 => .fwstage c
  | 27 => .fwcommit c
  | 28 => .rdacc c
  | 32 => .bpool c
  | n => .reservedCommand (BitVec.ofNat 8 n) c

/-- The instruction that the decoder reads from a control-processor instruction whose first word is bits [31:0] of `w`
and whose second word, if it has one, is bits [63:32]. The table numbers a word's bits as R291 does. -/
def decodeTableWord (_nbits w : Nat) : Option Instr :=
  match decode (w % 2 ^ 32) (w / 2 ^ 32 % 2 ^ 32) with
  | .ok i => some i
  | .error _ => none

end Sys2Proof
end

