-- ==== Sys2Proof/Config.lean ====
section
/-! DEFINITION. What decides which agent moves, and the values that the spec leaves open. An opaque constant has no
body, so no proof can see a value of it (log 1, log 2). -/
namespace Sys2Proof

/-- What one step of the machine gives the move to (log 1): a c-cycle of a tile, which is the issue slot of one strand, an a-cycle of a PE, an
a-cycle of a die's firing permission, the command queue of a tile's engines, a packet in flight, an a-cycle of a memory tile's bank, the next host command, an event, a host write to its own memory, or
the control node's word on how far it has read the event ring (log 11), the host's read of a launch record (02 R33, log 105), the records of a
checkpoint, or the end of a scratchpad race (09 R230, log 87). -/
inductive Turn where
  | strand (die site : Nat)
  | pe (die site pe : Nat)
  | permission (die : Nat)
  | engine (die site : Nat)
  | packet (k : Nat)
  | bank (tile bank : Nat)
  | command
  | event (i : Instr)
  | hostWrite (addr : Nat) (bytes : List Byte)
  | eventHead (head : Nat)
  | recordRead (die rec : Nat)
  | records
  | settle (die site k : Nat)
  deriving DecidableEq, Repr, Inhabited

/-- Which turn comes next when the agenda lists none, at count `n` of the free-value counter (log 1). -/
opaque Config.nextTurn : Nat → Turn
/-- A choice that the spec leaves to the part: a victim way, a placement in graph memory, a next hop (log 2). -/
opaque Config.choice : Nat → Nat
/-- A line of local HBM, of tweak PA[49:7], decrypted with a key other than the one it was written under (10 R245, log 2). -/
opaque Config.wrongKey : Nat → Line → Nat → Nat → Line
/-- The code that an armature core runs for a role: a word and its start bit, and the length of the section in bytes (01 R14, 12 R280 step 6,
log 85). -/
opaque Config.firmware : Nat → Nat → BitVec 32 × Bool
/-- The length of a role's code section in bytes (log 85). -/
opaque Config.firmwareLength : Nat → Nat
/-- What a slot reads as a part of a queue's head that the head's entry does not have: after a commit the part counter may stand beyond the
parts of the head's new entry (05 R117, R130, log 2). -/
opaque Config.partBeyond : Nat → QWord → QWord
/-- Whether the Golfy port fails a read of 8 bytes of host memory (14 R305, log 2). -/
opaque Config.hostReadFails : Nat → Bool
/-- The energy in uJ that one count of an activity class adds to the dynamic estimate of a rail: a coefficient of the signed configuration table
(13 R286, log 89). -/
opaque Config.coefficient : Nat → Nat → Rat
/-- The static estimate of a rail for one interval, in uJ, at the sensor readings: the temperature model of the same table (13 R286, log
89). -/
opaque Config.staticEstimate : Nat → List Nat → Rat
/-- Whether a wrapped key unwraps, and the key it gives (10 R245, 12 R273 SETKEY, log 2). -/
opaque Config.unwrapKey : List Byte → Option Nat
/-- SHAKE-256 with 256 bits of output (13 R288, log 2). -/
opaque Config.shake256 : List Byte → BitVec 256
/-- The SLH-DSA-SHAKE-256f signature of a bundle (13 R288, log 2). -/
opaque Config.signature : List Byte → List Byte
/-- The module's 64-byte public key (13 R283, log 2). -/
opaque Config.publicKey : List Byte
/-- Whether a staged firmware image verifies, and its version (12 R280 step 1, 13 R283, log 2). -/
opaque Config.verifyImage : List Byte → Option Nat
/-- The drop and error counters of a node as RDCNT lays them out (12 R273, log 2). -/
opaque Config.counterBytes : Nat → List Nat → List Byte
/-- The latest sensor samples as RDSNS lays them out (13 R283, log 2). -/
opaque Config.sensorBytes : List Nat → List Byte
/-- A correctly rounded result that the model's approximation of EXP2 or LOG2 cannot decide: 0 for EXP2 and 1 for LOG2,
the operand's bits, and the lane type (07, 16 R357, log 2). -/
opaque Config.transcendental : Nat → Nat → Nat → Nat

end Sys2Proof
end

