-- ==== Sys2Proof/Machine/State.lean ====
section
/-! DEFINITION. The state of the module as plain data: every register, memory, queue and table that the spec gives it,
and State.reset. Sparse tables list only what differs from the value an unlisted key reads as. -/
namespace Sys2Proof.Machine

/-- Byte memory in its canonical form: addresses strictly rising, no byte equal to 0, which an unlisted address reads
as (log 5). -/
abbrev Memory := List Host.Cell

/-! ### The control processor -/

/-- The states of a strand (04 R105). -/
inductive RunState where | run | sleep | halted | stopped
  deriving DecidableEq, Repr, Inhabited

/-- A channel register: full bit, payload, and the poison of the payload (04 R85, 11 R260). -/
structure Channel where
  full : Bool
  payload : Word
  psn : Bool
  deriving DecidableEq, Repr, Inhabited

/-- A fault report: cause code, detail and EVAL (11 R255). -/
structure Report where
  cause : Nat
  detail : Nat
  eval : Word
  deriving DecidableEq, Repr, Inhabited

/-- A strand (04 R84, R98). STATUS is held as its fields (R99), EPC and TVEC as their WOFF (R101), p0 is never stored
as false, x0 never as other than 0. `busy` marks the registers that an operation in flight will write (R83), `acquires`
the acquires that have not completed (09 R223), `stall` that the strand waits at TLBI, GINST or TDONE, `stand` the handle and state of an HWAIT that
it stands at, and whether the handle has been in that state since (16 R369, log 64). -/
structure Strand where
  x : Vector Word 32
  p : BitVec 8
  k : Vector Channel 8
  pc : Word
  sb : Vector Nat 8
  prv : Bool
  intrap : Bool
  imp : Bool
  barbrk : Bool
  causeCode : BitVec 8
  causeDetail : BitVec 8
  epc : BitVec 15
  tvec : BitVec 15
  eval : Word
  wid : Word
  run : RunState
  wake : Bool
  pending : List Report
  busy : BitVec 32
  yielded : Bool
  acquires : Nat
  stall : Bool
  stand : Option (Nat × HState × Bool)
  deriving DecidableEq, Repr, Inhabited

/-- A message in an inbound buffer or in transit (04 R86). -/
structure Message where
  die : Nat
  site : Nat
  strand : Nat
  chan : Nat
  payload : Word
  psn : Bool
  srcSite : Nat
  srcStrand : Nat
  gen : Nat
  slot : Nat
  deriving DecidableEq, Repr, Inhabited

/-- A word of instruction memory: its bits, start bit and poison (04 R95). -/
structure IWord where
  bits : BitVec 32
  start : Bool
  psn : Bool
  deriving DecidableEq, Repr, Inhabited

/-- A line of the tile L1 (08 R194), with its partition tag and poison. -/
structure L1Line where
  data : Line
  part : BitVec 4
  psn : Bool
  deriving DecidableEq, Repr, Inhabited

/-- An entry of a TLB or capability slot (10 R246, R249). `gk` and the rest are the leaf's (R242). -/
structure TlbEntry where
  part : BitVec 4
  cgen : Nat
  vbase : Nat
  size : Nat
  pbase : Nat
  gk : BitVec 8
  kidx : Nat
  r : Bool
  w : Bool
  x : Bool
  c : Bool
  deriving DecidableEq, Repr, Inhabited

/-- How a page walk ends (10 R243, R244). -/
inductive WalkEnd where
  | notPresent | malformed | poisoned | context
  | leaf (e : TlbEntry)
  deriving DecidableEq, Repr, Inhabited

/-! ### The grid -/

/-- A 16-byte word with its tag and the poison of its halves; `ended` marks an end token (05 R111, 16 R354), `old` a word on its way to a stream
port that a predecessor's plane wrote before its PE switched to its successor's (03 R72, 06 R156). -/
structure GWord where
  bits : QWord
  tag : BitVec 5
  psn : BitVec 2
  ended : Bool
  old : Bool := false
  deriving DecidableEq, Repr, Inhabited

/-- Where the credit of a queued word returns: the PE and output queue of a route, a stream engine, the island's D port,
or nowhere (05 R121). -/
inductive Source where
  | route (site pe q : Nat)
  | dport
  | none
  deriving DecidableEq, Repr, Inhabited

/-- A word that stands in a queue, lane, port or buffer. -/
structure Queued where
  word : GWord
  src : Source
  deriving DecidableEq, Repr, Inhabited

/-- A place of an output queue: the route that was in force when it was taken, and its word, none while a delayed result
`id` holds it reserved (05 R119, R120, log 21). -/
structure OutPlace where
  id : Nat
  route : BitVec 64
  word : Option GWord
  deriving DecidableEq, Repr, Inhabited

/-- A delayed result of a PE (05 R119): the destination as of R113, the word, its flag and predicate action, and what it
waits for: kind 0 nothing, 3 MAMO, 4 MTAS, 5 XLTN. -/
structure Delayed where
  id : Nat
  dst : Nat
  word : GWord
  flag : Bool
  pact : Nat
  pidx : Nat
  kind : Nat
  deriving DecidableEq, Repr, Inhabited

/-- A configuration plane of one PE (05 R111, R128). An unlisted slot is EMPTY; an unlisted VC entry or route is 0. Bits `2k` and
`2k + 1` of `constPsn` are the poison of the halves of c`k` (11 R260). -/
structure Plane where
  slots : Tbl (BitVec 64)
  consts : Vector QWord 4
  constPsn : BitVec 8
  vc : Tbl (BitVec 16)
  routes : Tbl (BitVec 64)
  deriving DecidableEq, Repr, Inhabited

/-- A processing element (05 R111). `credit` counts the credits in use of each output queue (R121), `ins` the input queues that
have a route in the plane that a boundary leaves (R72). `onB` says which plane it reads: the switched bit turns it (R72). `loadCode` is the
result of its latest load: 0 clean, a check code of R114, or 0x100 for CFGUE. -/
structure Pe where
  planeA : Plane
  planeB : Plane
  onB : Bool
  d : Vector QWord 8
  dPsn : Vector (BitVec 2) 8
  p : BitVec 8
  inq : Vector (List Queued) 4
  part : Vector Nat 4
  outq : Vector (List OutPlace) 4
  credit : Vector Nat 4
  lgen : Tbl Nat
  rand : BitVec 128
  delayed : List Delayed
  switched : Bool
  ins : BitVec 4
  ended : Bool
  arrivals : Tbl Bool
  arrivalPhase : Tbl Nat
  arrivalGroup : Tbl Nat
  loadCode : Nat
  loadEval : Word
  deriving DecidableEq, Repr, Inhabited

/-- A word that travels on a route (05 R121). Its destination is read from the route record. -/
structure InFlight where
  pe : Nat
  q : Nat
  route : BitVec 64
  word : GWord
  deriving DecidableEq, Repr, Inhabited

/-- The shadow's load state (05 R129, R130). -/
inductive ShadowState where | notLoaded | loading | loaded | failed | armed
  deriving DecidableEq, Repr, Inhabited

/-- A grid command in progress at its issuing tile: 0 GLOAD, 1 GSPLICE, 2 GDRAIN, 4 GFRZ (16 R362 to R365). -/
structure GridCmd where
  kind : Nat
  strand : Nat
  slot : Nat
  sites : List Nat
  deriving DecidableEq, Repr, Inhabited

/-! ### The island -/

/-- A B latch: its state (0 EMPTY, 1 FILLING, 2 FULL or VALID), the bytes of B row by row, the E8M0 scales, the checksum
column as exact numerators over 2^-298, and its poison (05 R137, 17 R391). -/
structure Latch where
  state : Nat
  b : Memory
  scales : Memory
  checks : List (BitVec 48)
  psn : Bool
  deriving DecidableEq, Repr, Inhabited

/-- A command of the island that has issued and not completed: 0 MXCFG, 1 MXLDB, 2 MXROT, 3 MXZERO, 4 MXRD, 5 MXCHK (17 R389 to
R396). `arg` and `arg2` are its operands (the instruction word for MXROT), `dst` the register it writes, `mode` the MODE of RNDM at
issue, `stoch` the stochastic form; `fill` says it has started filling. -/
structure IslandCmd where
  kind : Nat
  strand : Nat
  slot : Nat
  arg : Word
  arg2 : Word
  dst : Reg
  mode : BitVec 3
  stoch : Bool
  fill : Bool
  deriving DecidableEq, Repr, Inhabited

/-- The matrix island (05 R134 to R141, 17 R388 to R396). An accumulator value not listed is the zero pattern of R184. -/
structure Island where
  configured : Bool
  config : Word
  front : Latch
  back : Latch
  acc : Tbl (BitVec 48)
  accPsn : List Nat
  lanes : Vector (List Queued) 9
  engineWords : List GWord
  half : Option (List GWord)
  nrr : Nat
  nps : Nat
  lastp : Nat
  dused : Nat
  cmds : List IslandCmd
  deriving DecidableEq, Repr, Inhabited

/-! ### Engines and handles -/

/-- A handle entry with its fill count (06 R142). `cover` has a bit for each byte of the extent that the current fill has written, and
`writers` names the commands that have written in it: a stream engine by its number, a copy by 8 plus its own (06 R144). -/
structure Handle where
  bnd : Bool
  state : HState
  ws : Bool
  psn : Bool
  rd : Nat
  swz : BitVec 5
  base : Nat
  len : Nat
  filled : Nat
  cover : Nat
  writers : List Nat
  deriving DecidableEq, Repr, Inhabited

/-- An HWAIT or HFREE that has issued with a set slot and waits for a state of a handle: its strand, its slot, and whether it is an HFREE (16 R368 to
R370, log 64). -/
structure HandleWait where
  strand : Nat
  slot : Nat
  handle : Nat
  want : HState
  unbind : Bool
  deriving DecidableEq, Repr, Inhabited

/-- A copy descriptor (06 R148); `descAddr` is where it was read, `cb8` for CPYC. -/
structure CopyDesc where
  descAddr : Nat
  saddr : Nat
  daddr : Nat
  sk : Nat
  dk : Nat
  sx : Nat
  sy : Nat
  dx : Nat
  dy : Nat
  all : Bool
  sh : Nat
  dh : Nat
  dswz : BitVec 5
  sswz : BitVec 5
  rel : Bool
  len : Nat
  cb8 : Bool
  deriving DecidableEq, Repr, Inhabited

/-- An armed template and the strand that armed it (06 R152). -/
structure Template where
  desc : CopyDesc
  strand : Nat
  deriving DecidableEq, Repr, Inhabited

/-- A copy token with its poison (06 R151), and the template that was armed when it reached the head of its queue (15 R349). -/
structure Token where
  bits : Word
  psn : Bool
  src : Source
  tpl : Option Template
  deriving DecidableEq, Repr, Inhabited

/-- The answer to a request of an engine: whether it was a write, its virtual address, error, bytes and poison (log 12). -/
structure PeerPiece where
  write : Bool
  va : Nat
  error : Bool
  data : List Byte
  psn : Bool
  deriving DecidableEq, Repr, Inhabited

/-- A copy in flight (06 R150, R164). `slot` is its set slot, 0 for a fired copy; `staging` the record it stages for;
`done` counts bytes written; `cbPos` is the source position of CPYC; `wait` that it waits for a translation or a peer; `peer` holds the peer's answers;
`fired` marks a copy that a token fired (06 R153), `lead` the staging copy whose merged read this one takes part in, itself for one that reads
(03 R64). -/
structure Job where
  id : Nat
  desc : CopyDesc
  strand : Nat
  slot : Nat
  staging : Option Nat
  acquired : Bool
  done : Nat
  cbPos : Nat
  cbBad : Bool
  wait : Bool
  peer : List PeerPiece
  fired : Bool
  lead : Option Nat
  deriving DecidableEq, Repr, Inhabited

/-- The states of a stream engine (06 R157). -/
inductive StreamState where | idle | ready | run | parked | fault
  deriving DecidableEq, Repr, Inhabited

/-- A word that a read run has read, or a fault token, that is not delivered yet, with the PE and the input queue of the pattern that read
it (06 R156, R158). -/
structure OutWord where
  word : GWord
  pe : Nat
  q : Nat
  deriving DecidableEq, Repr, Inhabited

/-- A stream engine: pattern descriptor words, window word, state, position, the SGO it serves, the words that wait at its
write port, the word being packed, the words not yet delivered (a fault token among them), the delay line and its poison,
the peer's answers, and the count of words or elements it has taken from its port (06 R154 to R160). -/
structure Stream where
  state : StreamState
  desc : List Word
  window : Option Word
  pos : Nat
  strand : Nat
  slot : Nat
  cause : Nat
  detail : Nat
  port : List Queued
  pack : QWord
  packPsn : BitVec 2
  packed : Nat
  acquired : Bool
  delay : Memory
  delayPsn : List Nat
  out : List OutWord
  taken : Nat
  cbBad : Bool
  wait : Bool
  peer : List PeerPiece
  deriving DecidableEq, Repr, Inhabited

/-- An engine command that waits in the tile's command queue (06 R163): 0 CPY, 1 CPYC, 2 CPYT, 3 CPYQ, 4 SCFG, 5 SWIN,
6 SGO, 7 SHALT; `unit` is the queue or engine. -/
structure EngineCmd where
  kind : Nat
  strand : Nat
  slot : Nat
  arg : Word
  unit : Nat
  deriving DecidableEq, Repr, Inhabited

/-- What has written a scratchpad word that others may still find as it stood: a strand's store, until its access ends; a PE's MST; an
stream engine or copy, by its number; the island (09 R230). -/
inductive Racer where
  | store (id : Nat) | grid | engine (who : Nat) | island
  deriving DecidableEq, Repr, Inhabited
/-- Another value that a racing reader may find in an aligned 4-byte word of a scratchpad (09 R230); none finds it any more once it is `over`,
while its writer goes on. -/
structure Race where
  word : Nat
  value : BitVec 32
  psn : Bool
  writer : Racer
  past : Bool
  deriving DecidableEq, Repr, Inhabited

/-- A compute tile or armature core (01 R17). `act` and `pln` give the grid's active plane: `pln` is false before any
commit. `codeLen` and `codeLen2` are the section lengths in bytes of the running half and of a spliced successor's, `requests` the SENDs that ask
for a credit of its inbound buffer, by site, strand and PC (04 R88), `cycle` the count of its c-cycles modulo 4 (04 R81), `firmware` the role
whose firmware an armature core runs (01 R14), `races` the other values that racing readers of its scratchpad may find (09 R230). -/
structure Tile where
  strands : Vector Strand 4
  widw : Word
  rgnb : Word
  gen : Nat
  gen2 : Option Nat
  part : BitVec 4
  gkey : BitVec 8
  zsc : Bool
  sat : Bool
  rnd : BitVec 3
  task : Option Nat
  succ : Option Nat
  imem : Tbl IWord
  half : Bool
  codeLen : Nat
  codeLen2 : Nat
  inbuf : List Message
  credits : Nat
  requests : List (Nat × Nat × Nat)
  cycle : Nat
  firmware : Option Nat
  l1 : Tbl L1Line
  spad : Memory
  spadTag : Tbl (BitVec 4)
  spadPsn : List Nat
  races : List Race
  handles : Tbl Handle
  hwaits : List HandleWait
  queues : Tbl (List Token)
  templates : Tbl Template
  jobs : List Job
  streams : Tbl Stream
  cmdq : List EngineCmd
  caps : Tbl TlbEntry
  capNext : Nat
  utlb : Vector (List TlbEntry) 4
  pes : Tbl Pe
  firing : Bool
  heldPf : Bool
  planeOn : Bool
  actB : Bool
  shadow : ShadowState
  splicing : Bool
  rndAct : BitVec 3
  rndNew : BitVec 3
  routes : List InFlight
  ports : Tbl (List Queued)
  gridCmds : List GridCmd
  island : Island
  fwdIn : List GWord
  bndDone : Bool
  deriving DecidableEq, Repr, Inhabited

/-! ### Accesses in flight -/

/-- Who issued an access (09 R215). -/
inductive Agent where
  | strand (die site strand : Nat)
  | stream (die site engine : Nat)
  | copy (die site job : Nat)
  | pe (die site pe id : Nat)
  | dispatcher (die rec : Nat)
  | tile (slot : Nat)
  | routed (die site strand : Nat)
  deriving DecidableEq, Repr, Inhabited

/-- What an access does: the loads, stores and atomics, translation alone, a line operation (CFLUSH when `owner` holds, else CINV), PREF, the
memory-tile operations by their code. -/
inductive AccessKind where
  | load | store | atomic (op : AtomicOp) | cas | fence | xlt | flush (owner : Bool) | pref | window (op : Nat)
  deriving DecidableEq, Repr, Inhabited

/-- Where an access stands: translation, a walk, a page request, its die cache, its home, a peer, the host, a memory
tile, the list of a barrier, lock or edge queue, the read or write of an edge queue's ring line, or behind such an operation of its
descriptor (`held`), or a scratchpad store that an engine may still miss (`scratch`, 09 R230). -/
inductive Phase where
  | translate | walk | page | cache | uncached | serial | remote | host | window | waiter | ring | held | retry | drained | scratch
  deriving DecidableEq, Repr, Inhabited

/-- An access that has issued and has not completed. Identifiers rise in issue order, so they give each strand's program
order. `dst` and `dst2` name the registers it writes, `mark` is the number of remote-write entries made before it issued
(09 R236), `plain` that it is no ordered form
(09 R217), `noAcq` that its acquire did not take place (a TSB that took no lock, an EQGET without an entry), `kidx` the key slot of its leaf, `txn` the transaction number of its packet, 0 while
none is out (08 R200), `ringTxn` that of the memory tile's own packet for an edge queue's ring, `port` the port of its memory tile that took it
(08 R213). A window access that waits for a walk holds the walked address in `pa`. -/
structure Access where
  id : Nat
  agent : Agent
  kind : AccessKind
  phase : Phase
  va : Nat
  bytes : Nat
  part : BitVec 4
  gkey : BitVec 8
  gen : Nat
  data : Word
  data2 : Word
  dst : Reg
  dst2 : Reg
  signed : Bool
  ord : Ord
  scp : Scp
  slot : Nat
  pa : Nat
  kidx : Nat
  cacheable : Bool
  sent : Bool
  mark : Nat
  plain : Bool
  noAcq : Bool
  txn : Nat
  ringTxn : Nat
  port : Nat
  deriving DecidableEq, Repr, Inhabited

/-! ### The fabric die -/

/-- A placement log entry (03 R62). -/
structure PlaceEntry where
  gen : Nat
  inst : Nat
  recNo : Nat
  bx : Nat
  by_ : Nat
  w : Nat
  h : Nat
  prio : Nat
  part : BitVec 4
  kind : Nat
  seq : Nat
  endState : Nat
  cause : Nat
  bad : Bool
  deriving DecidableEq, Repr, Inhabited

/-- A fault record (11 R256). -/
structure FaultRecord where
  pseq : Nat
  gen : Nat
  cause : Nat
  detail : Nat
  eval : Word
  wid : Word
  tx : Nat
  ty : Nat
  strand : Nat
  fseq : Nat
  bad : Bool
  deriving DecidableEq, Repr, Inhabited

/-- The task states (02 R47). -/
inductive TaskState where
  | dormant | ready | placed | staging | runnable | running | frozen | done | failed
  deriving DecidableEq, Repr, Inhabited

/-- What a record's task awaits once it has ended or a freeze has been asked for (02 R44, R51, 11 R264). -/
inductive EndRequest where | none | done | freeze
  deriving DecidableEq, Repr, Inhabited

/-- The saved image of one tile (11 R264): the site where it stood, the tile, its freeze slot until that is returned, the operations that the freeze took
out of a wait and that the restored strand issues again (03 R80, 15 R334), and the lines that were written into the slot (11 R264, R266). -/
structure Image where
  site : Nat
  tile : Tile
  slot : Option Nat
  waits : List Access
  held : List Nat
  deriving DecidableEq, Repr, Inhabited

/-- A launch record (02 R33) and what the dispatcher keeps for it: the reservation count (R30), the producer region of a
forward decrement (03 R68), its bypass, splice partner (R71), staging progress (R63), freeze image (11 R264), the answers of peers
and homes to the reads of its kernel image (log 12), the number of remote-write entries made before its retirement (09 R236), and that the
predecessor that would have spliced it has failed (03 R71). -/
structure Record where
  kaddr : Nat
  part : BitVec 4
  gkey : BitVec 8
  dcnt : Nat
  state : TaskState
  prio : Nat
  spl : Bool
  fwd : Bool
  w : Nat
  h : Nat
  nops : Nat
  bx : Nat
  by_ : Nat
  fcause : Nat
  byp : Nat
  frz : Bool
  wids : Nat
  user : Word
  slptr : Nat
  nsucc : Nat
  inst : Nat
  gen : Nat
  arg0 : Word
  arg1 : Word
  opds : List (Word × Word)
  reserved : Bool
  abortMark : Bool
  parked : Bool
  producer : Option (Nat × Nat × Nat × Nat)
  pred : Option Nat
  succRec : Option Nat
  splSent : Bool
  forwardOpen : Bool
  bound : Option Nat
  endReq : EndRequest
  freezeSeq : Option Nat
  restore : Bool
  image : List Image
  codeResident : Bool
  psn : Bool
  succPsn : Bool
  noDecr : Bool
  pseq : Nat
  barrier : Tbl (Nat × Nat × Nat)
  peer : List PeerPiece
  rwbMark : Option Nat
  splFailed : Bool
  deriving DecidableEq, Repr, Inhabited

/-- A loaded maquette (02 R26, 14 R301). -/
structure Maquette where
  bytes : Memory
  len : Nat
  psn : Bool
  deriving DecidableEq, Repr, Inhabited

/-- The die's reservation (03 R60): its holder, its priority, its target base. -/
structure Reservation where
  recNo : Nat
  prio : Nat
  bx : Nat
  by_ : Nat
  deriving DecidableEq, Repr, Inhabited

/-- A kept decrement message (03 R76). -/
structure Kept where
  dev : Nat
  die : Nat
  kind : DecrKind
  msg : DecrMsg
  deriving DecidableEq, Repr, Inhabited

/-- A die cache line (08 R196), with the key that its data is stored under (10 R245). -/
structure CacheLine where
  tok : Nat
  own : Bool
  valid : Bool
  dirty : Bool
  psn : Bool
  part : BitVec 4
  key : Nat
  data : Line
  deriving DecidableEq, Repr, Inhabited

/-- A miss of the die cache (08 R203, R204): whether it needs all tokens, its transaction, its failed attempts, whether it
holds a ticket, whether its persistent request has gone out, and whether only a PREF asked for it (17 R405). -/
structure Miss where
  write : Bool
  txn : Nat
  fails : Nat
  ticket : Bool
  persistent : Bool
  part : BitVec 4
  hint : Bool
  deriving DecidableEq, Repr, Inhabited

/-- A place of the activation table (08 R206). -/
structure Activation where
  line : Nat
  epoch : Nat
  active : Bool
  deriving DecidableEq, Repr, Inhabited

/-- A remote-write buffer entry (09 R236): the 64-byte piece of peer memory it holds, its bytes and mask, whether it has
started to drain, its creation number, the store accesses it took. -/
structure RemoteEntry where
  pa : Nat
  data : List (Nat × Byte)
  draining : Bool
  seq : Nat
  part : BitVec 4
  kidx : Nat
  waits : List (Agent × Nat)
  deriving DecidableEq, Repr, Inhabited

/-- A page request of the die's table (10 R250). -/
structure PageRequest where
  id : Nat
  part : BitVec 4
  cgen : Nat
  granule : Nat
  need : Nat
  waiters : List Nat
  deriving DecidableEq, Repr, Inhabited

/-- A fabric die (01 R13): site kinds (0 armature, 1 compute, 2 spare, 3 defective), dispatcher, die cache, shared TLB,
remote-write buffer, page requests, counters. `preq` is the line of the persistent request that the die has outstanding (08 R205), `freed` that
tiles have been freed since the last placement pass (03 R58), `withheld` that the a-cycle in progress is one that the Weniz throttles (01
R21), `tileTime` the reserved tiles of each account summed over the a-cycles of the present interval (13 R285). -/
structure FDie where
  sites : List Nat
  roles : Tbl Nat
  records : Tbl Record
  succs : Tbl (List Word)
  maquettes : Tbl Maquette
  queues : Tbl (List Nat)
  deficit : Tbl Nat
  stale : List Nat
  ptr : Tbl Nat
  resv : Option Reservation
  genCtr : Nat
  places : List PlaceEntry
  placeSeq : Nat
  faults : List FaultRecord
  faultSeq : Nat
  seqOut : Tbl Nat
  kept : List Kept
  windows : Tbl (Nat × BitVec 64)
  instStatus : List (Nat × BitVec 4 × Nat × Nat)
  freed : Bool
  withheld : Bool
  tileTime : Tbl Nat
  dropDecr : Nat
  dropDup : Nat
  dropStale : Nat
  dropGen : Nat
  dropAnswer : Nat
  lines : Tbl CacheLine
  misses : Tbl Miss
  acts : Tbl Activation
  preq : Option Nat
  rwb : List RemoteEntry
  rwbSeq : Nat
  tlb : List TlbEntry
  pageReqs : List PageRequest
  deriving DecidableEq, Repr, Inhabited

/-! ### Memory, network and pods -/

/-- The home's share of a line (08 R197, R202): tokens, owner token, poison, partition tag, and the key that the
stored bytes were written under, 0 for none. An unlisted line has 16 tokens at home, no poison, partition 0, no key. -/
structure HomeLine where
  tok : Nat
  own : Bool
  psn : Bool
  part : BitVec 4
  key : Nat
  deriving DecidableEq, Repr, Inhabited

/-- A line that a home slice caches, with the key, tag and poison of its data; a dirty one differs from HBM (08 R197). -/
structure SliceLine where
  data : Line
  key : Nat
  part : BitVec 4
  psn : Bool
  dirty : Bool
  deriving DecidableEq, Repr, Inhabited

/-- A persistent request at a line's home (08 R205): the requester slot, 0 to 7 an F-die, 8 to 15 the recall of an M-die;
its state (0 waiting, 1 activated, 2 deactivating, 3 done before its last acknowledgement, 4 done before its activation, 5 done before
its PREQ has come), the acknowledgements outstanding and its epoch. -/
structure Persistent where
  line : Nat
  slot : Nat
  state : Nat
  acks : Nat
  epoch : Nat
  deriving DecidableEq, Repr, Inhabited

/-- The word kinds of a memory tile (08 R211). -/
inductive WordKind where | plain | barrier | lock | queue | table
  deriving DecidableEq, Repr, Inhabited

/-- A word of the window: bits, kind, partition tag and poison (08 R211, 10 R252). -/
structure WindowWord where
  bits : Word
  kind : WordKind
  part : BitVec 4
  psn : Bool
  deriving DecidableEq, Repr, Inhabited

/-- A key slot (10 R245): the key it holds and its owner. -/
structure KeySlot where
  key : Nat
  owner : BitVec 4
  deriving DecidableEq, Repr, Inhabited

/-- A translation context (10 R239). -/
structure Context where
  valid : Bool
  root : Nat
  cgen : Nat
  deriving DecidableEq, Repr, Inhabited

/-- A packet in flight: its opcode, fields and reserved bits (08 R200, R201); a decrement message travels as its two
words. It stands at node `node`, came there from `via`, and takes its next hop on virtual channel `hop` of its class (08 R199). -/
structure NetPacket where
  opc : Nat
  reserved : Nat
  p : Packet
  w0 : Word
  w1 : Word
  node : Nat
  via : Nat
  hop : Nat
  deriving DecidableEq, Repr, Inhabited

/-- A page walk of an M-die's walker (10 R240, R246): its transaction, the walker's node, the partition, CGEN and 64 KiB granule it
translates for, the table and level it reads next, and its result: the leaf's entry or how the walk ended. -/
structure PageWalk where
  txn : Nat
  node : Nat
  part : BitVec 4
  cgen : Nat
  granule : Nat
  table : Nat
  level : Nat
  result : Option WalkEnd
  deriving DecidableEq, Repr, Inhabited

/-- A request of a peer, or of this device to its own pod identifier, that a station serves (12 R276, R277, 08 R193): its transaction at
the homes, the UALink request, the own request that it loops back for, the lines that have not answered, and the bytes they gave. -/
structure PeerReq where
  txn : Nat
  req : UaReq
  own : Option Nat
  left : List Nat
  got : Tbl (List Byte)
  bad : Bool
  deriving DecidableEq, Repr, Inhabited

/-- A UALink request of this device that awaits its answer (12 R276, R279): the die it comes from, the access it serves, or the remote-write entry, or neither for
decrement messages; its target device and port, whether it is held back, the list of ports it went out under, and the request itself. -/
structure UaOut where
  id : Nat
  die : Nat
  dev : Nat
  port : Nat
  access : Option Nat
  entry : Option (Nat × Nat)
  held : Bool
  epoch : Nat
  req : UaReq
  deriving DecidableEq, Repr, Inhabited

/-- A graph instance or reservation (02 R27 to R32). -/
structure Inst where
  policy : Nat
  part : BitVec 4
  runs : List (Nat × Nat × Nat)
  blocks : List (Nat × Nat)
  byDie : Option Nat
  failed : Bool
  cause : Nat
  reserved : Option Nat
  deriving DecidableEq, Repr, Inhabited

/-- A buffer pool (02 R28): log2 of its block size, 0 before its first BPOOL, and its free blocks. -/
structure Pool where
  log : Nat
  free : List Nat
  deriving DecidableEq, Repr, Inhabited

/-- A freeze slot (11 R264): its local address, key slot and the partition that owns it. -/
structure FreezeSlot where
  pa : Nat
  kidx : Nat
  part : BitVec 4
  used : Bool
  deriving DecidableEq, Repr, Inhabited

/-- A host command in progress (12 R272): SEQ, opcode, and the record whose freeze FREEZE waits for; for OFFLINE the die is
`waitDie` (11 R264, R269). -/
structure Progress where
  seq : Nat
  opc : Nat
  waitDie : Nat
  waitRec : Nat
  deriving DecidableEq, Repr, Inhabited

/-- A completion of a host command (12 R271). -/
structure Completion where
  opc : Nat
  status : Nat
  seq : Nat
  res0 : Word
  res1 : Word
  deriving DecidableEq, Repr, Inhabited

/-- An event for the control node (12 R274). -/
structure HostEvent where
  kind : Nat
  node : Nat
  data0 : Word
  data1 : Word
  deriving DecidableEq, Repr, Inhabited

/-- A patina record (13 R288). -/
structure Patina where
  seq : Nat
  railx : Bool
  lowp : Bool
  frz : Bool
  gap : Bool
  acct : Nat
  energy : Nat
  ts : Word
  gapmax : Nat
  acyc : Nat
  prev : BitVec 256
  deriving DecidableEq, Repr, Inhabited

/-- An energy account (13 R285, R286): whole uJ, the fraction, flags since the last record, the last record's hash, what the
last checkpoint stored, and ENERGY at the last record. -/
structure Account where
  energy : Nat
  residue : Rat
  railx : Bool
  frz : Bool
  gap : Bool
  gapmax : Nat
  seq : Nat
  prev : BitVec 256
  stored : Nat
  storedResidue : Rat
  recordedAt : Nat
  deriving DecidableEq, Repr, Inhabited

/-- A Weniz log entry (13 R282): sequence number, TS, kind and data. -/
structure WenizEntry where
  seq : Nat
  ts : Word
  kind : Nat
  data : Nat
  deriving DecidableEq, Repr, Inhabited

/-- A firmware bank (12 R280, 13 R283): empty, or the version it holds, and whether FWSTAGE has written it since the last commit. -/
structure Bank where
  filled : Bool
  version : Nat
  staged : Bool
  deriving DecidableEq, Repr, Inhabited

/-- The Plinth, its Weniz and the command window (01 R12, 12 R270 to R274, 13 R281 to R289); `hostStatus` holds the instance statuses that the
host receives there: instance, 1 DONE or 2 FAILED, cause (02 R32), `hostRuns` the runs that INST returns there: instance, and the base index on
each die (02 R30, log 105), `hostRecord` the launch record that the host has read there last, by die and index (02 R33, log 105), `events` the events that the Plinth holds, at most 256, `sources` those that
wait at their sources (12 R270), `evtHead` how far the control node has read the event ring (log 11), `struck` the maquettes reported as struck
by an error, by die and number (11 R262, log 84), `hot` the dies that the Weniz throttles for their temperature, `capped` that module power
exceeded the cap in the latest sampling (01 R21, 13 R281), `activity` the counts of the present interval by node, account and class (13 R285),
`unrecorded` the always-on cycles of a checkpoint that is stored and whose records are to be made (13 R289), `tryFirst` the bank that was staged
since the last boot (13 R283). -/
structure Plinth where
  booted : Bool
  inventory : List Word
  flowLimit : Nat
  roles : List (Nat × Nat)
  podId : Nat
  idSet : Bool
  portsUp : List Nat
  portEpoch : Nat
  admitted : List Nat
  golfyUp : Bool
  cmdBase : Nat
  cmdSize : Nat
  cmdHead : Nat
  cmdTail : Nat
  cplBase : Nat
  cplSize : Nat
  cplTail : Nat
  cplHead : Nat
  evtBase : Nat
  evtSize : Nat
  evtNext : Nat
  evtHead : Nat
  expectSeq : Nat
  lastTs : Word
  seqWrapped : Bool
  statuses : List Completion
  hostStatus : List (Nat × Nat × Nat)
  hostRuns : List (Nat × List (Nat × Nat))
  hostRecord : Option (Nat × Nat × List Word)
  progress : Option Progress
  queue : List (Nat × Cmd)
  replays : List Nat
  cplQueue : List Completion
  events : List HostEvent
  sources : List HostEvent
  eseq : Nat
  powerCap : Nat
  banks : List Bank
  running : Nat
  rollback : Nat
  malLog : List (Nat × Nat × Nat)
  malCount : Tbl Nat
  struck : List (Nat × Nat)
  corrected : Tbl Nat
  dropAnswer : Nat
  wenizLog : List WenizEntry
  wenizSeq : Nat
  sensors : List Nat
  hot : List Nat
  capped : Bool
  tripped : Bool
  accounts : List Account
  records : List Patina
  bundles : List (Nat × List Patina × List Byte)
  bundleSeq : Nat
  capAtCheck : Nat
  activity : Tbl Nat
  unrecorded : Option Nat
  tryFirst : Option Nat
  deriving DecidableEq, Repr, Inhabited

/-- The step's own view of where it stands: the strand, PE or slot that has the move (log 1). -/
structure Cursor where
  die : Nat
  site : Nat
  strand : Nat
  pe : Nat
  slot : Nat
  deriving DecidableEq, Repr, Inhabited

/-- The state of the device, of the host memory it reaches, and of the model's own bookkeeping: `cur`, `agenda` and
`freeCtr` (log 1, log 2), `nextId` (identifiers of accesses, transactions and jobs), `reports` (fault reports in
transit), `scVisit` the accesses that the token has still to perform where it stands (09 R232, log 98), `scQueue` the SC accesses in the queue of each node of the ring and `scInput` those at its input, each by its requester's node and
transaction (09 R232), `scFresh` that the token was regenerated and its lap is counted (09 R234), `peerAnswer` the latest answer
to a peer's request (12 R277), `peerReqs` the requests that stations serve, `uaSeen` the transactions taken (12 R279), `homeWait` the
uncached requests in the trackers of their homes (08 R208), `trackers` the tracker entries a home keeps for a ticket (08 R204),
`sliceLines` the lines that home slices cache (08 R197), `walks` the page walks outstanding (10 R246), `tilePorts` the requests at the
input ports of memory tiles, four for each tile, and `bankTurn` the port that each bank favours (08 R213). -/
structure State where
  cur : Cursor
  agenda : List Turn
  freeCtr : Nat
  nextId : Nat
  tiles : Tbl Tile
  dies : Vector FDie 8
  access : List Access
  reports : List (Agent × Report)
  messages : List Message
  net : List NetPacket
  hbm : Memory
  homes : Tbl HomeLine
  sliceLines : Tbl SliceLine
  walks : List PageWalk
  trackers : Tbl Nat
  tickets : Tbl (List (Nat × Nat))
  persistent : List Persistent
  epochs : Tbl Nat
  homeMap : List Nat
  keys : Tbl KeySlot
  contexts : Tbl Context
  window : Tbl WindowWord
  windowWait : List (Nat × Nat)
  windowOwner : Tbl (BitVec 4)
  windowDies : List Nat
  scLap : Nat
  scAt : Nat
  scFresh : Bool
  scQueue : List (Nat × Nat × Nat)
  scVisit : Option (List (Nat × Nat))
  scInput : List (Nat × Nat × Nat)
  tilePorts : Tbl (List NetPacket)
  bankTurn : Tbl Nat
  homeWait : List Packet
  weights : Tbl Nat
  insts : Tbl Inst
  lastInst : Nat
  pools : Tbl Pool
  freezePool : List FreezeSlot
  uaOut : List UaOut
  peerAnswer : Option (Nat × UaRsp)
  peerReqs : List PeerReq
  uaSeen : List (Nat × Nat)
  hostMem : Memory
  plinth : Plinth
  deriving DecidableEq, Repr, Inhabited

/-- Why a step stops. -/
inductive Fault where
  /-- Raised by no step: every path of the model answers a next state. Safe. -/
  | none
  deriving DecidableEq, Repr

/-- Why a step refuses. -/
inductive Refusal where
  /-- Raised by the dispatch arm of an instruction that has no meaning yet. Safe. -/
  | notModelled (mnemonic : String)
  deriving DecidableEq, Repr

/-- What a meaning answers. -/
abbrev Out := Host.Outcome State Fault Refusal

/-! ### The state after reset -/

/-- A channel register at task start (02 R43). -/
def Channel.zero : Channel := ⟨false, 0, false⟩

/-- A strand that is removed (04 R105), with every register at its reset value; the general registers are 0 (log 3). -/
def Strand.init : Strand where
  x := Vector.replicate 32 0
  p := 1
  k := Vector.replicate 8 Channel.zero
  pc := 0
  sb := Vector.replicate 8 0
  prv := false
  intrap := false
  imp := false
  barbrk := false
  causeCode := 0
  causeDetail := 0
  epc := 0
  tvec := 0
  eval := 0
  wid := 0
  run := .stopped
  wake := false
  pending := []
  busy := 0
  yielded := false
  acquires := 0
  stall := false
  stand := none

/-- A plane with no configuration (05 R111, R130). -/
def Plane.zero : Plane := ⟨[], Vector.replicate 4 0, 0, [], []⟩

/-- A PE at task start (05 R111). -/
def Pe.init : Pe where
  planeA := Plane.zero
  planeB := Plane.zero
  onB := false
  d := Vector.replicate 8 0
  dPsn := Vector.replicate 8 0
  p := 1
  inq := Vector.replicate 4 []
  part := Vector.replicate 4 0
  outq := Vector.replicate 4 []
  credit := Vector.replicate 4 0
  lgen := []
  rand := 0
  delayed := []
  switched := false
  ins := 0
  ended := false
  arrivals := []
  arrivalPhase := []
  arrivalGroup := []
  loadCode := 0
  loadEval := 0

/-- An empty latch (05 R137). -/
def Latch.empty : Latch := ⟨0, [], [], [], false⟩

/-- An island without configuration (17 R390). -/
def Island.init : Island where
  configured := false
  config := 0
  front := Latch.empty
  back := Latch.empty
  acc := []
  accPsn := []
  lanes := Vector.replicate 9 []
  engineWords := []
  half := none
  nrr := 0
  nps := 0
  lastp := 0
  dused := 0
  cmds := []

/-- An unbound handle (06 R142). -/
def Handle.free : Handle := ⟨false, .free, false, false, 0, 0, 0, 0, 0, 0, []⟩

/-- A stream engine at task start (06 R157). -/
def Stream.init : Stream where
  state := .idle
  desc := []
  window := none
  pos := 0
  strand := 0
  slot := 0
  cause := 0
  detail := 0
  port := []
  pack := 0
  packPsn := 0
  packed := 0
  acquired := false
  delay := []
  delayPsn := []
  out := []
  taken := 0
  cbBad := false
  wait := false
  peer := []

/-- A tile that belongs to no region. -/
def Tile.init : Tile where
  strands := Vector.replicate 4 Strand.init
  widw := 0
  rgnb := 0
  gen := 0
  gen2 := none
  part := 0
  gkey := 0
  zsc := false
  sat := false
  rnd := 0
  task := none
  succ := none
  imem := []
  half := false
  codeLen := 0
  codeLen2 := 0
  inbuf := []
  credits := 16
  requests := []
  cycle := 0
  firmware := none
  l1 := []
  spad := []
  spadTag := []
  spadPsn := []
  races := []
  handles := []
  hwaits := []
  queues := []
  templates := []
  jobs := []
  streams := []
  cmdq := []
  caps := []
  capNext := 0
  utlb := Vector.replicate 4 []
  pes := []
  firing := false
  heldPf := false
  planeOn := false
  actB := false
  shadow := .notLoaded
  splicing := false
  rndAct := 0
  rndNew := 0
  routes := []
  ports := []
  gridCmds := []
  island := Island.init
  fwdIn := []
  bndDone := false

/-- A fabric die before boot: no site is a compute tile (01 R15). -/
def FDie.init : FDie where
  sites := []
  roles := []
  records := []
  succs := []
  maquettes := []
  queues := []
  deficit := []
  stale := []
  ptr := []
  resv := none
  genCtr := 0
  places := []
  placeSeq := 0
  faults := []
  faultSeq := 0
  seqOut := []
  kept := []
  windows := []
  instStatus := []
  freed := false
  withheld := false
  tileTime := []
  dropDecr := 0
  dropDup := 0
  dropStale := 0
  dropGen := 0
  dropAnswer := 0
  lines := []
  misses := []
  acts := []
  preq := none
  rwb := []
  rwbSeq := 0
  tlb := []
  pageReqs := []

/-- An energy account at first power-on (13 R288). -/
def Account.init : Account := ⟨0, 0, false, false, false, 0, 1, 0, 0, 0, 0⟩

/-- The Plinth at first power-on, before BOOT (12 R280; log 3). -/
def Plinth.init : Plinth where
  booted := false
  inventory := List.replicate 17 0
  flowLimit := 0
  roles := []
  podId := 0
  idSet := false
  portsUp := []
  portEpoch := 0
  admitted := []
  golfyUp := false
  cmdBase := 0
  cmdSize := 64
  cmdHead := 0
  cmdTail := 0
  cplBase := 0
  cplSize := 64
  cplTail := 0
  cplHead := 0
  evtBase := 0
  evtSize := 64
  evtNext := 0
  evtHead := 0
  expectSeq := 1
  lastTs := 0
  seqWrapped := false
  statuses := []
  hostStatus := []
  hostRuns := []
  hostRecord := none
  progress := none
  queue := []
  replays := []
  cplQueue := []
  events := []
  sources := []
  eseq := 1
  powerCap := 3200
  banks := [⟨true, 0, false⟩, ⟨false, 0, false⟩]
  running := 0
  rollback := 0
  malLog := []
  malCount := []
  struck := []
  corrected := []
  dropAnswer := 0
  wenizLog := []
  wenizSeq := 1
  sensors := []
  hot := []
  capped := false
  tripped := false
  accounts := List.replicate 17 Account.init
  records := []
  bundles := []
  bundleSeq := 0
  capAtCheck := 3200
  activity := []
  unrecorded := none
  tryFirst := none

/-- The module at power-on, before the boot sequence of R280 has run: no die is loaded, no tile is known, every table is
empty. The agenda is empty, so the first turn is a free value (log 1, log 6). -/
def State.reset : State where
  cur := ⟨0, 0, 0, 0, 0⟩
  agenda := []
  freeCtr := 0
  nextId := 0
  tiles := []
  dies := Vector.replicate 8 FDie.init
  access := []
  reports := []
  messages := []
  net := []
  hbm := []
  homes := []
  sliceLines := []
  walks := []
  trackers := []
  tickets := []
  persistent := []
  epochs := []
  homeMap := []
  keys := []
  contexts := []
  window := []
  windowWait := []
  windowOwner := []
  windowDies := []
  scLap := 0
  scAt := 0
  scFresh := false
  scQueue := []
  scVisit := none
  scInput := []
  tilePorts := []
  bankTurn := []
  homeWait := []
  weights := []
  insts := []
  lastInst := 0
  pools := []
  freezePool := []
  uaOut := []
  peerAnswer := none
  peerReqs := []
  uaSeen := []
  hostMem := []
  plinth := Plinth.init

end Sys2Proof.Machine
end

