-- ==== Sys2Proof/Machine/Base.lean ====
section
/-! DEFINITION. Sparse tables, byte memory, and the accessors of the state: the one home of every read and write. -/
namespace Sys2Proof

/-- The bytes of an access size (14 R295). -/
def Size.bytes : Size → Nat
  | .b => 1 | .h => 2 | .w => 4 | .d => 8
/-- The log2 of an access size. -/
def Size.log : Size → Nat
  | .b => 0 | .h => 1 | .w => 2 | .d => 3
/-- The access size of a load (14 R295). -/
def LoadSize.size : LoadSize → Size
  | .b | .bs => .b | .h | .hs => .h | .w | .ws => .w | .d => .d
/-- Whether a load extends with its sign (14 R295). -/
def LoadSize.signed : LoadSize → Bool
  | .bs | .hs | .ws => true | .b | .h | .w | .d => false

/-- Whether a scope reaches die scope or wider (09 R223). -/
def Scp.wide : Scp → Bool
  | .tile => false | .die | .dev | .sys => true
/-- Whether an ordering acquires (09 R223, R233). -/
def Ord.acquires : Ord → Bool
  | .acq | .ar | .sc => true | .rlx | .rel => false
/-- Whether an ordering releases (09 R223, R233). -/
def Ord.releases : Ord → Bool
  | .rel | .ar | .sc => true | .rlx | .acq => false

/-- The value an atomic writes (14 R295): MIN and MAX compare as signed. -/
def AtomicOp.apply (o : AtomicOp) (n old v : Nat) : Nat :=
  let x := BitVec.ofNat (8 * n) old
  let y := BitVec.ofNat (8 * n) v
  (match o with
    | .add => x + y | .min => if x.sle y then x else y | .max => if x.sle y then y else x
    | .and => x &&& y | .or => x ||| y | .xor => x ^^^ y | .swap => y).toNat

end Sys2Proof

namespace Sys2Proof.Machine

/-! ### Tables -/

/-- The entry of key `i`, if listed. -/
def tget {α : Type} : Tbl α → Nat → Option α
  | [], _ => none
  | (k, v) :: t, i => if i = k then some v else tget t i

/-- Writes the entry of key `i`, keeping the keys rising. -/
def tput {α : Type} : Tbl α → Nat → α → Tbl α
  | [], i, v => [(i, v)]
  | (k, w) :: t, i, v =>
    if i < k then (i, v) :: (k, w) :: t else if i = k then (i, v) :: t else (k, w) :: tput t i v

/-- Removes the entry of key `i`. -/
def tdel {α : Type} : Tbl α → Nat → Tbl α
  | [], _ => []
  | (k, w) :: t, i => if i = k then tdel t i else (k, w) :: tdel t i

/-- The entry of key `i`, or `d` if it is not listed. -/
def tgetD {α : Type} (t : Tbl α) (i : Nat) (d : α) : α := (tget t i).getD d

/-- The keys of a table rise strictly. -/
def rising {α : Type} : Tbl α → Bool
  | (a, _) :: (b, w) :: t => decide (a < b) && rising ((b, w) :: t)
  | _ => true

/-- Element `i` modulo the length. -/
def vget {α : Type} {n : Nat} (v : Vector α (n + 1)) (i : Nat) : α :=
  v[i % (n + 1)]'(Nat.mod_lt _ (Nat.succ_pos n))
/-- Sets element `i` modulo the length. -/
def vset {α : Type} {n : Nat} (v : Vector α (n + 1)) (i : Nat) (x : α) : Vector α (n + 1) :=
  v.set (i % (n + 1)) x (Nat.mod_lt _ (Nat.succ_pos n))

/-- Adds `i` to a rising list of numbers. -/
def sput : List Nat → Nat → List Nat
  | [], i => [i]
  | k :: t, i => if i < k then i :: k :: t else if i = k then k :: t else k :: sput t i
/-- Removes `i` from a list of numbers. -/
def sdel (l : List Nat) (i : Nat) : List Nat := l.filter (· != i)

/-- Replaces element `i` of a list. -/
def lset {α : Type} : List α → Nat → α → List α
  | [], _, _ => []
  | _ :: t, 0, x => x :: t
  | h :: t, i + 1, x => h :: lset t i x

/-- Element `i` of a list, if it has one. -/
def lget {α : Type} : List α → Nat → Option α
  | [], _ => none
  | h :: _, 0 => some h
  | _ :: t, i + 1 => lget t i

/-- Removes element `i` of a list. -/
def ldel {α : Type} : List α → Nat → List α
  | [], _ => []
  | _ :: t, 0 => t
  | h :: t, i + 1 => h :: ldel t i

/-! ### Bytes -/

/-- The byte at an address; an unlisted one reads 0 (log 5). -/
def mget (m : Memory) (a : Nat) : Byte := tgetD m a 0
/-- Writes a byte, keeping the canonical form. -/
def mput (m : Memory) (a : Nat) (b : Byte) : Memory := if b = 0 then tdel m a else tput m a b
/-- `n` bytes from address `a`, lowest first. -/
def mbytes (m : Memory) (a : Nat) : Nat → List Byte
  | 0 => []
  | n + 1 => mget m a :: mbytes m (a + 1) n
/-- Writes a list of bytes from address `a` up. -/
def mputs (m : Memory) (a : Nat) : List Byte → Memory
  | [] => m
  | b :: t => mputs (mput m a b) (a + 1) t
/-- The canonical form: addresses strictly rising, no listed byte 0. -/
def Memory.wf (m : Memory) : Bool := rising m && m.all (fun c => c.2 != 0)

/-- The number that a list of bytes holds, lowest byte first (00 R2). -/
def fromBytes : List Byte → Nat
  | [] => 0
  | b :: t => b.toNat + 256 * fromBytes t
/-- The low `n` bytes of a number, lowest first (00 R2). -/
def toBytes (v : Nat) : Nat → List Byte
  | 0 => []
  | n + 1 => BitVec.ofNat 8 v :: toBytes (v / 256) n
/-- Reads `n` bytes as a number. -/
def mread (m : Memory) (a n : Nat) : Nat := fromBytes (mbytes m a n)
/-- Writes the low `n` bytes of a number. -/
def mwrite (m : Memory) (a n v : Nat) : Memory := mputs m a (toBytes v n)

/-- Zero-extends or sign-extends the low `8 n` bits of a number to 64 bits. -/
def extend (signed : Bool) (n v : Nat) : Word :=
  if signed && decide (2 ^ (8 * n - 1) ≤ v % 2 ^ (8 * n)) then BitVec.ofInt 64 ((v % 2 ^ (8 * n) : Nat) - (2 ^ (8 * n) : Nat) : Int)
  else BitVec.ofNat 64 (v % 2 ^ (8 * n))

/-! ### Accessors -/

/-- The key of a tile: 144 sites for each die (01 R13). -/
def tileKey (die site : Nat) : Nat := die * 144 + site

/-- The tile at a site; a site that holds nothing reads as a tile whose strands are STOPPED. -/
def State.tile (s : State) (die site : Nat) : Tile := tgetD s.tiles (tileKey die site) Tile.init
/-- Writes the tile at a site. -/
def State.setTile (s : State) (die site : Nat) (t : Tile) : State := { s with tiles := tput s.tiles (tileKey die site) t }
/-- Changes the tile at a site. -/
def State.modTile (s : State) (die site : Nat) (f : Tile → Tile) : State := s.setTile die site (f (s.tile die site))
/-- A strand of a tile. -/
def Tile.strand (t : Tile) (n : Nat) : Strand := vget t.strands n
/-- Writes a strand of a tile. -/
def Tile.setStrand (t : Tile) (n : Nat) (x : Strand) : Tile := { t with strands := vset t.strands n x }
/-- A strand of the machine. -/
def State.strand (s : State) (die site n : Nat) : Strand := (s.tile die site).strand n
/-- Changes a strand of the machine. -/
def State.modStrand (s : State) (die site n : Nat) (f : Strand → Strand) : State :=
  s.modTile die site fun t => t.setStrand n (f (t.strand n))
/-- The tile of the strand or PE that has the move. -/
def State.here (s : State) : Tile := s.tile s.cur.die s.cur.site
/-- The strand that has the move. -/
def State.me (s : State) : Strand := s.here.strand s.cur.strand
/-- Changes the tile that has the move. -/
def State.modHere (s : State) (f : Tile → Tile) : State := s.modTile s.cur.die s.cur.site f
/-- Changes the strand that has the move. -/
def State.modMe (s : State) (f : Strand → Strand) : State := s.modStrand s.cur.die s.cur.site s.cur.strand f
/-- A fabric die. -/
def State.die (s : State) (d : Nat) : FDie := vget s.dies d
/-- Changes a fabric die. -/
def State.modDie (s : State) (d : Nat) (f : FDie → FDie) : State := { s with dies := vset s.dies d (f (s.die d)) }
/-- A launch record. -/
def State.record (s : State) (d r : Nat) : Option Record := tget (s.die d).records r
/-- Writes a launch record. -/
def State.setRecord (s : State) (d r : Nat) (x : Record) : State := s.modDie d fun f => { f with records := tput f.records r x }
/-- Changes a launch record that exists. -/
def State.modRecord (s : State) (d r : Nat) (f : Record → Record) : State :=
  match s.record d r with
  | some x => s.setRecord d r (f x)
  | none => s
/-- Changes the Plinth. -/
def State.modPlinth (s : State) (f : Plinth → Plinth) : State := { s with plinth := f s.plinth }
/-- A fresh identifier, and the state that has used it. -/
def State.fresh (s : State) : Nat × State := (s.nextId, { s with nextId := s.nextId + 1 })
/-- A free choice below `n`, and the state whose counter has advanced (log 2). -/
def State.pick (s : State) (n : Nat) : Nat × State := (Config.choice s.freeCtr % n, { s with freeCtr := s.freeCtr + 1 })

/-- A PE of a tile; one that holds nothing reads as at task start (05 R111). -/
def Tile.pe (t : Tile) (n : Nat) : Pe := tgetD t.pes n Pe.init
/-- Writes a PE. -/
def Tile.setPe (t : Tile) (n : Nat) (x : Pe) : Tile := { t with pes := tput t.pes n x }
/-- Changes a PE. -/
def Tile.modPe (t : Tile) (n : Nat) (f : Pe → Pe) : Tile := t.setPe n (f (t.pe n))
/-- A handle of a tile (06 R142). -/
def Tile.handle (t : Tile) (h : Nat) : Handle := tgetD t.handles h Handle.free
/-- Writes a handle. -/
def Tile.setHandle (t : Tile) (h : Nat) (x : Handle) : Tile := { t with handles := tput t.handles h x }
/-- A stream engine of a tile (06 R157). -/
def Tile.stream (t : Tile) (e : Nat) : Stream := tgetD t.streams e Stream.init
/-- Writes a stream engine. -/
def Tile.setStream (t : Tile) (e : Nat) (x : Stream) : Tile := { t with streams := tput t.streams e x }
/-- A named queue of a tile (06 R151). -/
def Tile.queue (t : Tile) (q : Nat) : List Token := tgetD t.queues q []
/-- Writes a named queue. -/
def Tile.setQueue (t : Tile) (q : Nat) (l : List Token) : Tile := { t with queues := tput t.queues q l }
/-- The receive buffer of a grid command port (16 R366). -/
def Tile.port (t : Tile) (n : Nat) : List Queued := tgetD t.ports n []
/-- Writes a receive buffer. -/
def Tile.setPort (t : Tile) (n : Nat) (l : List Queued) : Tile := { t with ports := tput t.ports n l }

/-- The sx and sy of a site number (01 R14: row-major). -/
def siteX (site : Nat) : Nat := site % 12
/-- The sy of a site number. -/
def siteY (site : Nat) : Nat := site / 12
/-- The site number of coordinates. -/
def siteOf (x y : Nat) : Nat := y * 12 + x

/-- RGNB's fields (02 R38). -/
def Tile.regionBX (t : Tile) : Nat := bits t.rgnb.toNat 0 4
/-- RGNB.BY. -/
def Tile.regionBY (t : Tile) : Nat := bits t.rgnb.toNat 4 4
/-- RGNB.W. -/
def Tile.regionW (t : Tile) : Nat := bits t.rgnb.toNat 8 4
/-- RGNB.H. -/
def Tile.regionH (t : Tile) : Nat := bits t.rgnb.toNat 12 4
/-- The site of a region-relative coordinate (02 R39). -/
def Tile.siteAt (t : Tile) (x y : Nat) : Nat := siteOf (t.regionBX + x) (t.regionBY + y)
/-- Whether a region-relative coordinate lies in the region (02 R39). -/
def Tile.inRegion (t : Tile) (x y : Nat) : Bool := decide (x < t.regionW) && decide (y < t.regionH)
/-- The region-relative x of a site of the region. -/
def Tile.relX (t : Tile) (site : Nat) : Nat := siteX site - t.regionBX
/-- The region-relative y of a site of the region. -/
def Tile.relY (t : Tile) (site : Nat) : Nat := siteY site - t.regionBY
/-- The sites of a W by H rectangle, y outer and x inner. -/
def rectSites (bx by_ w h : Nat) : List Nat :=
  (List.range h).flatMap fun y => (List.range w).map fun x => siteOf (bx + x) (by_ + y)
/-- The sites of the tile's region, in order of (TY, TX). -/
def Tile.sites (t : Tile) : List Nat := rectSites t.regionBX t.regionBY t.regionW t.regionH
/-- The sites of a record's region. -/
def Record.sites (r : Record) : List Nat := rectSites r.bx r.by_ r.w r.h

/-- Folds a state change over a list. -/
def State.over {α : Type} (s : State) (l : List α) (f : α → State → State) : State := l.foldl (fun s x => f x s) s

/-! ### The work of one partition's agents -/

/-- An access of the machine by its identifier. -/
def State.access? (s : State) (id : Nat) : Option Access := s.access.find? (fun a => a.id == id)
/-- Changes an access. -/
def State.modAccess (s : State) (id : Nat) (f : Access → Access) : State :=
  { s with access := s.access.map fun a => if a.id = id then f a else a }
/-- Removes an access. -/
def State.dropAccess (s : State) (id : Nat) : State := { s with access := s.access.filter fun a => a.id != id }
/-- Whether an access belongs to a strand. -/
def Access.ofStrand (a : Access) (die site n : Nat) : Bool := a.agent == .strand die site n
/-- The die and site of an agent. -/
def Agent.place : Agent → Nat × Nat
  | .strand d t _ => (d, t) | .stream d t _ => (d, t) | .copy d t _ => (d, t) | .pe d t _ _ => (d, t)
  | .dispatcher d _ => (d, 144) | .tile _ => (8, 144) | .routed d t _ => (d, t)

/-- Sends a packet: it enters the network at its source node (08 R199). -/
def State.send (s : State) (opc : Nat) (p : Packet) : State := { s with net := s.net ++ [⟨opc, 0, p, 0, 0, p.src, p.src, 0⟩] }
/-- Leaves a packet that has arrived at its node's input, where it waits (08 R198, R213). -/
def State.waitAt (s : State) (opc : Nat) (p : Packet) : State := { s with net := s.net ++ [⟨opc, 0, p, 0, 0, p.dst, p.dst, 0⟩] }
/-- A packet with every field zero. -/
def Packet.zero : Packet := ⟨0, 0, 0, 0, false, false, false, 0, 0, 0, 0, 0, 0, 0, 0, 0, 0, 0⟩

/-- Whether the Plinth may write an event: the port is up and the event ring has a free entry (12 R270, R274, log 11). -/
def Plinth.mayPostEvent (p : Plinth) : Bool := p.golfyUp && decide (p.evtNext - p.evtHead < p.evtSize)
/-- Writes an event at the next place of the event ring (12 R274). -/
def State.postEvent (s : State) (e : HostEvent) : State :=
  let p := s.plinth
  let a := p.evtBase + p.evtNext % p.evtSize * 32
  let m := mwrite s.hostMem a 8 (e.kind * 2 ^ 56 + e.node * 2 ^ 48 + p.eseq % 2 ^ 32)
  { s with hostMem := mwrite (mwrite (mwrite m (a + 8) 8 p.lastTs.toNat) (a + 16) 8 e.data0.toNat) (a + 24) 8 e.data1.toNat,
           plinth := { p with evtNext := p.evtNext + 1, eseq := p.eseq + 1 } }
/-- Writes events in the order of their creation while the ring takes them; of the rest the Plinth holds 256, and the others wait at their
sources (12 R270, R274). -/
def State.postEvents (s : State) : List HostEvent → State
  | [] => s.modPlinth fun p => { p with events := [], sources := [] }
  | e :: rest =>
    if s.plinth.mayPostEvent then (s.postEvent e).postEvents rest
    else s.modPlinth fun p => { p with events := (e :: rest).take 256, sources := (e :: rest).drop 256 }
/-- The events that wait, in the order of their creation. -/
def Plinth.pending (p : Plinth) : List HostEvent := p.events ++ p.sources

/-- Raises an event for the control node, behind those that wait (12 R270, R274). -/
def State.raiseEvent (s : State) (kind node : Nat) (d0 d1 : Word) : State := s.postEvents (s.plinth.pending ++ [⟨kind, node, d0, d1⟩])
/-- Writes the events that wait (12 R270). -/
def State.flushEvents (s : State) : State := s.postEvents s.plinth.pending

/-- Adds an entry to the Weniz log, a ring of 4,096 (13 R282). -/
def State.wenizLogAdd (s : State) (kind data : Nat) : State :=
  s.modPlinth fun p => { p with wenizLog := (⟨p.wenizSeq, p.lastTs, kind, data⟩ :: p.wenizLog).take 4096,
                                wenizSeq := p.wenizSeq + 1 }

/-- The STATE field of an inventory word (01 R23). -/
def State.dieState (s : State) (node : Nat) : Nat := bits ((lget s.plinth.inventory node).getD 0).toNat 56 3
/-- Whether a die is online. -/
def State.online (s : State) (node : Nat) : Bool := s.dieState node == 0 && s.plinth.booted
/-- Whether a die serves its memory and its network: online or in degraded-hold (11 R269). -/
def State.serving (s : State) (node : Nat) : Bool := decide (s.dieState node ≤ 1) && s.plinth.booted
/-- Whether a UALink port is enabled and its M-die in service (01 R16, R22, R23). -/
def State.portEnabled (s : State) (p : Nat) : Bool :=
  let node := if p = 16 then 11 else if p = 17 then 15 else 8 + p / 2
  decide (p < 18) && s.serving node
    && flagOf ((lget s.plinth.inventory node).getD 0).toNat (24 + if 16 ≤ p then 2 else p % 2)
/-- Sets a field of an inventory word. -/
def State.setInventory (s : State) (node lo n v : Nat) : State :=
  s.modPlinth fun p =>
    let w := ((lget p.inventory node).getD 0).toNat
    { p with inventory := lset p.inventory node (BitVec.ofNat 64 (w - bits w lo n * 2 ^ lo + v % 2 ^ n * 2 ^ lo)) }
/-- DEFECTS counts one site more, of any kind (01 R23). -/
def State.countDefect (s : State) (d : Nat) : State :=
  s.setInventory d 40 8 (bits ((lget s.plinth.inventory d).getD 0).toNat 40 8 + 1)

end Sys2Proof.Machine
end

