-- ==== Sys2Proof/Machine/Memory.lean ====
section
/-! DEFINITION. Lines and their homes, keys and partition tags, TLBs and the checks of a translation, the window, and tile scratchpads
(08 R192 to R198, 10 R238 to R252). -/
namespace Sys2Proof.Machine

/-! ### Lines -/

/-- Replaces bits [lo + n - 1 : lo] of a number. -/
def setBits (x lo n v : Nat) : Nat := x - bits x lo n * 2 ^ lo + v % 2 ^ n * 2 ^ lo

/-- A line as memory holds it: data, the key it is stored under (0 none), partition tag, poison. -/
structure LineData where
  data : Line
  key : Nat
  part : BitVec 4
  psn : Bool
  deriving DecidableEq, Repr, Inhabited

/-- The bytes of line `line` read under key `k`: the data itself under its own key, otherwise its ciphertext decrypted with the wrong
key at the line's tweak PA[49:7], which is a free value (10 R245, log 2). A line never written holds zeros under every key (log 5). -/
def viewLine (l : LineData) (line k : Nat) : Line :=
  if l.key = 0 ∨ l.key = k then l.data else Config.wrongKey (line % 2 ^ 43) l.data l.key k

/-- `n` bytes at byte `off` of a line, read by an agent of partition `part` under key `k`; a line that another partition
wrote reads as zero (10 R252). -/
def lineRead (l : LineData) (line : Nat) (part : BitVec 4) (k off n : Nat) : Nat :=
  if l.part = part then bits (viewLine l line k).toNat (8 * off) (8 * n) else 0

/-- The line after `n` bytes at `off` are written by partition `part` under key `k`: it is retagged, and the rest of a
line under another tag becomes zero (10 R252). A write of the whole line clears its poison; poison written makes it
poisoned (11 R260). -/
def lineWrite (l : LineData) (line : Nat) (part : BitVec 4) (k off n v : Nat) (psn : Bool) : LineData :=
  let old := if l.part = part then (viewLine l line k).toNat else 0
  ⟨BitVec.ofNat 1024 (setBits old (8 * off) (8 * n) v), k, part, psn || (l.psn && decide (n < 128) && decide (l.part = part))⟩

/-- The bits of the bytes below `n` that a byte mask enables. -/
def byteMask (enables : Nat) : Nat → Nat
  | 0 => 0
  | n + 1 => (if enables.testBit n then 255 * 2 ^ (8 * n) else 0) + byteMask enables n

/-- `lineWrite` of the bytes that a mask enables: byte `off + i` of the line takes byte `i` of `v` where bit `i` of `enables` is set (12
R276). -/
def lineMerge (l : LineData) (line : Nat) (part : BitVec 4) (k off n v enables : Nat) (psn : Bool) : LineData :=
  let m := byteMask enables n
  let old := lineRead l line part k off n
  let x := lineWrite l line part k off n (Nat.lor (old - Nat.land old m) (Nat.land v m)) psn
  { x with psn := psn || (l.psn && decide (l.part = part) && !(n == 128 && enables == 2 ^ 128 - 1)) }

/-- The number of usable home slices (08 R197). -/
def State.slices (s : State) : Nat := s.homeMap.length
/-- The populated size of local HBM in bytes (08 R197). -/
def State.hbmSize (s : State) : Nat := s.slices * 500000000
/-- The home of a line: its physical slice (08 R197). -/
def State.homeSlice (s : State) (line : Nat) : Nat :=
  let n := s.slices
  if n = 0 then 0 else (lget s.homeMap ((line % n + line / n) % n)).getD 0
/-- The M-die node of a line's home (08 R197, R199). -/
def State.homeNode (s : State) (line : Nat) : Nat := 8 + s.homeSlice line / 256
/-- Whether a line is homed on an M-die that has failed (11 R269). -/
def State.lostHome (s : State) (line : Nat) : Bool := s.dieState (s.homeNode line) == 3
/-- The home's share of a line (08 R197). -/
def State.home (s : State) (line : Nat) : HomeLine := tgetD s.homes line ⟨16, true, false, 0, 0⟩
/-- Writes the home's share of a line. -/
def State.setHome (s : State) (line : Nat) (h : HomeLine) : State := { s with homes := tput s.homes line h }

/-- The set of its slice that a line lies in: its line slot modulo 256. DESIGN CHOICE (log 71): R197 gives 256 sets and no index. -/
def State.sliceSet (s : State) (line : Nat) : Nat := line / max s.slices 1 % 256
/-- The other lines that a line's home slice caches in its set (08 R197). -/
def State.sliceWays (s : State) (line : Nat) : List Nat :=
  (s.sliceLines.map (·.1)).filter fun x => x != line && s.homeSlice x == s.homeSlice line && s.sliceSet x == s.sliceSet line
/-- A line leaves its slice; a dirty one is written to HBM (08 R197). -/
def State.sliceOut (s : State) (line : Nat) : State :=
  match tget s.sliceLines line with
  | none => s
  | some x =>
    let s := { s with sliceLines := tdel s.sliceLines line }
    if x.dirty then
      { s with hbm := mwrite s.hbm (line * 128) 128 x.data.toNat }.setHome line { s.home line with key := x.key, part := x.part, psn := x.psn }
    else s
/-- A line enters its slice: a set of 8 full ways gives up a line of the part's choice (08 R197, log 71). -/
def State.sliceIn (s : State) (line : Nat) (x : SliceLine) : State :=
  let ways := s.sliceWays line
  let s := if 8 ≤ ways.length then
      let (v, s) := s.pick ways.length
      s.sliceOut ((lget ways v).getD 0)
    else s
  { s with sliceLines := tput s.sliceLines line x }
/-- Writes every line that the slices cache back to HBM. -/
def State.flushSlices (s : State) : State := s.over (s.sliceLines.map (·.1)) fun line s => s.sliceOut line

/-- The line as its home holds it: in the slice, else in HBM; a failed M-die's lines are poisoned in place (08 R197, 11 R269). -/
def State.homeData (s : State) (line : Nat) : LineData :=
  let h := s.home line
  let l : LineData := match tget s.sliceLines line with
    | some x => ⟨x.data, x.key, x.part, x.psn⟩
    | none => ⟨BitVec.ofNat 1024 (mread s.hbm (line * 128) 128), h.key, h.part, h.psn⟩
  if s.lostHome line then { l with psn := true } else l
/-- The home reads a line: its slice caches it (08 R197). -/
def State.homeFill (s : State) (line : Nat) : State :=
  if (tget s.sliceLines line).isSome || s.lostHome line then s
  else
    let l := s.homeData line
    s.sliceIn line ⟨l.data, l.key, l.part, l.psn, false⟩
/-- Stores a line at its home: in its slice, dirty (08 R197). -/
def State.setHomeData (s : State) (line : Nat) (l : LineData) : State := s.sliceIn line ⟨l.data, l.key, l.part, l.psn, true⟩

/-- A die cache line, absent lines holding no token. -/
def CacheLine.none : CacheLine := ⟨0, false, false, false, false, 0, 0, 0⟩
/-- A line of a die cache. -/
def State.cacheLine (s : State) (d line : Nat) : CacheLine := tgetD (s.die d).lines line CacheLine.none
/-- Writes a line of a die cache; a line without tokens is not kept and V falls (08 R202). -/
def State.setCacheLine (s : State) (d line : Nat) (c : CacheLine) : State :=
  s.modDie d fun f => { f with lines := if c.tok = 0 then tdel f.lines line else tput f.lines line c }
/-- The data of a die cache line. -/
def CacheLine.dataOf (c : CacheLine) : LineData := ⟨c.data, c.key, c.part, c.psn⟩
/-- Whether a die cache may read or write a line now (08 R196). -/
def CacheLine.serves (c : CacheLine) (write : Bool) : Bool := if write then c.tok == 16 else decide (1 ≤ c.tok) && c.valid

/-- Sends tokens to a node: TOKD with the data when the owner token goes, TOKN otherwise; TOKD also carries a plain token
with data, and the key that the data is stored under rides with it (08 R203, R209, log 9). -/
def State.sendTokens (s : State) (src dst line txn tok : Nat) (own dirty data : Bool) (l : LineData) : State :=
  let full := data || own
  if tok = 0 then s
  else s.send (if full then 3 else 4)
    { Packet.zero with src := src, dst := dst, line := line, txn := txn, tok := tok, own := own, drty := dirty,
                       ndf := if full then 4 else 0, psn := full && l.psn, part := l.part,
                       data := if full then l.data else 0, key := if full then l.key else 0 }

/-- Sends every token of a die cache line to its home, with the data when it holds the owner token (08 R209). -/
def State.evictLine (s : State) (d line : Nat) : State :=
  let c := s.cacheLine d line
  (s.setCacheLine d line CacheLine.none).sendTokens d (s.homeNode line) line 0 c.tok c.own c.dirty c.own c.dataOf

/-! ### Transaction numbers -/

/-- The die of an agent. -/
def Agent.dieNo (a : Agent) : Nat := a.place.1
/-- The packets that stand in the network or wait where they arrived. -/
def State.packets (s : State) : List Packet := s.net.map (·.p) ++ s.homeWait ++ (s.tilePorts.flatMap (·.2)).map (·.p)
/-- The transaction numbers of a node that are in use (08 R200). -/
def State.txnsOf (s : State) (node : Nat) : List Nat :=
  (if node < 8 then ((s.access.filter fun a => a.agent.dieNo == node).map (·.txn)) ++ (s.die node).misses.map (·.2.txn)
   else s.access.map (·.ringTxn) ++ s.walks.map (·.txn) ++ s.peerReqs.map (·.txn))
    ++ (s.packets.filter fun p => p.src == node || p.dst == node).map (·.txn)
    ++ ((s.scQueue ++ s.scInput).filter fun e => e.2.1 == node).map (·.2.2)
/-- The smallest number from 1 on that a list does not hold. -/
def firstFree (used : List Nat) : Nat :=
  match (List.range (used.length + 1)).find? fun i => !used.contains (i + 1) with
  | some i => i + 1
  | none => 0
/-- A transaction number of a node that nothing uses (08 R200). -/
def State.newTxn (s : State) (node : Nat) : Nat := firstFree (s.txnsOf node)
/-- The access of an F-die that a transaction number names. -/
def State.accessOf (s : State) (d txn : Nat) : Option Access :=
  s.access.find? fun a => a.agent.dieNo == d && a.txn == txn && txn != 0

/-! ### Translation -/

/-- The translation context of a partition (10 R239). -/
def State.context (s : State) (part : BitVec 4) : Context := tgetD s.contexts part.toNat ⟨false, 0, 0⟩
/-- A key slot's key for a partition: none when the slot is not valid or not owned by it (10 R245). -/
def State.keyOf (s : State) (part : BitVec 4) (k : Nat) : Option Nat :=
  match tget s.keys k with
  | some e => if e.owner = part then some e.key else none
  | none => none

/-- The lowest bit of each level's index, and its width (10 R240). -/
def levelShift : Nat → Nat × Nat
  | 0 => (43, 14) | 1 => (30, 13) | 2 => (21, 9) | _ => (16, 5)

/-- The permission an access needs (10 R244 step 5). -/
inductive Need where | read | write | both | image | none
  deriving DecidableEq, Repr

/-- The permission of a kind of access. -/
def AccessKind.need : AccessKind → Need
  | .load => .read | .store => .write | .atomic _ => .both | .cas => .both
  | .fence | .xlt | .flush _ | .pref | .window _ => .none

/-- The physical address that an entry gives. -/
def TlbEntry.pa (e : TlbEntry) (va : Nat) : Nat := e.pbase + (va - e.vbase)

/-- Whether the frame of an address lies beyond the populated size, or in a peer's dispatcher windows (08 R193, 10 R244 step 3, 12
R277). -/
def State.beyond (s : State) (e : TlbEntry) (va : Nat) : Bool :=
  let pa := e.pa va
  (bits pa 50 2 == 0 && decide (s.hbmSize ≤ pa)) || (bits pa 50 2 == 2 && decide (0xFF00000000 ≤ bits pa 0 40))

/-- Steps 3 to 6 of R244 for an entry: the fault, if one holds. -/
def checkEntry (s : State) (e : TlbEntry) (part : BitVec 4) (gkey : BitVec 8) (need : Need) (va : Nat) : Option Report :=
  let a := BitVec.ofNat 64 va
  if s.beyond e va then some ⟨5, 3, a⟩
  else if e.gk ≠ 0 ∧ e.gk ≠ gkey then some ⟨7, e.gk.toNat, a⟩
  else if (match need with
    | .read => !e.r | .write => !e.w | .both => !(e.r && e.w) | .image => !e.x | .none => false) then some ⟨6, 5, a⟩
  else if bits e.pbase 50 2 = 0 ∧ s.keyOf part e.kidx = none then some ⟨6, 6, a⟩
  else none

/-- Whether an entry translates an address of a partition now (10 R246). -/
def TlbEntry.hits (e : TlbEntry) (s : State) (part : BitVec 4) (va : Nat) : Bool :=
  e.part == part && e.cgen == (s.context part).cgen && (s.context part).valid && decide (e.vbase ≤ va) && decide (va < e.vbase + e.size)

/-- The engine group whose micro-TLB an agent uses: strands, copy engines, stream engines, XLTN nodes (10 R246). -/
def Agent.group : Agent → Nat
  | .strand _ _ _ | .dispatcher _ _ | .tile _ | .routed _ _ _ => 0
  | .copy _ _ _ => 1 | .stream _ _ _ => 2 | .pe _ _ _ _ => 3

/-- The cached translation of an address for an agent: its tile's capability slots, its group's micro-TLB, its die's shared TLB (10 R246,
R249). -/
def State.tlbFind (s : State) (g : Agent) (part : BitVec 4) (va : Nat) : Option TlbEntry :=
  let t := s.tile g.place.1 g.place.2
  ((t.caps.map (·.2)).find? fun e => e.hits s part va).or
    (((vget t.utlb g.group).find? fun e => e.hits s part va).or ((s.die g.place.1).tlb.find? fun e => e.hits s part va))

/-- Installs a translation in the agent's micro-TLB, of 64 entries, and its die's shared TLB; a full TLB loses its oldest entry (10 R246,
log 8). -/
def State.tlbInstall (s : State) (g : Agent) (e : TlbEntry) : State :=
  let s := if g.place.2 < 144 then
      s.modTile g.place.1 g.place.2 fun t => { t with utlb := vset t.utlb g.group ((e :: vget t.utlb g.group).take 64) }
    else s
  s.modDie g.place.1 fun f => { f with tlb := (e :: f.tlb).take 16384 }

/-! ### Page walks -/

/-- The node whose walker serves an address of a partition: that of the home of its level-0 entry (10 R246). -/
def State.walkerNode (s : State) (part : BitVec 4) (va : Nat) : Nat := s.homeNode (((s.context part).root + 8 * bits va 43 14) / 128)
/-- The address of the entry that a walk reads next (10 R240). -/
def PageWalk.entry (w : PageWalk) : Nat :=
  w.table + 8 * bits (w.granule * 65536) (levelShift w.level).1 (levelShift w.level).2
/-- Whether a walk is the one of a transaction of a walker's node. -/
def PageWalk.is (w : PageWalk) (node txn : Nat) : Bool := w.node == node && w.txn == txn
/-- Puts a walk in place of the one with its transaction. -/
def State.setWalk (s : State) (w : PageWalk) : State :=
  { s with walks := s.walks.map fun x => if x.is w.node w.txn then w else x }
/-- The walker reads the entry of a walk as an uncached read that the entry's home performs (10 R240); a table beyond the populated size
ends the walk (08 R193), and so does a line of a failed M-die (11 R269). DEDUCED (log 72): an entry is read as it is stored, under no key. -/
def State.readEntry (s : State) (w : PageWalk) : State :=
  let line := w.entry / 128
  if s.hbmSize ≤ w.entry then s.setWalk { w with result := some .malformed }
  else if s.lostHome line then s.setWalk { w with result := some .poisoned }
  else s.send 13 { Packet.zero with src := w.node, dst := s.homeNode line, line := line, boff := w.entry % 128, size := 3, txn := w.txn,
                                    part := w.part, aux := 3 }

/-! ### The memory-tile window -/

/-- The first address of the window (08 R192). -/
def windowBase : Nat := 0x01FFFFFFC0000000
/-- Whether an address lies in the window (08 R192). -/
def inWindow (a : Nat) : Bool := decide (windowBase ≤ a) && decide (a < windowBase + 0x40000000)
/-- The populated size of the window (01 R25): 64 memory tiles of 2 MiB for each M-die that homes it. -/
def State.windowSize (s : State) : Nat := s.windowDies.length * 64 * 0x200000
/-- The window faults of a window address: an offset at or beyond the populated size faults PAGE (01 R25), one in a memory tile that is not
assigned to the partition PERM (08 R192). DEDUCED (log 100): R192 judges the assignment first, and an offset beyond the populated size lies in no
memory tile. -/
def State.windowFault (s : State) (part : BitVec 4) (a : Nat) : Option Report :=
  let off := a - windowBase
  if s.windowSize ≤ off then some ⟨5, 0x10, BitVec.ofNat 64 a⟩
  else if tget s.windowOwner (off / 0x200000) ≠ some part then some ⟨6, 0x11, BitVec.ofNat 64 a⟩
  else none
/-- The M-die of a window offset (01 R25, 08 R211). -/
def State.windowNode (s : State) (off : Nat) : Nat := 8 + (lget s.windowDies (off / 0x200000 / 64)).getD 0
/-- A word of the window; a failed M-die's words are poisoned in place (11 R269). -/
def State.word (s : State) (off : Nat) : WindowWord :=
  let w := tgetD s.window (off / 8) ⟨0, .plain, 0, false⟩
  if s.dieState (s.windowNode off) == 3 then { w with psn := true } else w
/-- Whether a window word is homed on an M-die that has failed (11 R269). -/
def State.lostWord (s : State) (off : Nat) : Bool := s.dieState (s.windowNode off) == 3
/-- Writes a word of the window. -/
def State.setWord (s : State) (off : Nat) (w : WindowWord) : State := { s with window := tput s.window (off / 8) w }

/-! ### Tile scratchpads -/

/-- The size of a tile scratchpad in bytes (08 R192). -/
def spadSize : Nat := 0x200000
/-- `n` bytes of a scratchpad read by partition `part`, zero across a tag mismatch (10 R252). -/
def Tile.spadBytes (t : Tile) (part : BitVec 4) (a : Nat) : Nat → List Byte
  | 0 => []
  | n + 1 => (if tgetD t.spadTag (a / 64) 0 = part then mget t.spad a else 0) :: t.spadBytes part (a + 1) n
/-- `n` bytes of a scratchpad as a number. -/
def Tile.spadRead (t : Tile) (part : BitVec 4) (a n : Nat) : Nat := fromBytes (t.spadBytes part a n)
/-- Zeroes `n` bytes. -/
def zeroBytes (m : Memory) (a : Nat) : Nat → Memory
  | 0 => m
  | n + 1 => zeroBytes (mput m a 0) (a + 1) n
/-- Takes a granule for a partition: another tag's bytes become zero (10 R252). -/
def Tile.retag (t : Tile) (part : BitVec 4) (g : Nat) : Tile :=
  if tgetD t.spadTag g 0 = part then t
  else { t with spad := zeroBytes t.spad (64 * g) 64, spadTag := if part = 0 then tdel t.spadTag g else tput t.spadTag g part,
                spadPsn := t.spadPsn.filter fun w => w / 8 != g }
/-- Takes `n` granules from `g` on. -/
def Tile.retagMany (t : Tile) (part : BitVec 4) (g : Nat) : Nat → Tile
  | 0 => t
  | n + 1 => (t.retag part g).retagMany part (g + 1) n
/-- Marks or clears the poison of the 8-byte words of [a, a + n): poison written marks each word touched, clean data
clears each word written whole (11 R260). -/
def Tile.markPoison (t : Tile) (a n : Nat) (psn : Bool) : Tile :=
  let ws := (List.range ((a + n + 7) / 8 - a / 8)).map (a / 8 + ·)
  { t with spadPsn := ws.foldl (fun l w =>
      if psn then sput l w else if a ≤ 8 * w ∧ 8 * w + 8 ≤ a + n then sdel l w else l) t.spadPsn }
/-- Writes bytes into a scratchpad for a partition: granules are retagged first (10 R252). -/
def Tile.spadWrite (t : Tile) (part : BitVec 4) (a : Nat) (bs : List Byte) (psn : Bool) : Tile :=
  let t := t.retagMany part (a / 64) ((a + bs.length + 63) / 64 - a / 64)
  ({ t with spad := mputs t.spad a bs }).markPoison a bs.length psn
/-- Whether any 8-byte word of [a, a + n) is poisoned, for a partition that may read it (11 R260). -/
def Tile.spadPoisoned (t : Tile) (part : BitVec 4) (a n : Nat) : Bool :=
  t.spadPsn.any fun w => decide (8 * w < a + n) && decide (a < 8 * w + 8) && tgetD t.spadTag (w / 8) 0 == part
/-- The address of the first poisoned byte of [a, a + n) (11 R255). -/
def Tile.firstPoison (t : Tile) (a n : Nat) : Nat :=
  match t.spadPsn.find? fun w => decide (8 * w < a + n) && decide (a < 8 * w + 8) with
  | some w => max a (8 * w)
  | none => a

/-! ### Races -/

/-- Whether an engine wrote. -/
def Racer.isEngine : Racer → Bool
  | .engine _ | .island => true
  | .store _ | .grid => false
/-- Puts a word's other value back; poison is kept where either value has it. -/
def Tile.putRaced (t : Tile) (r : Race) : Tile :=
  let t := { t with spad := mputs t.spad (4 * r.word) (toBytes r.value.toNat 4) }
  if r.psn then t.markPoison (4 * r.word) 4 true else t
/-- The choices of a reader of one side among entries that stand from number `i` on, oldest first; `ws` are the words it has chosen for. It
answers the values that it takes, and the entries afterwards: those older than what it finds in their word are over, so that no later read of
that side finds an older value (09 R219, R230). -/
def pickRaces (engine : Bool) (coin : Nat → Nat) : Nat → List Nat → List Race → List Race × List Race
  | _, _, [] => ([], [])
  | i, ws, r :: l =>
    if r.past || r.writer.isEngine == engine || ws.contains r.word then
      let p := pickRaces engine coin (i + 1) ws l
      (p.1, r :: p.2)
    else if coin i % 2 == 1 then
      let p := pickRaces engine coin (i + 1) (r.word :: ws) l
      (r :: p.1, r :: p.2)
    else
      let p := pickRaces engine coin (i + 1) ws l
      (p.1, { r with past := true } :: p.2)
/-- A scratchpad as a reader finds it: each aligned 4-byte word as it stands, or as a racing writer of the other side found it. `engine`
says that an engine reads; coin `i` is the choice for the tile's entry `i` (09 R230). -/
def Tile.view (t : Tile) (engine : Bool) (coin : Nat → Nat) : Tile :=
  let p := pickRaces engine coin 0 [] t.races
  { p.1.foldl Tile.putRaced t with races := p.2 }
/-- The choices that racing readers and writers take next. -/
def State.coin (s : State) (i : Nat) : Nat := Config.choice (s.freeCtr + i)
/-- A tile as a reader finds it, and the state with the choices taken (09 R230, log 87). -/
def State.view (s : State) (d y : Nat) (engine : Bool) : Tile × State :=
  let t := s.tile d y
  let v := t.view engine s.coin
  (v, { s with freeCtr := s.freeCtr + t.races.length }.modTile d y fun t => { t with races := v.races })
/-- A strand or PE has read [a, a + n): a store of another strand or PE that it may have found there is no race for what it orders after
(09 R225, R226). `mine` picks out its own stores. -/
def Tile.observe (t : Tile) (mine : Racer → Bool) (a n : Nat) : Tile :=
  { t with races := t.races.map fun r =>
      if !r.writer.isEngine && !mine r.writer && decide (a / 4 ≤ r.word) && decide (4 * r.word < a + n) then { r with past := true } else r }
/-- One word of a racing write: its entry keeps the value that readers of the other side may find beside the new one; where a writer of that
side races for the word, either write may be the last, and no reader finds what stood before both (09 R219, R230). -/
def Tile.raceWord (was t : Tile) (w : Racer) (part : BitVec 4) (coin : Nat → Nat) (n : Nat) : Tile :=
  let word := fun (t : Tile) (past : Bool) =>
    (⟨n, BitVec.ofNat 32 (t.spadRead part (4 * n) 4), t.spadPoisoned part (4 * n) 4, w, past⟩ : Race)
  let rival := fun (r : Race) => !r.past && r.word == n && r.writer.isEngine != w.isEngine
  if was.races.any rival then
    let rest := t.races.map fun r => if rival r then { r with past := true } else r
    if coin n % 2 == 1 then { t.putRaced (word was false) with races := rest ++ [word t true] }
    else { t with races := rest ++ [word was false] }
  else { t with races := t.races ++ [word was false] }
/-- A write that may race: the bytes are written, and the words they touch keep their entries (09 R230). -/
def Tile.raceWrite (t : Tile) (w : Racer) (coin : Nat → Nat) (part : BitVec 4) (a : Nat) (bs : List Byte) (psn : Bool) : Tile :=
  ((List.range ((a + bs.length + 3) / 4 - a / 4)).map (a / 4 + ·)).foldl (fun u n => t.raceWord u w part coin n) (t.spadWrite part a bs psn)
/-- The state with the choices of a racing write taken. -/
def State.coined (s : State) : State := { s with freeCtr := s.freeCtr + spadSize / 4 }
/-- The entries without those of a writer whose races are over; an older entry of its side for one of its words is over too. -/
def dropRacer (w : Racer) (l : List Race) : List Race :=
  (l.foldr (fun r p =>
    if r.writer == w then (r.word :: p.1, p.2)
    else if r.writer.isEngine == w.isEngine && p.1.contains r.word then (p.1, { r with past := true } :: p.2)
    else (p.1, r :: p.2)) (([] : List Nat), ([] : List Race))).2
/-- The races of a writer are over: all see what it wrote, or what was written later. -/
def Tile.settleRaces (t : Tile) (w : Racer) : Tile := { t with races := dropRacer w t.races }

/-! ### Memory-tile operations -/

/-- The memory-tile operations by their codes in AUX (08 R200, R212): plain load and store, atomics, CAS, then the
operations of the reference entries (log 9). -/
def opLoad : Nat := 0
/-- Plain store. -/
def opStore : Nat := 1
/-- CAS. -/
def opCas : Nat := 2
/-- BARI. -/
def opBari : Nat := 3
/-- BARA. -/
def opBara : Nat := 4
/-- BARW. -/
def opBarw : Nat := 5
/-- TSB. -/
def opTsb : Nat := 6
/-- LREL. -/
def opLrel : Nat := 7
/-- TLOOK. -/
def opTlook : Nat := 8
/-- TINS. -/
def opTins : Nat := 9
/-- TEVICT. -/
def opTevict : Nat := 10
/-- EQPUT that waits while full, or not. -/
def opEqput (wait : Bool) : Nat := if wait then 12 else 11
/-- EQGET that waits while empty, or not. -/
def opEqget (wait : Bool) : Nat := if wait then 14 else 13
/-- MTAS on a window word is not a form of the spec; atomics are 16 and up. -/
def opAtomic (o : AtomicOp) : Nat := 16 + o.code

/-- Whether an operation of the window acquires (09 R227). -/
def windowAcquires (op : Nat) : Bool := op == opBarw || op == opTsb || op == 13 || op == 14
/-- Whether an operation of the window releases (09 R227). -/
def windowReleases (op : Nat) : Bool := op == opBara || op == opLrel || op == 11 || op == 12
/-- Whether an operation code is EQPUT. -/
def isPut (op : Nat) : Bool := op == opEqput true || op == opEqput false
/-- Whether an operation code is EQGET. -/
def isGet (op : Nat) : Bool := op == opEqget true || op == opEqget false
/-- Whether an operation code is an edge-queue operation. -/
def isEdge (op : Nat) : Bool := isPut op || isGet op

end Sys2Proof.Machine
end

