-- ==== Sys2Proof/Machine/Ring.lean ====
section
/-! DEFINITION. The nodes of the serialising ring (09 R232). -/
namespace Sys2Proof.Machine

/-- The ring number of a home slice: 320 nodes for each M-die, its slices first (09 R232). -/
def sliceNode (slice : Nat) : Nat := slice / 256 * 320 + slice % 256
/-- The ring number of the memory tile that holds a window offset (09 R232). -/
def State.tileNode (s : State) (off : Nat) : Nat := (s.windowNode off - 8) * 320 + 256 + off / 0x200000 % 64
/-- Whether a ring node is usable: a usable slice, or a memory tile of an M-die that homes the window, on a die that serves (09 R232, R234). -/
def State.ringUsable (s : State) (k : Nat) : Bool :=
  decide (s.dieState (8 + k / 320) ≤ 1) && if k % 320 < 256 then s.homeMap.contains (k / 320 * 256 + k % 320) else s.windowDies.contains (k / 320)
/-- The first usable node from `k` on, 2,560 if there is none. -/
def State.ringFrom (s : State) (k : Nat) : Nat :=
  (((List.range 2560).filter fun i => decide (k ≤ i)).find? fun i => s.ringUsable i).getD 2560
/-- The first node of the ring. -/
def State.firstNode (s : State) : Nat := s.ringFrom 0
/-- The node that the token goes to after `k`; past the last it returns to the first (09 R232). -/
def State.nextNode (s : State) (k : Nat) : Nat := if s.ringFrom (k + 1) = 2560 then s.firstNode else s.ringFrom (k + 1)
/-- The M-die node of a ring node. -/
def ringDie (k : Nat) : Nat := 8 + k / 320
/-- The requests in the queue of a node, oldest first: the requester's node and its transaction (09 R232). -/
def State.waitersAt (s : State) (k : Nat) : List (Nat × Nat) := (s.scQueue.filter fun e => e.1 == k).map (·.2)
/-- An SC request joins the queue of its node; with 32 there already it waits at the node's input (09 R232). -/
def State.joinSerial (s : State) (k node txn : Nat) : State :=
  if (s.waitersAt k).length < 32 then { s with scQueue := s.scQueue ++ [(k, node, txn)] } else { s with scInput := s.scInput ++ [(k, node, txn)] }
/-- The oldest request at a node's input joins the queue while a place is free (09 R232). -/
def State.refillSerial (s : State) (k : Nat) : State :=
  match s.scInput.find? fun e => e.1 == k with
  | some e => if (s.waitersAt k).length < 32 then { s with scQueue := s.scQueue ++ [e], scInput := s.scInput.erase e } else s
  | none => s
/-- An SC request leaves the ring (09 R232). -/
def State.leaveSerial (s : State) (k node txn : Nat) : State :=
  { s with scQueue := s.scQueue.filter fun e => e != (k, node, txn), scInput := s.scInput.filter fun e => e != (k, node, txn) }.refillSerial k
/-- Whether a request stands in the queue or at the input of some node. -/
def State.inSerial (s : State) (node txn : Nat) : Bool := (s.scQueue ++ s.scInput).any fun e => e.2 == (node, txn)

end Sys2Proof.Machine
end

