-- ==== Sys2Proof/Machine/Access.lean ====
section
/-! DEFINITION. The life of an access from issue to completion: what it is ordered after, its walk, its miss, its packets and peer
requests, and its end (08 R193 to R204, 09 R215 to R224, R231, R236, 10 R244, R246, 12 R276 to R279). -/
namespace Sys2Proof.Machine

/-! ### What an access is -/

/-- A tile holds a generation: its own, or the successor's of a splice (10 R253). -/
def Tile.holds (t : Tile) (gen : Nat) : Bool := t.gen == gen || t.gen2 == some gen

/-- Whether an access acts as an acquire. -/
def Access.acquires (a : Access) : Bool :=
  a.ord.acquires || (match a.kind with | .window op => windowAcquires op | _ => false)
/-- Whether an access acts as a release. -/
def Access.releases (a : Access) : Bool :=
  a.ord.releases || (match a.kind with | .window op => windowReleases op | _ => false)
/-- Whether a release of the access waits for the remote-write buffer (09 R223, R236). -/
def Access.drains (a : Access) : Bool :=
  a.releases && (a.scp == .dev || a.scp == .sys || a.ord == .sc || (match a.kind with | .window op => windowReleases op | _ => false))
/-- Whether an access acquires at die scope or wider, and so empties the L1 (09 R223). -/
def Access.clears (a : Access) : Bool :=
  a.acquires && !a.noAcq && (a.scp.wide || a.ord == .sc || (match a.kind with | .window op => windowAcquires op | _ => false))
/-- Whether an access reads memory. -/
def Access.reads (a : Access) : Bool :=
  match a.kind with
  | .load => true | .atomic _ => true | .cas => true
  | .window op => op != opStore && op != opBari && op != opLrel
  | .store | .fence | .xlt | .flush _ | .pref => false
/-- Whether an access writes memory. -/
def Access.writes (a : Access) : Bool :=
  match a.kind with
  | .store => true | .atomic _ => true | .cas => true
  | .window op => op != opLoad && op != opTlook && op != opBarw
  | .load | .fence | .xlt | .flush _ | .pref => false
/-- Whether an access takes no part in the order of a strand's accesses: a translation, a hint (09 R215, 17 R405). -/
def Access.ghost (a : Access) : Bool := a.kind == .xlt || a.kind == .pref
/-- Whether an access has already been performed at die scope and only waits for a peer's acknowledgement (09 R218). -/
def Access.drained (a : Access) : Bool := a.phase == .drained
/-- The address that an access translates: an edge queue's ring address stands in `pa`. -/
def Access.walkVa (a : Access) : Nat :=
  match a.kind with
  | .window _ => a.pa
  | .load | .store | .atomic _ | .cas | .fence | .xlt | .flush _ | .pref => a.va
/-- Whether the physical address of an access is known. -/
def Access.known (a : Access) : Bool :=
  match a.phase with
  | .translate | .walk | .page => false
  | .cache | .uncached | .serial | .remote | .host | .window | .waiter | .ring | .held | .retry | .drained | .scratch => true

/-! ### Order -/

/-- Whether two byte ranges meet. -/
def rangesMeet (a n b m : Nat) : Bool := decide (a < b + m) && decide (b < a + n)
/-- The own pod identifier is a peer frame served by the device itself (08 R193). -/
def State.ownPeer (s : State) (pa : Nat) : Bool := bits pa 50 2 == 2 && bits pa 40 10 == s.plinth.podId
/-- The physical address of a byte, the same however its frame is named (08 R193, R208). -/
def State.frame (s : State) (pa : Nat) : Nat := if s.ownPeer pa then bits pa 0 40 else pa

/-- Whether two accesses touch a common byte of one address space; while either is not translated, any two whose offsets in their
64 KiB pages meet may (09 R219, R222). -/
def State.overlap (s : State) (a b : Access) : Bool :=
  a.phase != .scratch && b.phase != .scratch && (rangesMeet a.va a.bytes b.va b.bytes || (!inWindow a.va && !inWindow b.va &&
    if a.known && b.known then rangesMeet (s.frame a.pa) a.bytes (s.frame b.pa) b.bytes
    else rangesMeet (a.va % 65536) a.bytes (b.va % 65536) b.bytes))

/-- The older accesses of an access's agent that it may be ordered after. -/
def State.olderThan (s : State) (a : Access) : List Access :=
  s.access.filter fun b => b.agent == a.agent && decide (b.id < a.id) && !b.ghost

/-- Whether the entries that a release of `a` waits for have drained from its die's remote-write buffer (09 R236). -/
def State.rwbDrained (s : State) (a : Access) : Bool :=
  match a.agent with
  | .strand d _ _ => (s.die d).rwb.all fun e => decide (a.mark ≤ e.seq)
  | .stream _ _ _ | .copy _ _ _ | .pe _ _ _ _ | .dispatcher _ _ | .tile _ | .routed _ _ _ => true

/-- R222 to R224: an access may be performed once every earlier access of its strand that it is ordered after has been
performed. -/
def State.mayPerform (s : State) (a : Access) : Bool :=
  ((s.olderThan a).all fun b =>
    if b.kind == .fence then !(b.ord.acquires || a.writes)
    else !(s.overlap a b && !b.drained) && !(a.releases && (!b.drained || a.drains)) && !(b.ord == .sc) && !(a.ord == .sc))
  && (!a.drains || s.rwbDrained a)

/-- R224: a fence has taken effect once the earlier accesses it orders are performed at its scope. -/
def State.fenceDone (s : State) (a : Access) : Bool :=
  if a.ord.releases then
    (s.olderThan a).all (fun b => b.kind != .fence && b.drained && !a.drains) && (!a.drains || s.rwbDrained a)
  else (s.olderThan a).all fun b => !b.reads

/-! ### The end of an access -/

/-- Lowers a strand's slot count (04 R91). -/
def Strand.lower (t : Strand) (slot : Nat) : Strand :=
  if slot = 0 then t else { t with sb := vset t.sb slot (vget t.sb slot - 1) }
/-- Raises a strand's slot count (04 R91). -/
def Strand.raise (t : Strand) (slot : Nat) : Strand :=
  if slot = 0 then t else { t with sb := vset t.sb slot (vget t.sb slot + 1) }
/-- Reads a general register; x0 reads as zero (04 R84). -/
def Strand.rd (t : Strand) (r : Reg) : Word := if r = 0 then 0 else t.x[r.val]
/-- Writes a general register; a write to x0 is discarded (04 R84). -/
def Strand.wr (t : Strand) (r : Reg) (v : Word) : Strand := if r = 0 then t else { t with x := t.x.set r.val v }
/-- Marks a register that an operation in flight will write (04 R83). -/
def Strand.mark (t : Strand) (r : Reg) : Strand := if r = 0 then t else { t with busy := t.busy ||| (1#32 <<< r.val) }
/-- Clears the mark of a register (04 R83). -/
def Strand.unmark (t : Strand) (r : Reg) : Strand := { t with busy := t.busy &&& ~~~(1#32 <<< r.val) }

/-- Takes an access out of flight: its registers are released, its slot falls, an acquire ends and empties the L1 (04
R93, 09 R223). An access of a region that its tile no longer holds changes nothing there (10 R253). -/
def State.endAccess (s : State) (a : Access) : State :=
  let s := s.dropAccess a.id
  match a.agent with
  | .strand d t n =>
    if (s.tile d t).holds a.gen then
      let s := s.modStrand d t n fun x =>
        let x := ((x.unmark a.dst).unmark a.dst2).lower a.slot
        if a.acquires then { x with acquires := x.acquires - 1 } else x
      if a.clears then s.modTile d t fun t => { t with l1 := [] } else s
    else s
  | _ => s

/-- A fence of an SC form whose ordering has taken effect waits for the token at the first node of the ring (09 R233). -/
def State.serialFence (s : State) (a : Access) : State :=
  let d := a.agent.dieNo
  let t := s.newTxn d
  if a.sent || 65536 ≤ t then s
  else (s.modAccess a.id fun b => { b with sent := true, txn := t }).joinSerial s.firstNode d t

/-- Ends every fence of a strand that has taken effect, oldest first; FENCE.SC goes to the ring (09 R224, R233). -/
def State.settleStrand (s : State) (agent : Agent) : State :=
  (s.access.filter fun a => a.agent == agent && a.kind == .fence).foldl
    (fun s a => if s.fenceDone a then (if a.ord == .sc then s.serialFence a else s.endAccess a) else s) s

/-- Counts a reply that the generation check drops (10 R253). -/
def State.countGen (s : State) (d : Nat) : State := s.modDie d fun f => { f with dropGen := f.dropGen + 1 }

/-- The value that an access writes over `old`, if it writes (09 R231). For CAS `data` is the expected value. -/
def Access.newValue (a : Access) (old : Nat) : Option Nat :=
  match a.kind with
  | .store => some (a.data.toNat % 2 ^ (8 * a.bytes))
  | .atomic o => some (o.apply a.bytes old a.data.toNat)
  | .cas => if old = a.data.toNat % 2 ^ (8 * a.bytes) then some (a.data2.toNat % 2 ^ (8 * a.bytes)) else none
  | .load | .fence | .xlt | .flush _ | .pref | .window _ => none

/-- Extends a loaded value to the register (14 R295). -/
def Access.extendValue (a : Access) (v : Nat) : Word := extend a.signed a.bytes v

/-! ### The tile L1 -/

/-- The tile L1 line of a physical address, if the L1 holds it (08 R194). -/
def State.l1Line (s : State) (d t pa : Nat) : Option L1Line := tget (s.tile d t).l1 (pa / 128)

/-- Fills the L1: a full set of 8 ways loses a line of the part's choice (08 R194, log 2). -/
def State.l1Fill (s : State) (d t pa : Nat) (l : L1Line) : State :=
  let line := pa / 128
  let set := (s.tile d t).l1.filter fun e => e.1 % 64 == line % 64 && e.1 != line
  let (s, victim) := if 8 ≤ set.length then let (c, s) := s.pick 8; (s, (lget set c).map (·.1)) else (s, none)
  s.modTile d t fun x =>
    let m := match victim with | some v => tdel x.l1 v | none => x.l1
    { x with l1 := tput m line l }

/-- Applies the bytes that a tile's own strand has stored to the L1 copy of the line, if there is one; nothing else of the
copy changes (08 R195, 09 R221). -/
def State.l1Update (s : State) (d t pa : Nat) (part : BitVec 4) (n v : Nat) : State :=
  match s.l1Line d t pa with
  | some c =>
    let l := lineWrite ⟨c.data, 0, c.part, c.psn⟩ (pa / 128) part 0 (pa % 128) n v false
    s.modTile d t fun x => { x with l1 := tput x.l1 (pa / 128) ⟨l.data, l.part, l.psn⟩ }
  | none => s

/-! ### Requests to homes and memory tiles -/

/-- The operation code of an uncached or serialised access: AUX[7:0] is 0 read, 1 write, 2 CAS, 3 the walker's read, 16 and up an atomic;
AUX[8] marks SC; AUX[14:9] is the key slot (log 9). -/
def homeCode (op : Nat) (sc : Bool) (kidx : Nat) : Nat := op + flagCode sc * 256 + kidx % 64 * 512
/-- The operation of an access at its home (log 9). -/
def Access.homeOp (a : Access) : Nat :=
  homeCode (match a.kind with
    | .store => 1 | .cas => 2 | .atomic o => opAtomic o
    | .load | .fence | .xlt | .flush _ | .pref | .window _ => 0) (a.ord == .sc) a.kidx

/-- The window operation that a plain access, ordered access, atomic or CAS to a window word is. -/
def AccessKind.windowOp : AccessKind → Nat
  | .load => opLoad | .store => opStore | .cas => opCas | .atomic o => opAtomic o
  | .fence | .xlt | .flush _ | .pref => 0
  | .window op => op
/-- The operation code of a window access. -/
def Access.op (a : Access) : Nat := a.kind.windowOp

/-- Sends an access to the home of its line as an uncached read or write (08 R208, 09 R233): a write carries its bytes and their mask, an
atomic its operands (log 9). -/
def State.sendHome (s : State) (a : Access) : State :=
  let line := a.pa / 128
  let d := a.agent.dieNo
  let t := s.newTxn d
  if 65536 ≤ t then s
  else
    (s.send (if a.writes then 14 else 13)
      { Packet.zero with src := d, dst := s.homeNode line, line := line, boff := a.pa % 128, size := Nat.log2 a.bytes, txn := t, part := a.part,
                         gen := a.gen, aux := a.homeOp, ndf := if a.writes then 1 else 0, enables := 2 ^ a.bytes - 1,
                         data := BitVec.ofNat 1024 (a.data.toNat + a.data2.toNat * 2 ^ 64) }).modAccess a.id
      fun b => { b with sent := true, txn := t }

/-- Sends a memory-tile operation (08 R212): the operands ride in the data flit. AUX[8] marks SC (log 9). -/
def State.sendWindow (s : State) (a : Access) : State :=
  let off := a.va - windowBase
  let d := a.agent.dieNo
  let t := s.newTxn d
  if 65536 ≤ t then s
  else
    (s.send 16 { Packet.zero with
      src := d, dst := s.windowNode off, ndf := 1, line := off / 128, boff := off % 128, size := Nat.log2 a.bytes, txn := t, part := a.part,
      gen := a.gen, aux := a.op + (if a.ord == .sc then 256 else 0),
      data := BitVec.ofNat 1024 (a.data.toNat + a.data2.toNat * 2 ^ 64 + a.gkey.toNat * 2 ^ 128) }).modAccess a.id
      fun b => { b with sent := true, txn := t }

/-- A load that a strand's own stores cover byte for byte takes the bytes of the youngest; a store whose page is not translated is compared
by its page (08 R195). -/
def State.storeBuffer (s : State) (a : Access) : Option Nat :=
  let older := (s.olderThan a).filter fun b => b.kind != .fence && b.phase != .drained && s.overlap a b
  let same := fun (b : Access) => b.va / 65536 == a.va / 65536
  let stores := if older.all (fun b => b.kind == .store && b.plain && (b.known || same b)) then older.reverse else []
  let byte := fun (i : Nat) => stores.findSome? fun b =>
    let (x, y) := if same b then (a.va + i, b.va) else (s.frame a.pa + i, s.frame b.pa)
    if y ≤ x ∧ x < y + b.bytes then some (bits b.data.toNat (8 * (x - y)) 8) else none
  (List.range a.bytes).foldr (fun i acc => match byte i, acc with
    | some v, some w => some (v + 256 * w)
    | _, _ => none) (some 0)

/-- Whether an older access of the agent still overlaps (09 R222). -/
def State.olderOverlap (s : State) (a : Access) : Bool :=
  (s.olderThan a).any fun b => b.kind != .fence && !b.drained && s.overlap a b

/-! ### Peers -/

/-- The bytes of a peer load that the die's remote-write entries hold, youngest first (09 R236). -/
def State.remoteByte (s : State) (d pa : Nat) : Option Byte :=
  ((s.die d).rwb.reverse).findSome? fun e => if e.pa = pa / 64 * 64 then tget e.data pa else none

/-- The port of a request to a peer offset under R279, 99 while no port is up. -/
def State.portFor (s : State) (off : Nat) : Nat :=
  let up := s.plinth.portsUp
  if up.isEmpty then 99 else (lget up (off / 64 % up.length)).getD 99

/-- The lines that `n` bytes at local address `a` touch, each with its offset and byte count. -/
def linePieces (a n : Nat) : List (Nat × Nat × Nat) :=
  if n ≤ 128 then [(a / 128, a % 128, n)] else (List.range (n / 128)).map fun i => (a / 128 + i, 0, 128)

/-- The operation code of a UALink request at a home (log 9). -/
def peerCode : UaOp → Nat
  | .read => 0 | .write => 1 | .cas => 2 | .atomic o => opAtomic o
/-- The bits of a byte mask, lowest first. -/
def maskBits : List Bool → Nat
  | [] => 0
  | b :: t => flagCode b + 2 * maskBits t

/-- The packet of a UALink request for one of the lines it touches (08 R208, 12 R276, log 9). -/
def peerPacket (r : UaReq) (node txn dst : Nat) (x : Nat × Nat × Nat) : Packet :=
  let lo := x.1 * 128 + x.2.1 - r.off
  let operands := fromBytes (r.data.take r.bytes) + fromBytes ((r.data.drop r.bytes).take r.bytes) * 2 ^ 64
  { Packet.zero with
    src := node, dst := dst, line := x.1, boff := x.2.1, size := Nat.log2 x.2.2, txn := txn, part := r.part,
    aux := homeCode (peerCode r.op) r.sc r.kidx, psn := r.psn, ndf := if r.op == UaOp.read then 0 else (x.2.2 + 31) / 32,
    enables := maskBits ((r.mask.drop lo).take x.2.2),
    data := BitVec.ofNat 1024 (if r.op == UaOp.cas then operands else fromBytes ((r.data.drop lo).take x.2.2)) }

/-- A station performs a request at system scope: an uncached read or write for each line, sent to its home (08 R193, R208, 12 R276, R277).
DESIGN CHOICE (log 73): the station that serves it stands on the M-die that homes its first line. -/
def State.station (s : State) (own : Option Nat) (r : UaReq) : State :=
  let node := s.homeNode (r.off / 128)
  let t := s.newTxn node
  let pieces := linePieces r.off r.bytes
  let q : PeerReq := { txn := t, req := r, own := own, left := pieces.map fun x => x.1, got := [], bad := false }
  State.over { s with peerReqs := s.peerReqs ++ [q] } pieces fun x s =>
    s.send (if r.op == UaOp.read then 13 else 14) (peerPacket r node t (s.homeNode x.1) x)

/-- A request to the own pod identifier goes through an own station as soon as it is out (08 R193). -/
def State.loopBack (s : State) (u : UaOut) : State :=
  if u.dev = s.plinth.podId ∧ !u.held ∧ !(s.peerReqs.any fun q => q.own == some u.id) then s.station (some u.id) u.req else s

/-- Puts a UALink request out: it is held while no port is up or while a request to its device is outstanding on an older
list of ports (12 R279). -/
def State.ualink (s : State) (die dev : Nat) (access : Option Nat) (entry : Option (Nat × Nat)) (r : UaReq) : State :=
  let (x, s) := s.fresh
  let now := s.plinth.portEpoch
  let held := s.plinth.portsUp.isEmpty || s.uaOut.any fun u => u.dev == dev && (u.held || u.epoch != now)
  let u : UaOut := ⟨x, die, dev, s.portFor r.off, access, entry, held, now, { r with src := s.plinth.podId, id := x }⟩
  { s with uaOut := s.uaOut ++ [u] }.loopBack u

/-- Lets the held requests go whose device has none outstanding on an older list of ports (12 R279). -/
def State.releaseUalink (s : State) : State :=
  let now := s.plinth.portEpoch
  if s.plinth.portsUp.isEmpty then s
  else
    let go := fun (u : UaOut) => u.held && !s.uaOut.any fun v => v.dev == u.dev && !v.held && v.epoch != now
    let sent := fun (u : UaOut) => { u with held := false, port := s.portFor u.req.off, epoch := now }
    { s with uaOut := s.uaOut.map fun u => if go u then sent u else u }.over (s.uaOut.filter go) fun u s => s.loopBack (sent u)

/-- The UALink request of a strand's access: its aligned 64-byte piece, or the operand of an atomic (12 R276, R277). -/
def Access.peerRequest (a : Access) : UaReq :=
  let off := bits a.pa 0 40
  let sc := a.ord == .sc
  match a.kind with
  | .store =>
    ⟨0, 0, off / 64 * 64, .write, 64, List.replicate (off % 64) 0 ++ toBytes a.data.toNat a.bytes ++ List.replicate (64 - off % 64 - a.bytes) 0,
      (List.range 64).map fun i => decide (off % 64 ≤ i) && decide (i < off % 64 + a.bytes), a.part, a.kidx, false, sc⟩
  | .atomic o => ⟨0, 0, off, .atomic o, a.bytes, toBytes a.data.toNat a.bytes, [], a.part, a.kidx, false, sc⟩
  | .cas => ⟨0, 0, off, .cas, a.bytes, toBytes a.data.toNat a.bytes ++ toBytes a.data2.toNat a.bytes, [], a.part, a.kidx, false, sc⟩
  | .load | .fence | .xlt | .flush _ | .pref | .window _ => ⟨0, 0, off / 64 * 64, .read, 64, [], [], a.part, a.kidx, false, sc⟩

/-- Sends a strand's access to a peer as a UALink request (12 R276, R279). -/
def State.sendPeer (s : State) (a : Access) : State :=
  (s.modAccess a.id fun b => { b with phase := .remote, sent := true }).ualink a.agent.dieNo (bits a.pa 40 10) (some a.id) none a.peerRequest

/-- Puts bytes into a sparse table of bytes from address `a` up. -/
def putBytes (l : List (Nat × Byte)) (a : Nat) : List Byte → List (Nat × Byte)
  | [] => l
  | b :: t => putBytes (tput l a b) (a + 1) t

/-- A new remote-write entry for a store (09 R236). -/
def State.newRemote (s : State) (d piece : Nat) (a : Access) (data : List (Nat × Byte)) : State :=
  (s.modDie d fun f => { f with
    rwb := f.rwb ++ [⟨piece, data, false, f.rwbSeq, a.part, a.kidx, [(a.agent, a.id)]⟩], rwbSeq := f.rwbSeq + 1 }).modAccess a.id
    fun b => { b with phase := .drained }

/-- A strand's plain store enters the remote-write buffer: it merges into the youngest entry of its piece that has not
started to drain and has its PART and KIDX, or takes one of the 256 entries; with none free it waits (09 R236, 12 R277). -/
def State.enterRemote (s : State) (a : Access) : State :=
  let d := a.agent.dieNo
  let f := s.die d
  let piece := a.pa / 64 * 64
  let add := fun (l : List (Nat × Byte)) => putBytes l a.pa (toBytes a.data.toNat a.bytes)
  let fresh := if f.rwb.length < 256 then s.newRemote d piece a (add []) else s
  match (f.rwb.reverse).find? (fun e => e.pa == piece) with
  | some e =>
    if !e.draining && e.part == a.part && e.kidx == a.kidx then
      (s.modDie d fun f => { f with rwb := f.rwb.map fun x =>
        if x.seq = e.seq then { x with data := add x.data, waits := x.waits ++ [(a.agent, a.id)] } else x }).modAccess a.id
        fun b => { b with phase := .drained }
    else fresh
  | none => fresh

/-- Whether the die's remote-write buffer holds a byte of an access (09 R231, R236). -/
def State.remoteOverlap (s : State) (a : Access) : Bool :=
  (List.range a.bytes).any fun i => (s.remoteByte a.agent.dieNo (a.pa + i)).isSome

/-- Whether the die's remote-write buffer has an entry for a 64-byte piece that an access touches (09 R236). -/
def State.remotePiece (s : State) (a : Access) : Bool := (s.die a.agent.dieNo).rwb.any fun e => e.pa == a.pa / 64 * 64

/-- A strand's load of peer memory that the remote-write entries cover takes its bytes from them; one that they cover in part,
and an atomic, an ordered store, a .SYS or SC load that they overlap, waits, an ordered .SYS store for every older entry of the die (09 R231,
R236, 18 R427). A load whose piece has entries without its bytes may wait as well (21 R457): a free choice (log 99). -/
def State.tryPeer (s : State) (a : Access) : State :=
  match a.agent, a.kind, a.plain with
  | .strand _ _ _, .store, true => s.enterRemote a
  | .strand d t n, .load, _ =>
    let bs := (List.range a.bytes).map fun i => s.remoteByte d (a.pa + i)
    if a.ord != .sc && a.scp != .sys && bs.all Option.isSome then
      (if (s.tile d t).holds a.gen then s.modStrand d t n fun x => x.wr a.dst (a.extendValue (fromBytes (bs.map fun b => b.getD 0)))
       else s.countGen d).endAccess a
    else if s.remoteOverlap a then s
    else if s.remotePiece a && a.ord != .sc && a.scp != .sys then
      let (v, s) := s.pick 2
      if v = 1 then s else s.sendPeer a
    else s.sendPeer a
  | .strand _ _ _, _, _ => if s.remoteOverlap a || (a.kind == .store && a.scp == .sys && !s.rwbDrained a) then s else s.sendPeer a
  | _, _, _ => s.sendPeer a

/-! ### Sending and ending -/

/-- Sends an access on its way once the earlier accesses that it is ordered after have been performed (09 R222 to R224). -/
def State.push (s : State) (a : Access) : State :=
  if a.sent || !s.mayPerform a then s
  else match a.phase with
    | .remote => s.tryPeer a
    | .uncached | .serial => if a.kind == .fence then s else s.sendHome a
    | .window => s.sendWindow a
    | .translate | .walk | .page | .cache | .host | .waiter | .ring | .held | .retry | .drained | .scratch => s

/-- Sends on every access of a die that has waited for another, oldest first. -/
def State.kick (s : State) (d : Nat) : State :=
  (s.access.filter fun a => !a.sent && a.agent.dieNo == d).foldl (fun s a => s.push a) s

/-- Ends an access, the fences that waited for it, and starts the peer accesses that it held back. -/
def State.finish (s : State) (a : Access) : State := ((s.endAccess a).settleStrand a.agent).kick a.agent.dieNo

/-- Whether the tile of an access's agent holds its generation; the dispatcher's traffic is not checked (10 R253). -/
def State.live (s : State) (a : Access) : Bool :=
  decide (144 ≤ a.agent.place.2) || (s.tile a.agent.place.1 a.agent.place.2).holds a.gen

/-- Ends an access whose reply brings nothing; one of a region that its tile no longer holds is counted (10 R253). -/
def State.finishReply (s : State) (a : Access) : State := if s.live a then s.finish a else (s.countGen a.agent.dieNo).finish a
/-- Ends an access whose reply brings a value: the destination register takes it. A region that the tile no longer holds
drops the reply (10 R253). -/
def State.reply (s : State) (a : Access) (v : Word) : State :=
  match a.agent with
  | .strand d t n =>
    if (s.tile d t).holds a.gen then (s.modStrand d t n fun x => x.wr a.dst v).finish a
    else (s.countGen d).finish a
  | _ => s.finish a

/-- Ends an access by a fault found after issue: the report goes to its agent (04 R93, 11 R257); a reply to a region that the tile no
longer holds is dropped and counted (10 R253). -/
def State.faultAccess (s : State) (a : Access) (r : Report) : State :=
  if s.live a then { s.finish a with reports := s.reports ++ [(a.agent, r)] } else (s.countGen a.agent.dieNo).finish a

/-- Ends a read: poison traps POISON with DETAIL 0x01 and the register is not written (11 R260). -/
def State.replyRead (s : State) (a : Access) (v : Word) (psn : Bool) : State :=
  if psn then s.faultAccess a ⟨8, 1, BitVec.ofNat 64 a.va⟩ else s.reply a v

/-- Puts an access into a phase and sends it on if it may go. -/
def State.enter (s : State) (a : Access) (ph : Phase) : State :=
  let a := { a with phase := ph }
  (s.modAccess a.id fun _ => a).push a

/-! ### Misses -/

/-- Sends the eight packets of a transient request (08 R203): the home and the other seven die caches. AUX tells a first
attempt, a later one, and one that a GRANT calls for (log 9). -/
def State.sendTransient (s : State) (d line : Nat) (m : Miss) (aux : Nat) : State :=
  let p : Packet := { Packet.zero with src := d, line := line, txn := m.txn, part := m.part, aux := aux }
  let opc := if m.write then 2 else 1
  s.over (s.homeNode line :: (List.range 8).filter (· != d)) fun n s => s.send opc { p with dst := n }

/-- Writes the miss of a line. -/
def State.setMiss (s : State) (d line : Nat) (m : Miss) : State := s.modDie d fun f => { f with misses := tput f.misses line m }

/-- Opens or widens the miss of a line (08 R196, R203): at most 1,024 misses, at most 4 transient toward one home slice, with those that are
over while their ticket stands there; a further miss waits inside the die cache (08 R204). -/
def State.openMiss (s : State) (d line : Nat) (write : Bool) (part : BitVec 4) (hint : Bool) : State :=
  let f := s.die d
  match tget f.misses line with
  | some m =>
    if write && !m.write then
      let m := { m with write := true, txn := s.newTxn d, fails := 0, hint := false }
      let s := s.setMiss d line m
      if m.persistent then s else s.sendTransient d line m 0
    else if hint then s
    else s.setMiss d line { m with hint := false }
  | none =>
    let near := f.misses.filter fun e => !e.2.persistent && s.homeSlice e.1 == s.homeSlice line
    let late := (tgetD s.tickets (s.homeSlice line) []).filter fun e => e.1 == d && !near.any fun m => m.1 == e.2
    if f.misses.length < 1024 ∧ near.length + late.length < 4 ∧ s.newTxn d < 65536 then
      let m : Miss := ⟨write, s.newTxn d, 0, false, false, part, hint⟩
      (s.setMiss d line m).sendTransient d line m 0
    else s

/-- Sends the persistent request of the first miss that has failed twice, when the die has none outstanding (08 R204,
R205). -/
def State.nextPersistent (s : State) (d : Nat) : State :=
  let f := s.die d
  if f.preq.isSome then s
  else match f.misses.find? (fun e => decide (2 ≤ e.2.fails)) with
    | some (line, m) =>
      (s.modDie d fun f => { f with misses := tput f.misses line { m with persistent := true }, preq := some line }).send 8
        { Packet.zero with src := d, dst := s.homeNode line, line := line, txn := m.txn, part := m.part, aux := d }
    | none => s

/-- The hints of a die that wait for a line complete (17 R405). -/
def State.endPrefs (s : State) (d line : Nat) : State :=
  s.over (s.access.filter fun a => a.kind == .pref && a.phase == .cache && a.agent.dieNo == d && a.pa / 128 == line) fun a s => s.finish a

/-- Closes the miss of a line once the access is served; a persistent request reports PDONE (08 R204, R206). -/
def State.closeMiss (s : State) (d line : Nat) : State :=
  match tget (s.die d).misses line with
  | some m =>
    let s := (s.modDie d fun f => { f with misses := tdel f.misses line }).endPrefs d line
    if m.persistent then s.send 12 { Packet.zero with src := d, dst := s.homeNode line, line := line, part := m.part, aux := d } else s
  | none => s

/-- Closes a miss that holds what it needs once nothing waits for it: a hint, or a line just served (08 R204, 17 R405). -/
def State.settleMiss (s : State) (d line : Nat) : State :=
  match tget (s.die d).misses line with
  | some m => if (s.cacheLine d line).serves m.write then s.closeMiss d line else s
  | none => s
/-- Whether an access waits at a die cache for a line. -/
def State.wanted (s : State) (d line : Nat) : Bool :=
  s.access.any fun a => a.phase == .cache && a.kind != .pref && a.agent.dieNo == d && a.pa / 128 == line

/-! ### Where an access goes once it is translated -/

/-- Serves a plain load of a strand from its store buffer or, for cacheable local HBM, from the L1 (08 R194, R195, 09 R221). -/
def State.quickLoad (s : State) (a : Access) (cached : Bool) : Option State :=
  if a.kind != .load || !a.plain then none
  else match a.agent with
    | .strand d t _ =>
      match s.olderOverlap a, s.storeBuffer a with
      | true, some v => some (s.reply a (a.extendValue v))
      | true, none => none
      | false, _ =>
        if !cached then none
        else match s.l1Line d t a.pa with
          | some l => some (s.replyRead a (a.extendValue (if l.part = a.part then bits l.data.toNat (8 * (a.pa % 128)) (8 * a.bytes) else 0))
              l.psn)
          | none => none
    | _ => none

/-- The phase that a translated access enters (08 R192, R193, R208, 09 R233). -/
def Access.target (a : Access) (pa : Nat) (c : Bool) : Phase :=
  if bits pa 50 2 = 1 then .host else if bits pa 50 2 = 2 then .remote else if a.ord == .sc then .serial else if c then .cache else .uncached

/-- What routing finds before an access goes out: atomics and SC accesses to host memory fault PERM (09 R231, R233), an own pod address
that names nothing PAGE (08 R193, log 17), a line homed on a failed M-die POISON (11 R269). DESIGN CHOICE (log 74): graph memory has no
address (08 R192, R193), so no access reaches it and the PERM of 02 R26 arises for none. -/
def State.routeFault (s : State) (a : Access) (e : TlbEntry) (pa : Nat) : Option Report :=
  let va := BitVec.ofNat 64 a.va
  let own := s.ownPeer pa
  let at_ := s.frame pa
  if bits pa 50 2 == 1 && (a.ord == .sc || (a.reads && a.writes)) then some ⟨6, 5, va⟩
  else if own && (decide (s.hbmSize ≤ at_) || s.keyOf a.part e.kidx == none) then some ⟨5, 3, va⟩
  else if (bits pa 50 2 == 0 || own) && s.lostHome (at_ / 128) then some ⟨8, 1, va⟩
  else none

/-- Routes a translated access (08 R192, R193, R195, 09 R218, R231, R233, R236): the store buffer, the L1, the die cache, the
home, the remote-write buffer, a peer or the host. -/
def State.route (s : State) (a : Access) (e : TlbEntry) : State :=
  let pa := e.pa a.va
  let cached := bits pa 50 2 == 0 && e.c
  match a.kind with
  | .fence | .xlt | .flush _ | .pref | .window _ => s
  | .load | .store | .atomic _ | .cas => match s.routeFault a e pa with
    | some r => s.faultAccess a r
    | none =>
      let a := { a with pa := pa, kidx := e.kidx, cacheable := cached, phase := a.target pa e.c }
      let s := s.modAccess a.id fun _ => a
      match s.quickLoad a (cached && a.ord != .sc) with
      | some s => s
      | none => if a.phase == .cache then s.openMiss a.agent.dieNo (a.pa / 128) a.writes a.part false else s.push a

/-! ### Waiting for a walk -/

/-- The walk that serves an access: one of its PART, CGEN and 64 KiB granule (10 R246). -/
def State.walkOf (s : State) (a : Access) : Option PageWalk :=
  s.walks.find? fun w => w.part == a.part && w.cgen == (s.context a.part).cgen && w.granule == a.walkVa / 65536
/-- The accesses that wait for a walk (10 R246). -/
def State.walkWaiters (s : State) (w : PageWalk) : List Access :=
  s.access.filter fun a => a.phase == .walk && a.part == w.part && a.walkVa / 65536 == w.granule && (s.context a.part).cgen == w.cgen

/-- An access that waits for a walk joins the one outstanding for its granule, or opens one while its walker has fewer than 256; a walk
that has ended with no access left to serve goes (01 R16, 10 R246). -/
def State.openWalk (s : State) (a : Access) : State :=
  let s := { s with walks := s.walks.filter fun w => w.result.isNone || !(s.walkWaiters w).isEmpty }
  let va := a.walkVa
  let c := s.context a.part
  let node := s.walkerNode a.part va
  let t := s.newTxn node
  if (s.walkOf a).isSome || 256 ≤ (s.walks.filter fun w => w.node == node).length || 65536 ≤ t || !c.valid then s
  else
    let w : PageWalk := ⟨t, node, a.part, c.cgen, va / 65536, c.root, 0, none⟩
    { s with walks := s.walks ++ [w] }.readEntry w

/-- Puts an access to wait for a walk (10 R246). -/
def State.waitWalk (s : State) (a : Access) : State :=
  let a := { a with phase := .walk }
  (s.modAccess a.id fun _ => a).openWalk a

/-- Translates an access at issue or after a page answer: a cached entry is checked (R244 steps 3 to 6) and the access is
routed; otherwise it waits for a walk (10 R246). -/
def State.translate (s : State) (a : Access) : State :=
  if 2 ^ 57 ≤ a.va ∨ !(s.context a.part).valid then s.faultAccess a ⟨5, 1, BitVec.ofNat 64 a.va⟩
  else match s.tlbFind a.agent a.part a.va with
    | some e => match checkEntry s e a.part a.gkey a.kind.need a.va with
      | some r => s.faultAccess a r
      | none => s.route a e
    | none => s.waitWalk a

/-- Takes accesses out of flight that nothing will answer: those that wait at a memory tile leave its lists, an SC access that has not been
performed is cancelled at its node, a miss that it alone asked for ends with the tokens it needs (03 R80, 08 R204, 09 R234, 10 R251). A reply that comes for one is dropped and counted (10 R253). -/
def State.forget (s : State) (p : Access → Bool) : State :=
  let gone := s.access.filter p
  let serial := (gone.filter fun a => s.inSerial a.agent.dieNo a.txn || a.phase == .serial).map fun a => (a.agent.dieNo, a.txn)
  let nodes := ((s.scQueue ++ s.scInput).filter fun e => serial.contains e.2).map (·.1)
  let lines := ((gone.filter fun a => a.phase == .cache).map fun a => (a.agent.dieNo, a.pa / 128)).eraseDups
  let s := { s with
    access := s.access.filter fun a => !p a
    windowWait := s.windowWait.filter fun w => !gone.any fun a => a.id == w.2
    scQueue := s.scQueue.filter fun e => !serial.contains e.2
    scInput := s.scInput.filter fun e => !serial.contains e.2
    homeWait := s.homeWait.filter fun q => !(q.aux.testBit 8 && serial.contains (q.src, q.txn)) : State }.over nodes fun k s => s.refillSerial k
  s.over lines fun e s => if s.wanted e.1 e.2 then s else s.settleMiss e.1 e.2

/-- Adds a new access of an agent to the accesses in flight. -/
def State.addAccess (s : State) (a : Access) : State := { s with access := s.access ++ [a] }

end Sys2Proof.Machine
end

