-- ==== Sys2Proof/Machine/Routes.lean ====
section
/-! DEFINITION. Planes of a PE, the words that leave output queues on routes, and their credits (05 R111, R120 to R122). -/
namespace Sys2Proof.Machine

/-- The plane that a PE reads (05 R111). -/
def Pe.plane (p : Pe) : Plane := if p.onB then p.planeB else p.planeA
/-- The other plane. -/
def Pe.shadow (p : Pe) : Plane := if p.onB then p.planeA else p.planeB
/-- Writes the plane that a PE reads. -/
def Pe.setPlane (p : Pe) (x : Plane) : Pe := if p.onB then { p with planeB := x } else { p with planeA := x }
/-- Writes the other plane. -/
def Pe.setShadow (p : Pe) (x : Plane) : Pe := if p.onB then { p with planeA := x } else { p with planeB := x }
/-- The route record of an output queue (05 R120). -/
def Plane.route (x : Plane) (q : Nat) : BitVec 64 := tgetD x.routes q 0
/-- V of a route record. -/
def routeValid (r : BitVec 64) : Bool := flagOf r.toNat 63
/-- DKIND of a route record. -/
def routeKind (r : BitVec 64) : Nat := bits r.toNat 60 3
/-- SLOTS of a route record. -/
def routeSlots (r : BitVec 64) : Nat := bits r.toNat 26 4
/-- IDX of a route record. -/
def routeIdx (r : BitVec 64) : Nat := bits r.toNat 36 7
/-- The number of a PE: 16 columns, row-major (05 R109, R128). -/
def peNumber (col row : Nat) : Nat := row * 16 + col
/-- The PE that a record of kind 0 or 1 names. -/
def routePe (r : BitVec 64) : Nat := peNumber (bits r.toNat 48 4) (bits r.toNat 45 3)
/-- The input queue that a record of kind 0 or 1 names. -/
def routeQueue (r : BitVec 64) : Nat := bits r.toNat 43 2
/-- The region-relative tile that a record of kind 1 names. -/
def routeTile (r : BitVec 64) : Nat × Nat := (bits r.toNat 56 4, bits r.toNat 52 4)
/-- The tag of a word on a route: the route's VC unless KEEP is set (05 R122). -/
def routeTag (r : BitVec 64) (w : GWord) : GWord := if flagOf r.toNat 30 then w else { w with tag := BitVec.ofNat 5 (bits r.toNat 31 5) }

/-- Sends on the words at the head of an output queue while their route holds credits (05 R121). -/
def Tile.depart (t : Tile) (pe q : Nat) : Nat → Tile
  | 0 => t
  | n + 1 =>
    let p := t.pe pe
    match vget p.outq q with
    | ⟨_, r, some w⟩ :: rest =>
      if vget p.credit q < routeSlots r then
        let t := t.setPe pe { p with outq := vset p.outq q rest, credit := vset p.credit q (vget p.credit q + 1) }
        { t with routes := t.routes ++ [(⟨pe, q, r, routeTag r w⟩ : InFlight)] : Tile }.depart pe q n
      else t
    | _ => t

/-- Sends on what every output queue of a PE may send; a queue holds 4 words (05 R111). -/
def State.departPe (s : State) (d site pe : Nat) : State :=
  s.modTile d site fun t => (List.range 4).foldl (fun t q => t.depart pe q 4) t

/-- Returns the credit of a word that has been dequeued at its destination tile (05 R121, 17 R388). -/
def State.returnCredit (s : State) (d t : Nat) : Source → State
  | .route site pe q => s.modTile d site fun x =>
      (x.modPe pe fun p => { p with credit := vset p.credit q (vget p.credit q - 1) }).depart pe q 4
  | .dport => s.modTile d t fun x => { x with island := { x.island with dused := x.island.dused - 1 } }
  | .none => s

end Sys2Proof.Machine
end

