-- ==== Sys2Proof/Machine/Task.lean ====
section
/-! DEFINITION. Launch records, ready queues, decrement sends, the end of a task and of its instance (02 R31 to R36, R47
to R51, 03 R56, R61, R74 to R76, 11 R256). -/
namespace Sys2Proof.Machine

/-! ### Records as words -/

/-- The code of a task state (02 R47). -/
def TaskState.code : TaskState → Nat
  | .dormant => 0 | .ready => 1 | .placed => 2 | .staging => 3 | .runnable => 4 | .running => 5 | .frozen => 6 | .done => 7
  | .failed => 8
/-- Whether a state is final (02 R47). -/
def TaskState.final : TaskState → Bool
  | .done | .failed => true
  | .dormant | .ready | .placed | .staging | .runnable | .running | .frozen => false
/-- Whether a task in this state holds a region. -/
def TaskState.holdsRegion : TaskState → Bool
  | .placed | .staging | .runnable | .running => true
  | .dormant | .ready | .frozen | .done | .failed => false

/-- Doubleword `n` of a launch record (02 R33). -/
def Record.word (r : Record) (n : Nat) : Word :=
  match n with
  | 0 => BitVec.ofNat 64 r.kaddr
  | 1 => BitVec.ofNat 64 (r.part.toNat * 2 ^ 60 + r.gkey.toNat * 2 ^ 52 + r.dcnt * 2 ^ 36 + r.state.code * 2 ^ 32 + r.prio * 2 ^ 29
      + flagCode r.spl * 2 ^ 28 + flagCode r.fwd * 2 ^ 27 + r.w * 2 ^ 23 + r.h * 2 ^ 19 + r.nops * 2 ^ 16 + r.bx * 2 ^ 12
      + r.by_ * 2 ^ 8 + r.fcause)
  | 2 => BitVec.ofNat 64 (r.byp * 2 ^ 45 + flagCode r.frz * 2 ^ 44 + r.wids)
  | 3 => r.user
  | 4 => BitVec.ofNat 64 (r.slptr * 2 ^ 16 + r.nsucc)
  | 5 => BitVec.ofNat 64 (r.inst * 2 ^ 48 + r.gen)
  | 6 => r.arg0
  | 7 => r.arg1
  | n => match lget r.opds ((n - 8) / 2) with
    | some (a, b) => if n % 2 = 0 then a else b
    | none => 0

/-- The fields of a successor entry (02 R36). -/
def succDev (e : Word) : Nat := bits e.toNat 54 10
/-- DIE of a successor entry. -/
def succDie (e : Word) : Nat := bits e.toNat 51 3
/-- REC of a successor entry. -/
def succRec (e : Word) : Nat := bits e.toNat 36 15
/-- FEDGE of a successor entry. -/
def succForward (e : Word) : Bool := flagOf e.toNat 35
/-- SEDGE of a successor entry. -/
def succSplice (e : Word) : Bool := flagOf e.toNat 34
/-- SENT of a successor entry. -/
def succSent (e : Word) : Bool := flagOf e.toNat 33
/-- TINST of a successor entry. -/
def succInst (e : Word) : Nat := bits e.toNat 16 16

/-- The successor list of a record (02 R36). -/
def State.successors (s : State) (d : Nat) (r : Record) : List Word := tgetD (s.die d).succs r.slptr []
/-- Sets SENT of entry `i` of a record's list (02 R36). -/
def State.setSent (s : State) (d : Nat) (r : Record) (i : Nat) : State :=
  let l := s.successors d r
  match lget l i with
  | some e => s.modDie d fun f => { f with succs := tput f.succs r.slptr (lset l i (e ||| BitVec.ofNat 64 (2 ^ 33))) }
  | none => s

/-! ### Sites and queues -/

/-- Whether (x, y) is a compute tile of the die (01 R15). -/
def State.computeAt (s : State) (d x y : Nat) : Bool :=
  decide (x < 12) && decide (y < 12) && (lget (s.die d).sites (siteOf x y)).getD 3 == 1
/-- Whether every site of a rectangle is a compute tile of the die (02 R37). -/
def State.rectCompute (s : State) (d bx by_ w h : Nat) : Bool :=
  decide (bx + w ≤ 12) && decide (by_ + h ≤ 12) &&
    (rectSites bx by_ w h).all fun t => s.computeAt d (siteX t) (siteY t)
/-- Whether a tile belongs to a region (02 R37). -/
def State.occupied (s : State) (d site : Nat) : Bool := (s.tile d site).task.isSome
/-- The 144 base sites in row-major order (01 R14). -/
def bases : List (Nat × Nat) := (List.range 144).map fun t => (siteX t, siteY t)

/-- The four bases of a task that has received a forward decrement (03 R68); a base off the die is skipped. -/
def forwardBases (p : Nat × Nat × Nat × Nat) (w h : Nat) : List (Nat × Nat) :=
  let (bx, by_, pw, ph) := p
  [(bx + pw, by_), (bx, by_ + ph)] ++ (if w ≤ bx then [(bx - w, by_)] else []) ++ (if h ≤ by_ then [(bx, by_ - h)] else [])

/-- The bases that a task is tested at, in order (03 R59, R68); a FROZEN task is placed again at any base (03 R69, 11 R265). -/
def Record.bases (r : Record) : List (Nat × Nat) :=
  match r.fwd && r.state != .frozen, r.producer with
  | true, some p => forwardBases p r.w r.h
  | _, _ => Machine.bases

/-- Whether some base of the task has all its sites among the compute tiles (03 R61). -/
def State.fits (s : State) (d : Nat) (r : Record) : Bool := r.bases.any fun b => s.rectCompute d b.1 b.2 r.w r.h

/-- The key of a ready queue (03 R56). -/
def queueKey (part : BitVec 4) (prio : Nat) : Nat := prio * 16 + part.toNat
/-- A ready queue of a die (03 R56). -/
def FDie.readyQueue (f : FDie) (part : BitVec 4) (prio : Nat) : List Nat := tgetD f.queues (queueKey part prio) []
/-- Removes a task from its ready queue. -/
def State.leaveQueue (s : State) (d n : Nat) (r : Record) : State :=
  s.modDie d fun f => { f with queues := tput f.queues (queueKey r.part r.prio) (sdel (f.readyQueue r.part r.prio) n) }

/-- A task joins its ready queue, at the head or the tail, or is parked and reported when its shape fits no rectangle of
the die (03 R56, R61). DESIGN CHOICE (log 77): a task that is parked while it holds the reservation keeps it, since R60 ends a reservation only
when its holder is placed or leaves READY. -/
def State.joinQueue (s : State) (d n : Nat) (head : Bool) : State :=
  match s.record d n with
  | none => s
  | some r =>
    if s.fits d r then
      (s.modRecord d n fun r => { r with parked := false }).modDie d fun f =>
        let q := sdel (f.readyQueue r.part r.prio) n
        { f with queues := tput f.queues (queueKey r.part r.prio) (if head then n :: q else q ++ [n]) }
    else
      ((s.leaveQueue d n r).modRecord d n fun r => { r with parked := true }).raiseEvent 2 d
        (BitVec.ofNat 64 (r.inst + n * 2 ^ 16 + d * 2 ^ 32)) 0

/-- A task enters READY (02 R48). -/
def State.enterReady (s : State) (d n : Nat) (head : Bool) : State :=
  (s.modRecord d n fun r => { r with state := .ready }).joinQueue d n head

/-- The reservation ends when its holder leaves READY (03 R60). -/
def State.dropReservation (s : State) (d n : Nat) : State :=
  s.modDie d fun f => match f.resv with
    | some v => if v.recNo = n then { f with resv := none } else f
    | none => f

/-! ### Decrement messages out -/

/-- The destination key of a dispatcher: device and die (03 R76). -/
def destKey (dev die : Nat) : Nat := dev * 8 + die

/-- Puts a decrement message on its way: on the package network, or as a UALink write to the peer dispatcher window (03
R75, 12 R277). -/
def State.transmit (s : State) (d dev die : Nat) (k : DecrKind) (m : DecrMsg) : State :=
  let (w0, w1) := encodeDecr k m
  if dev = s.plinth.podId then
    { s with net := s.net ++ [⟨opcDecr, 0, { Packet.zero with src := d, dst := die, ndf := 1 }, w0, w1, d, d, 0⟩] }
  else s.ualink d dev none none ⟨0, 0, 0xFF00000000 + 0x1000 * die, .write, 64, toBytes w0.toNat 8 ++ toBytes w1.toNat 8 ++ List.replicate 48 0,
    List.replicate 64 true, 0, 0, false, false⟩

/-- The difference of two sequence numbers, read as signed (03 R77). -/
def seqDiff (a b : Nat) : Int := (BitVec.ofNat 32 a - BitVec.ofNat 32 b).toInt
/-- The kept messages of a dispatcher toward one destination, oldest first. -/
def State.keptTo (s : State) (d dev die : Nat) : List Kept := (s.die d).kept.filter fun k => k.dev == dev && k.die == die
/-- Whether a message of some sequence number may be on its way: it lies within 64 of the oldest unacknowledged one, so that this one is never
stale (03 R76, R77). -/
def inWindowOf (l : List Kept) (seq : Nat) : Bool :=
  match l with
  | [] => true
  | k :: _ => decide (seqDiff seq k.msg.seq < 64)

/-- Sends a message under the sender's sequence: it is kept until it is acknowledged, and goes out at once unless it lies 64 or more beyond the
oldest unacknowledged one to that dispatcher (03 R76, R77). -/
def State.sendMessage (s : State) (d dev die : Nat) (k : DecrKind) (m : DecrMsg) : State :=
  let f := s.die d
  let seq := tgetD f.seqOut (destKey dev die) 1
  let next := if seq = 0xFFFFFFFF then 1 else seq + 1
  let m := { m with sdev := s.plinth.podId, sdie := d, seq := seq }
  let open_ := inWindowOf (s.keptTo d dev die) seq
  let s := s.modDie d fun f => { f with seqOut := tput f.seqOut (destKey dev die) next, kept := f.kept ++ [⟨dev, die, k, m⟩] }
  if open_ then s.transmit d dev die k m else s

/-- Sends the decrement of successor entry `i` of a record unless it has been sent; a forward decrement carries the
producer's region (02 R36, 03 R66, R75). -/
def State.sendDecrement (s : State) (d n i : Nat) (forward : Bool) : State :=
  match s.record d n with
  | none => s
  | some r =>
    match lget (s.successors d r) i with
    | none => s
    | some e =>
      if succSent e then s
      else
        let m : DecrMsg := ⟨0, 0, succInst e, 0, succRec e, if forward then r.bx else 0, if forward then r.by_ else 0,
          if forward then r.w else 0, if forward then r.h else 0⟩
        (s.setSent d r i).sendMessage d (succDev e) (succDie e) (if forward then .forward else .decrement) m

/-! ### Issue of a task's region -/

/-- RGNB of a region (02 R38). -/
def regionWord (d bx by_ w h : Nat) : Word := BitVec.ofNat 64 (d * 2 ^ 16 + h * 2 ^ 12 + w * 2 ^ 8 + by_ * 16 + bx)

/-- WID at start (02 R46): each value cut to its field. -/
def startWid (wids inst rec y x strand : Nat) (user : Word) : Word :=
  let put := fun (acc : Nat × Nat) (f : Nat × Nat) => (acc.1 + f.2 % 2 ^ f.1 * 2 ^ acc.2, acc.2 + f.1)
  BitVec.ofNat 64 (([(bits wids 0 7, inst), (bits wids 7 7, rec), (bits wids 14 7, y), (bits wids 21 7, x), (bits wids 28 7, strand),
    (bits wids 35 7, user.toNat)].foldl put (0, 0)).1)

/-- A strand at the start of its task (02 R43). -/
def startStrand (r : Record) (rec y x n : Nat) : Strand :=
  { Strand.init with
    x := ((Vector.replicate 32 0).set 1 r.arg0).set 2 r.arg1
    wid := startWid r.wids r.inst rec y x n r.user
    run := .run }

/-! ### The end of a task -/

/-- Where a fault struck: the WID, tile and strand of the fault record (11 R256). -/
structure FaultAt where
  wid : Word
  tx : Nat
  ty : Nat
  strand : Nat
  deriving DecidableEq, Repr, Inhabited

/-- A fault with no strand. -/
def FaultAt.none : FaultAt := ⟨0, 0, 0, 0⟩

/-- Writes a fault record and raises its event (11 R256, 12 R274). -/
def State.faultRecord (s : State) (d : Nat) (r : Record) (c : Report) (w : FaultAt) : State :=
  let seq := (s.die d).faultSeq + 1
  (s.modDie d fun f => { f with
    faults := (⟨r.pseq, r.gen, c.cause, c.detail, c.eval, w.wid, w.tx, w.ty, w.strand, seq, false⟩ :: f.faults).take 1024,
    faultSeq := seq }).raiseEvent 6 d (BitVec.ofNat 64 d) (BitVec.ofNat 64 seq)

/-- Closes the task's placement log entry with the state in which it left the region (03 R62). No forward port is bound to the task any more, nor its
own to a consumer, unless it is FROZEN (03 R67, R69). -/
def State.closePlace (s : State) (d n : Nat) (st cause : Nat) : State :=
  let unbind := fun (e : Nat × Record) => if st ≠ 6 ∧ (e.2.bound = some n ∨ e.1 = n) then { e.2 with bound := none } else e.2
  s.modDie d fun f => { f with
    records := f.records.map fun e => (e.1, unbind e)
    places := f.places.map fun e => if e.recNo = n ∧ e.endState = 0 then { e with endState := st, cause := cause } else e }

/-- A tile that its region has left: what stays is the scratchpad with its tags, and tagged translations (10 R246, R252). -/
def Tile.vacate (t : Tile) : Tile :=
  { Tile.init with spad := t.spad, spadTag := t.spadTag, spadPsn := t.spadPsn, utlb := t.utlb, cycle := t.cycle }

/-- The sites that an operand descriptor stages into (02 R35). -/
def Record.operandSites (r : Record) (b : Word) : List Nat :=
  if flagOf b.toNat 55 then r.sites else [siteOf (r.bx + bits b.toNat 60 4) (r.by_ + bits b.toNat 56 4)]
/-- The handle of an operand descriptor (02 R35). -/
def operandHandle (b : Word) : Nat := bits b.toNat 48 7

/-- Returns to FREE the handles that a task's staging copies have moved out of it, and cancels those copies (03 R65). -/
def State.unstage (s : State) (d n : Nat) (r : Record) : State :=
  let begun := fun (b : Word) =>
    match ((r.operandSites b).head?).bind fun y => (s.tile d y).jobs.find? fun j => j.staging == some n && j.desc.dh == operandHandle b with
    | some j => j.done != 0
    | none => r.state != .placed
  let s := s.over (r.opds.filter fun o => begun o.2) fun o s => s.over (r.operandSites o.2) fun y s =>
    s.modTile d y fun t => { t with handles := tdel t.handles (operandHandle o.2) }
  let gone := r.sites.flatMap fun y => ((s.tile d y).jobs.filter fun j => j.staging == some n).map (·.id)
  s.over r.sites fun y s => s.modTile d y fun t =>
    gone.foldl (fun t id => t.settleRaces (.engine (8 + id))) { t with jobs := t.jobs.filter fun j => j.staging != some n }

/-- A spliced successor leaves its tile before it runs (03 R65, R74). -/
def Tile.dropSuccessor (t : Tile) : Tile :=
  { t with succ := none, gen2 := none, codeLen2 := 0, shadow := .notLoaded }

/-- A spliced successor fails while the boundary is partly complete: the PEs that have switched fire nothing more, the
others never switch (03 R74). -/
def Tile.haltSuccessor (t : Tile) : Tile :=
  { t.dropSuccessor with
    splicing := false, pes := t.pes.map fun e => if e.2.switched || t.bndDone then (e.1, { e.2 with ended := true }) else e }

/-- Whether an access is one that a stop of its region removes: a read, a translation, or an operation that waits. A
store or atomic on its way is performed (11 R264, 04 R94), and so is an EQPUT whose entry is being written (03 R80). -/
def Access.removed (a : Access) : Bool :=
  match a.phase with
  | .walk | .page | .waiter | .retry | .translate | .held | .scratch => true
  | .ring => !isPut a.op
  | .window => !a.writes || isEdge a.op
  | .cache | .uncached | .serial | .remote | .host | .drained => !a.writes

/-- Removes the accesses and reports of a tile's agents (03 R80, 11 R267). What comes for them later is dropped and counted (02 R51, 10
R253). -/
def State.clearTile (s : State) (d site : Nat) : State :=
  let mine := fun (g : Agent) => g.place == (d, site)
  let s := s.forget fun a => mine a.agent && a.removed
  { s with reports := s.reports.filter fun r => !mine r.1 }

/-- Frees a region's tiles; a placement pass follows (02 R48, 03 R58, 06 R143). -/
def State.vacateRegion (s : State) (d : Nat) (sites : List Nat) : State :=
  State.modDie (s.over sites fun t s => (s.clearTile d t).modTile d t Tile.vacate) d fun f => { f with freed := true }

/-- Takes the dispatcher's own reads for a task out of flight. -/
def State.dropReads (s : State) (d n : Nat) : State := s.forget fun a => a.agent == Agent.dispatcher d n

/-- Whether a spliced successor has entered RUNNING: it runs, or its pair froze in mid-splice and is being restored (03 R74). -/
def Record.begun (r : Record) : Bool := r.state == .running || r.restore
/-- A spliced successor leaves the region of its predecessor: before it runs it frees what it has staged; one that has run fires nothing
more (03 R65, R74). -/
def State.dropSpliced (s : State) (d n : Nat) (r : Record) : State :=
  let s := if r.begun then s else s.unstage d n r
  s.over r.sites fun y s => s.modTile d y fun x =>
    if x.succ = some n then (if r.begun then x.haltSuccessor else x.dropSuccessor) else x
/-- The image of a pair that froze in mid-splice, once its successor has failed: the PEs that have switched fire nothing more, and the others never
switch (03 R74). -/
def Record.haltImage (r : Record) : Record := { r with image := r.image.map fun x => { x with tile := x.tile.haltSuccessor } }

/-- Whether the successor `q` of task `n` is RUNNING and its boundary complete in every tile (03 R72, R73). -/
def State.boundaryDone (s : State) (d n q : Nat) : Bool :=
  match s.record d q with
  | some x => x.pred == some n && x.state == .running && x.sites.all fun y => (s.tile d y).bndDone
  | none => false

/-- A tile whose spliced successor takes over from the predecessor: its strands start in the successor's own code half, its stream engines are
IDLE with the successor's words that wait at their ports, no copy is left but those that stage for the successor, and the handles that the
predecessor's retirement unbinds are those the successor has not staged (03 R71, R73, 02 R43, 06 R143, R156, R157, 17 R387). -/
def Tile.handOver (t : Tile) (site q : Nat) (r : Record) : Tile :=
  { t with
    streams := t.streams.map fun e => (e.1, { Stream.init with port := e.2.port })
    handles := t.handles.filter fun e => r.opds.any fun o => operandHandle o.2 == e.1 && (r.operandSites o.2).contains site
    jobs := t.jobs.filter (·.staging.isSome), races := [], hwaits := []
    queues := t.queues.map fun e => (e.1, e.2.map fun k => { k with tpl := none })
    strands := Vector.ofFn fun k => startStrand r q (t.relY site) (t.relX site) k.val, widw := BitVec.ofNat 64 r.wids, gen := r.gen, gen2 := none,
    task := some q, succ := none, half := !t.half, codeLen := t.codeLen2, codeLen2 := 0, inbuf := [], credits := 16, requests := [], zsc := false,
    sat := false, rnd := 0, l1 := [], caps := [], capNext := 0, cmdq := [], templates := [], gridCmds := [],
    island := { Island.init with lanes := t.island.lanes }, bndDone := false }

/-- A place of an output queue that holds a word of a predecessor for a stream port. -/
def OutPlace.stale (o : OutPlace) : Bool := routeKind o.route == 3 && o.word.any (·.old)
/-- The words that a retiring predecessor's planes wrote for the stream ports of a tile are discarded, with their credits (06 R156). -/
def State.dropOldWords (s : State) (d y : Nat) : State :=
  let t := s.tile d y
  let taken := t.streams.flatMap fun e => (e.2.port.filter (·.word.old)).map (·.src)
  let way := (t.routes.filter (·.word.old)).map fun x => Source.route y x.pe x.q
  (s.modTile d y fun t => { t with
    streams := t.streams.map fun e => (e.1, { e.2 with port := e.2.port.filter fun w => !w.word.old })
    routes := t.routes.filter fun x => !x.word.old
    pes := t.pes.map fun e => (e.1, { e.2 with outq := e.2.outq.map fun l => l.filter fun o => !o.stale }) }).over (taken ++ way) fun x s =>
      s.returnCredit d y x

/-- The consumers that a predecessor's copies have begun end with them, without REL (06 R144). -/
def State.dropConsumers (s : State) (d y : Nat) : State :=
  let t := s.tile d y
  s.over (t.jobs.filter fun j => j.staging.isNone && j.acquired) fun j s => s.modTile d (t.siteAt j.desc.sx j.desc.sy) fun x =>
    let e := x.handle j.desc.sh
    x.setHandle j.desc.sh { e with rd := e.rd - 1 }

/-- The predecessor's strands end and the successor's start in every tile of the region (03 R73). -/
def State.handOver (s : State) (d n q : Nat) : State :=
  match s.record d q with
  | none => s
  | some r =>
    let old := (s.record d n).elim 0 Record.gen
    let mine := fun (g : Agent) => match g with
      | .strand e t _ | .stream e t _ | .copy e t _ => e == d && r.sites.contains t
      | .pe _ _ _ _ | .dispatcher _ _ | .tile _ | .routed _ _ _ => false
    let s := s.forget fun a => mine a.agent && a.gen == old && a.removed
    let s := (s.over r.sites fun y s => s.dropConsumers d y).over r.sites fun y s => s.dropOldWords d y
    let s := { s with reports := s.reports.filter fun x => !mine x.1 }
    ((s.over r.sites fun y s => s.modTile d y fun t => t.handOver y q r).modRecord d q fun x => { x with pred := none }).modRecord d n
      fun x => { x with succRec := none }

/-- Returns a task's freeze slots to the pool (11 R264). -/
def State.freeImage (s : State) (d n : Nat) : State :=
  match s.record d n with
  | none => s
  | some r =>
    let slots := r.image.filterMap (·.slot)
    { s.modRecord d n fun r => { r with image := [], frz := false, restore := false } with
      freezePool := s.freezePool.map fun f => if slots.contains f.pa then { f with used := false } else f }

/-- Writes a completion into the completion ring (12 R271). -/
def State.postCompletion (s : State) (c : Completion) : State :=
  let p := s.plinth
  let a := p.cplBase + p.cplTail % p.cplSize * 32
  let m := mwrite s.hostMem a 8 (c.opc * 2 ^ 56 + c.status * 2 ^ 48 + c.seq)
  { s with hostMem := mwrite (mwrite (mwrite m (a + 8) 8 c.res0.toNat) (a + 16) 8 c.res1.toNat) (a + 24) 8 p.lastTs.toNat,
           plinth := { p with cplTail := p.cplTail + 1 } }

/-- Whether the Plinth may write a completion: the port is up and an entry is free (12 R270, R272). -/
def Plinth.mayPost (p : Plinth) : Bool := p.golfyUp && decide (p.cplTail - p.cplHead < p.cplSize)

/-- Writes the completions that wait, oldest first, while entries are free (12 R272). -/
def State.postCompletions (s : State) : List Completion → State
  | [] => s.modPlinth fun p => { p with cplQueue := [] }
  | c :: rest => if s.plinth.mayPost then (s.postCompletion c).postCompletions rest else s.modPlinth fun p => { p with cplQueue := c :: rest }

/-- Completes a host command: its completion and those of its replays wait for the completion ring, and its status is kept (12 R271,
R272). -/
def State.complete (s : State) (opc seq status : Nat) (r0 r1 : Word) : State :=
  let c : Completion := ⟨opc, status, seq, r0, r1⟩
  let p := s.plinth
  let extra := (p.replays.filter fun n => n == seq).length
  let s := s.modPlinth fun p => { p with
    statuses := (c :: p.statuses.filter fun e => e.seq != seq).take 1024
    replays := p.replays.filter fun n => n != seq
    progress := p.progress.filter fun g => g.seq != seq }
  s.postCompletions (p.cplQueue ++ List.replicate (extra + 1) c)

/-- Answers a FREEZE command that waits for this record (12 R273). -/
def State.answerFreeze (s : State) (d n status : Nat) : State :=
  match s.plinth.progress with
  | some g => if g.opc = 8 ∧ g.waitDie = d ∧ g.waitRec = n then s.complete 8 g.seq status 0 0 else s
  | none => s

/-- Moves one task to FAILED, with no effect on its instance's other tasks: the fault record, the log, its region or its
image, its queue, its reservation, a FREEZE that waits for it (02 R48, 03 R71, R74, 11 R256, R267). -/
def State.failOne (s : State) (d n : Nat) (c : Report) (w : FaultAt) : State :=
  match s.record d n with
  | none => s
  | some r =>
    if r.state.final ∨ r.reserved then s
    else
      let log := !(c.cause == 0x10 && (r.state == .dormant || r.state == .ready))
      let s := if log then s.faultRecord d r c w else s
      let s := (s.closePlace d n 8 c.cause).dropReads d n
      let s := s.leaveQueue d n r
      let s := s.dropReservation d n
      let s := s.freeImage d n
      let s := if r.state.holdsRegion then
          match r.pred with
          | some _ => s.dropSpliced d n r
          | none => match r.succRec with
            | some q => if s.boundaryDone d n q then s.handOver d n q else s.vacateRegion d r.sites
            | none => s.vacateRegion d r.sites
        else s
      let s := match r.pred with
        | some q => s.modRecord d q Record.haltImage
        | none => s
      let s := s.modDie d fun f => { f with
        records := f.records.map fun e => (e.1, if e.2.succRec = some n then { e.2 with succRec := none, splSent := false } else e.2) }
      let s := match r.succRec with
        | some q => if r.splSent then s.modRecord d q fun x => { x with splFailed := true } else s
        | none => s
      let s := s.modRecord d n fun x => { x with state := .failed, fcause := c.cause, endReq := .none, pred := none, codeResident := false }
      s.answerFreeze d n 2

/-- The records of an instance (02 R30). -/
def Inst.records (i : Inst) : List (Nat × Nat) := i.runs.flatMap fun x => (List.range x.2.2).map fun k => (x.1, x.2.1 + k)

/-- Keeps the status of a retired instance: for one that GINST created its die, 256 for each partition (18 R438); for one that INST created
the command window, where the host receives it (02 R32, log 80). -/
def State.keepStatus (s : State) (inst : Nat) (i : Inst) : State :=
  match i.byDie with
  | none => s.modPlinth fun p => { p with hostStatus := p.hostStatus ++ [(inst, if i.failed then 2 else 1, if i.failed then i.cause else 0)] }
  | some d => s.modDie d fun f =>
    let rest := f.instStatus.filter fun e => e.1 != inst
    let same := (rest.filter fun e => e.2.1 == i.part).take 255
    { f with instStatus := (inst, i.part, if i.failed then 2 else 1, if i.failed then i.cause else 0) ::
        (rest.filter fun e => e.2.1 != i.part) ++ same }

/-- An instance whose tasks are all final retires: its records, successor lists and blocks are freed (02 R32). -/
def State.retireInstance (s : State) (inst : Nat) : State :=
  match tget s.insts inst with
  | none => s
  | some i =>
    if i.reserved.isNone && i.records.all fun x => match s.record x.1 x.2 with
        | some r => r.state.final
        | none => true
    then
      let s := s.over i.records fun x s => s.modDie x.1 fun f => { f with
        succs := (match tget f.records x.2 with | some r => tdel f.succs r.slptr | none => f.succs),
        records := tdel f.records x.2 }
      let giveBack := fun (p : Tbl Pool) (b : Nat × Nat) =>
        let q := tgetD p b.1 ⟨0, []⟩
        tput p b.1 { q with free := q.free ++ [b.2] }
      let s := { s with pools := i.blocks.foldl giveBack s.pools, insts := tdel s.insts inst }
      s.keepStatus inst i
    else s

/-- The abort messages of an instance: one to each peer dispatcher window that its remote successor entries name (02 R31). DESIGN CHOICE
(log 78): the dispatcher of the die of the instance's first run sends them, under its own sequence counters. -/
def State.sendAborts (s : State) (inst : Nat) : State :=
  match tget s.insts inst with
  | none => s
  | some i =>
    let own := s.plinth.podId
    let targets := i.records.flatMap fun x => match s.record x.1 x.2 with
      | some r => ((s.successors x.1 r).filter fun e => succDev e != own).map fun e => (succDev e, succDie e, succInst e)
      | none => []
    match i.runs with
    | [] => s
    | (d, _, _) :: _ => s.over targets.eraseDups fun t s =>
        s.sendMessage d t.1 t.2.1 .abort ⟨0, 0, t.2.2, 0, 0, 0, 0, 0, 0⟩

/-- A task that is to fail: its report, the place of its fault record, and whether it fails by a fault of its own, which brings its instance's
failure policy into effect (02 R31, 03 R74). -/
structure Failing where
  die : Nat
  recNo : Nat
  report : Report
  place : FaultAt
  own : Bool
  deriving DecidableEq, Repr, Inhabited

/-- A task of an instance fails: the instance is marked with the cause of its first failure, and its policy names the other tasks that fail
with KILL. Under ABORT, or when `force` aborts it, every task; under DRAIN those that do not run, and those that run send no decrements more
(02 R31). DESIGN CHOICE (log 79): an instance that is aborted by force, as a host KILL does, sends its abort messages under either policy. -/
def State.instanceFails (s : State) (inst cause : Nat) (force : Bool) : State × List Failing :=
  match tget s.insts inst with
  | none => (s, [])
  | some i =>
    let s := { s with insts := tput s.insts inst { i with failed := true, cause := if i.failed then i.cause else cause } }
    if i.failed && !force then (s, [])
    else
      let abort := force || i.policy == 0
      let spared := fun (x : Nat × Nat) => !abort && (match s.record x.1 x.2 with
        | some r => r.state == .running || r.state == .frozen
        | none => false)
      let s := if abort then s.sendAborts inst else s
      (s.over (i.records.filter spared) fun x s => s.modRecord x.1 x.2 fun r => { r with noDecr := true },
        (i.records.filter fun x => !spared x).map fun x => ⟨x.1, x.2, ⟨0x10, 0, 0⟩, FaultAt.none, false⟩)

/-- The spliced successor that a failing task takes with it by a fault of its own: one whose boundary is not complete (03 R74). -/
def State.takenAlong (s : State) (d n : Nat) (r : Record) : List Failing :=
  match r.succRec with
  | some q => match s.record d q with
    | some x => if x.pred = some n ∧ !s.boundaryDone d n q then [⟨d, q, ⟨0x10, 0, 0⟩, FaultAt.none, true⟩] else []
    | none => []
  | none => []

/-- Makes tasks fail, and those that fail because of them, in order; one that has a failure of its own on the list keeps its cause (11 R269); the
instances that are then at an end retire (02 R31, R32, 03 R74). The first number bounds the failures. -/
def State.failLoop (s : State) : Nat → List Failing → List Nat → State
  | 0, _, insts => s.over insts fun i s => s.retireInstance i
  | _ + 1, [], insts => s.over insts fun i s => s.retireInstance i
  | k + 1, x :: rest, insts => match s.record x.die x.recNo with
    | none => s.failLoop k rest insts
    | some r =>
      if r.state.final ∨ r.reserved then s.failLoop k rest insts
      else
        let along := (s.takenAlong x.die x.recNo r).filter fun y => !rest.any fun z => z.die == y.die && z.recNo == y.recNo
        let s := s.failOne x.die x.recNo x.report x.place
        let (s, more) := if x.own then s.instanceFails r.inst x.report.cause false else (s, [])
        s.failLoop k (along ++ rest ++ more) (sput insts r.inst)

/-- Makes tasks fail; each task fails once, and each brings at most two more to the list. -/
def State.failAll (s : State) (l : List Failing) : State :=
  s.failLoop (l.length + 2 * (s.dies.toList.map fun f => f.records.length).sum + 1) l []

/-- A task fails: it, its spliced successor before the boundary completes, and under its instance's policy the other tasks; then the instance
may retire (02 R31, R32, R48, 03 R74). -/
def State.failTask (s : State) (d n : Nat) (c : Report) (w : FaultAt) : State := s.failAll [⟨d, n, c, w, true⟩]

/-- Tasks fail with a report and their instances abort, the other tasks with KILL, whatever the policy (11 R262, R269). -/
def State.abortAll (s : State) (tasks : List (Nat × Nat)) (c : Report) : State :=
  let insts := (tasks.filterMap fun x => (s.record x.1 x.2).map Record.inst).eraseDups
  let (s, more) := insts.foldl (fun x i => let (s, l) := x.1.instanceFails i c.cause true; (s, x.2 ++ l)) (s, [])
  s.failAll (tasks.map (fun x => ⟨x.1, x.2, c, FaultAt.none, false⟩) ++ more)
/-- Aborts the instance of a task, which fails with a report of its own (11 R262). -/
def State.abortWith (s : State) (d n : Nat) (c : Report) : State := s.abortAll [(d, n)] c

/-- Kills every task of an instance (02 R48, 12 R273). -/
def State.killInstance (s : State) (inst : Nat) : State :=
  let (s, l) := s.instanceFails inst 0x10 true
  s.failAll l

/-- The number of sites a region has. -/
def Record.area (r : Record) : Nat := r.w * r.h

end Sys2Proof.Machine
end

