-- ==== Sys2Proof/Machine/Flags.lean ====
section
/-! DEFINITION. Conditions, predicates and sticky flags (14 R295, 04 R84, R103). -/
namespace Sys2Proof.Machine

/-- A comparison of two words, signed, or unsigned with `u` (14 R295). -/
def condHolds (c : Cond) (u : Bool) (a b : Word) : Bool :=
  let lt := if u then a.ult b else a.slt b
  match c with
  | .eq => a == b
  | .ne => a != b
  | .lt => lt
  | .le => lt || a == b
  | .gt => !(lt || a == b)
  | .ge => !lt

/-- Reads a predicate; p0 reads as true (04 R84). -/
def predGet (p : BitVec 8) (n : Nat) : Bool := n == 0 || p.getLsbD n
/-- Writes a predicate; a write to p0 is discarded (04 R84). -/
def predSet (p : BitVec 8) (n : Nat) (v : Bool) : BitVec 8 :=
  if n = 0 then p else if v then p ||| (1#8 <<< n) else p &&& ~~~(1#8 <<< n)
/-- The eight predicates as a byte, p0 true (04 R84). -/
def predByte (p : BitVec 8) : BitVec 8 := p ||| 1

/-- PLOG's operations (14 R295). -/
def predOp (o : PredOp) (a b : Bool) : Bool :=
  match o with
  | .and => a && b
  | .or => a || b
  | .xor => a != b
  | .andn => a && !b
  | .orn => a || !b
  | .not => !a

/-- Sets the sticky flag SAT of a tile when `b` holds; hardware never clears it (04 R103). -/
def Tile.orSat (t : Tile) (b : Bool) : Tile := { t with sat := t.sat || b }
/-- Sets the sticky flag ZSC of a tile when `b` holds; hardware never clears it (04 R103). -/
def Tile.orZsc (t : Tile) (b : Bool) : Tile := { t with zsc := t.zsc || b }

end Sys2Proof.Machine
end

