-- ==== Sys2Proof/Machine/Float.lean ====
section
/-! DEFINITION. Number formats, exact values, rounding and conversion, and the floating lane operations (07 R165 to R186, 16 R357). -/
namespace Sys2Proof.Machine

/-! ### Formats and values -/

/-- A rounding mode: the four of RNDM, and stochastic with its 32-bit random value (07 R176, R178). -/
inductive Rounding where
  | nearest | zero | up | down | stochastic (r : Nat)
  deriving DecidableEq, Repr, Inhabited

/-- MODE of RNDM (04 R104). -/
def Rounding.ofMode (m : BitVec 3) : Rounding :=
  match m.toNat with
  | 1 => .zero | 2 => .up | 3 => .down | _ => .nearest

/-- The formats, 0 to 10 coded as FMT (05 R123), then E8M0, UE4M3 (15 R350) and ACC48 (07 R165). -/
inductive Format where
  | f32 | bf16 | f16 | i32 | i16 | i8 | i64 | e4m3 | e5m2 | e2m1 | i4 | e8m0 | ue4m3 | acc48
  deriving DecidableEq, Repr, Inhabited

/-- The format of a code, none beyond 12. -/
def Format.ofCode : Nat → Option Format
  | 0 => some .f32 | 1 => some .bf16 | 2 => some .f16 | 3 => some .i32 | 4 => some .i16 | 5 => some .i8 | 6 => some .i64
  | 7 => some .e4m3 | 8 => some .e5m2 | 9 => some .e2m1 | 10 => some .i4 | 11 => some .e8m0 | 12 => some .ue4m3 | _ => none

/-- The width of a format in bits (07 R165 to R167). -/
def Format.width : Format → Nat
  | .f32 => 32 | .bf16 => 16 | .f16 => 16 | .i32 => 32 | .i16 => 16 | .i8 => 8 | .i64 => 64 | .e4m3 => 8 | .e5m2 => 8 | .e2m1 => 4
  | .i4 => 4 | .e8m0 => 8 | .ue4m3 => 8 | .acc48 => 48
/-- Whether a format is an integer format (07 R166). -/
def Format.isInt : Format → Bool
  | .i32 | .i16 | .i8 | .i64 | .i4 => true
  | .f32 | .bf16 | .f16 | .e4m3 | .e5m2 | .e2m1 | .e8m0 | .ue4m3 | .acc48 => false
/-- Mantissa bits of a floating format (07 R165). -/
def Format.mant : Format → Nat
  | .f32 => 23 | .bf16 => 7 | .f16 => 10 | .e4m3 => 3 | .e5m2 => 2 | .e2m1 => 1 | .ue4m3 => 3 | .acc48 => 39
  | .i32 | .i16 | .i8 | .i64 | .i4 | .e8m0 => 0
/-- Exponent bits of a floating format (07 R165). -/
def Format.exp : Format → Nat
  | .f32 => 8 | .bf16 => 8 | .f16 => 5 | .e4m3 => 4 | .e5m2 => 5 | .e2m1 => 2 | .ue4m3 => 4 | .acc48 => 8
  | .i32 | .i16 | .i8 | .i64 | .i4 | .e8m0 => 0
/-- The exponent bias (07 R165). -/
def Format.bias : Format → Nat
  | .f32 => 127 | .bf16 => 127 | .f16 => 15 | .e4m3 => 7 | .e5m2 => 15 | .e2m1 => 1 | .ue4m3 => 7 | .acc48 => 127
  | .i32 | .i16 | .i8 | .i64 | .i4 | .e8m0 => 0
/-- Whether a format has infinities and NaN payloads (07 R165). -/
def Format.ieee : Format → Bool
  | .f32 | .bf16 | .f16 | .e5m2 | .acc48 => true
  | .e4m3 | .e2m1 | .ue4m3 | .e8m0 | .i32 | .i16 | .i8 | .i64 | .i4 => false

/-- An exact value: a NaN with its sign and a mantissa of some width, an infinity, or (−1)^s·m·2^e. -/
inductive Val where
  | nan (s : Bool) (m w : Nat)
  | inf (s : Bool)
  | fin (s : Bool) (m : Nat) (e : Int)
  deriving DecidableEq, Repr, Inhabited

/-- A finite value from an integer numerator. -/
def Val.ofInt (n : Int) (e : Int) : Val := .fin (decide (n < 0)) n.natAbs e
/-- The numerator of a finite value as an integer. -/
def signed (s : Bool) (m : Nat) : Int := if s then -(m : Int) else m

/-- The value of a code (07 R165 to R167). -/
def decodeVal (f : Format) (c : Nat) : Val :=
  let c := c % 2 ^ f.width
  if f.isInt then Val.ofInt (BitVec.ofNat f.width c).toInt 0
  else if f = .e8m0 then (if c = 255 then .nan false 1 1 else .fin false 1 ((c : Int) - 127))
  else
    let s := c.testBit (f.width - 1)
    let e := bits c f.mant f.exp
    let m := bits c 0 f.mant
    if f = .ue4m3 ∧ (s ∨ c = 0x7F) then .nan false 7 3
    else if f = .e4m3 ∧ c % 128 = 0x7F then .nan s 7 3
    else if f.ieee ∧ e = 2 ^ f.exp - 1 then (if m = 0 then .inf s else .nan s m f.mant)
    else if e = 0 then .fin s m (1 - (f.bias : Int) - f.mant)
    else .fin s (m + 2 ^ f.mant) ((e : Int) - f.bias - f.mant)

/-! ### Rounding -/

/-- The integer nearest to m·2^(−sh) in a mode; `s` is the sign of the value (07 R176, R178). -/
def roundShift (r : Rounding) (s : Bool) (m : Nat) (sh : Int) : Nat :=
  match sh with
  | .negSucc n => m * 2 ^ (n + 1)
  | .ofNat k =>
    let q := m / 2 ^ k
    let d := m % 2 ^ k
    match r with
    | .nearest => if 2 * d > 2 ^ k ∨ (2 * d = 2 ^ k ∧ q % 2 = 1) then q + 1 else q
    | .zero => q
    | .up => if d ≠ 0 ∧ !s then q + 1 else q
    | .down => if d ≠ 0 ∧ s then q + 1 else q
    | .stochastic x =>
      let k' := min k 32
      if 2 ^ k' ≤ d / 2 ^ (k - k') + x % 2 ^ 32 / 2 ^ (32 - k') ∧ d ≠ 0 then q + 1 else q

/-- The magnitude code of a rounded finite value in a floating format, its exponent unbounded above (07 R173). -/
def roundCode (f : Format) (r : Rounding) (s : Bool) (m : Nat) (e : Int) : Nat :=
  if m = 0 then 0
  else
    let qmin : Int := 1 - f.bias - f.mant
    let q := max (e + (Nat.log2 m : Int) - f.mant) qmin
    roundShift r s m (q - e) + (q - qmin).toNat * 2 ^ f.mant

/-- The largest finite magnitude code (07 R165). -/
def Format.maxCode (f : Format) : Nat :=
  match f with
  | .e4m3 => 0x7E | .ue4m3 => 0x7E | .e2m1 => 7
  | .f32 | .bf16 | .f16 | .e5m2 | .acc48 | .i32 | .i16 | .i8 | .i64 | .i4 | .e8m0 => (2 ^ f.exp - 1) * 2 ^ f.mant - 1
/-- The sign bit of a format. -/
def Format.signBit (f : Format) (s : Bool) : Nat := if s then 2 ^ (f.width - 1) else 0
/-- The code of infinity. -/
def Format.infCode (f : Format) (s : Bool) : Nat := f.signBit s + (2 ^ f.exp - 1) * 2 ^ f.mant
/-- The default NaN of a format (07 R177). -/
def Format.defaultNan (f : Format) : Nat :=
  match f with
  | .e4m3 => 0x7F | .ue4m3 => 0x7F | .e8m0 => 0xFF
  | .f32 | .bf16 | .f16 | .e5m2 | .acc48 | .e2m1 | .i32 | .i16 | .i8 | .i64 | .i4 =>
    (2 ^ f.exp - 1) * 2 ^ f.mant + 2 ^ (f.mant - 1)

/-- An integer settled into an integer format, saturating (07 R173). -/
def settleInt (f : Format) (n : Int) : Nat × Bool :=
  let lo : Int := -(2 ^ (f.width - 1))
  let hi : Int := 2 ^ (f.width - 1) - 1
  let put := fun (v : Int) => (BitVec.ofInt f.width v).toNat
  if n < lo then (put lo, true) else if hi < n then (put hi, true) else (put n, false)

/-- A positive finite value to E8M0 (07 R174). -/
def toE8m0 (r : Rounding) (m : Nat) (e : Int) : Nat × Bool :=
  let k := e + Nat.log2 m
  let exact := m == 2 ^ Nat.log2 m
  let twice := 2 * m
  let mid := 3 * 2 ^ Nat.log2 m
  let n : Int := match r with
    | .zero | .down => k
    | .up => if exact then k else k + 1
    | .nearest | .stochastic _ => if twice < mid then k else if mid < twice then k + 1 else if (k + 127) % 2 = 0 then k else k + 1
  let c := n + 127
  if c < 0 then (0, true) else if 254 < c then (254, true) else (c.toNat, false)

/-- A NaN moved into a format (07 R172). -/
def nanCode (f : Format) (s : Bool) (m w : Nat) : Nat × Bool :=
  if f.ieee then
    let t := if w ≤ f.mant then m * 2 ^ (f.mant - w) else m / 2 ^ (w - f.mant)
    (f.infCode s + (if t = 0 then 1 else t), false)
  else match f with
    | .e4m3 => (f.signBit s + 0x7F, false)
    | .ue4m3 => (0x7F, false)
    | .e8m0 => (0xFF, false)
    | .f32 | .bf16 | .f16 | .e5m2 | .acc48 | .e2m1 | .i32 | .i16 | .i8 | .i64 | .i4 => (0, true)

/-- Converts an exact value to a format: the code, and whether SAT is set (07 R172 to R174). -/
def toFormat (f : Format) (r : Rounding) (v : Val) : Nat × Bool :=
  match v with
  | .nan s m w => nanCode f s m w
  | .inf s =>
    if f.isInt then settleInt f (if s then -(2 ^ 200) else 2 ^ 200)
    else match f with
      | .e4m3 => (f.signBit s + 0x7F, false)
      | .e2m1 => (f.signBit s + 7, true)
      | .ue4m3 => if s then (0x7F, false) else (0x7E, true)
      | .e8m0 => (0xFF, false)
      | .f32 | .bf16 | .f16 | .e5m2 | .acc48 | .i32 | .i16 | .i8 | .i64 | .i4 => (f.infCode s, false)
  | .fin s m e =>
    if f.isInt then settleInt f (signed s (roundShift r s m (-e)))
    else if f = .e8m0 then (if s ∨ m = 0 then (0xFF, false) else toE8m0 r m e)
    else if f = .ue4m3 ∧ s ∧ m ≠ 0 then (0x7F, false)
    else
      let c := roundCode f r s m e
      let sign := if f = .ue4m3 then 0 else f.signBit s
      if c ≤ f.maxCode then (sign + c, false)
      else if f.ieee then
        (match r with
          | .zero => (sign + f.maxCode, false)
          | .up => (if s then sign + f.maxCode else f.infCode s, false)
          | .down => (if s then f.infCode s else sign + f.maxCode, false)
          | .nearest | .stochastic _ => (f.infCode s, false))
      else (sign + f.maxCode, true)

/-- Converts a code of one format to another; a code converted to its own format is copied (15 R350). -/
def convert (a b : Format) (r : Rounding) (c : Nat) : Nat × Bool :=
  if a = b then (c % 2 ^ a.width, false) else toFormat b r (decodeVal a c)

/-! ### Arithmetic on values -/

/-- Whether a value is a NaN. -/
def Val.isNan : Val → Bool
  | .nan _ _ _ => true
  | .inf _ => false
  | .fin _ _ _ => false
/-- A NaN with its quiet bit set (07 R182). -/
def Val.quiet : Val → Val
  | .nan s m w => .nan s (if m.testBit (w - 1) then m else m + 2 ^ (w - 1)) w
  | v => v
/-- The default NaN (07 R177). -/
def Val.default : Val := .nan false 1 1
/-- The value with its sign inverted. -/
def Val.negate : Val → Val
  | .nan s m w => .nan (!s) m w
  | .inf s => .inf (!s)
  | .fin s m e => .fin (!s) m e

/-- The first NaN of a list, quietened (07 R182). -/
def firstNan (l : List Val) : Option Val := (l.find? Val.isNan).map Val.quiet

/-- The exact sum of two values that are no NaN; an exact zero of two signs takes the sign of the mode (07 R181). -/
def addVal (r : Rounding) (a b : Val) : Val :=
  match a, b with
  | .inf s, .inf t => if s = t then .inf s else Val.default
  | .inf s, _ => .inf s
  | _, .inf t => .inf t
  | .fin s m e, .fin t n f =>
    let k := min e f
    let x := signed s m * 2 ^ (e - k).toNat + signed t n * 2 ^ (f - k).toNat
    if x = 0 then .fin (if s = t then s else r == .down) 0 0 else Val.ofInt x k
  | .nan s m w, _ => .nan s m w
  | _, .nan s m w => .nan s m w

/-- The exact product of two values that are no NaN. -/
def mulVal (a b : Val) : Val :=
  match a, b with
  | .inf s, .inf t => .inf (s != t)
  | .inf s, .fin t n _ => if n = 0 then Val.default else .inf (s != t)
  | .fin s m _, .inf t => if m = 0 then Val.default else .inf (s != t)
  | .fin s m e, .fin t n f => .fin (s != t) (m * n) (e + f)
  | .nan s m w, _ => .nan s m w
  | _, .nan s m w => .nan s m w

/-- Whether a value that is no NaN is below another, −0 equal to +0. -/
def Val.lt (a b : Val) : Bool :=
  match a, b with
  | .inf s, .inf t => s && !t
  | .inf s, _ => s
  | _, .inf t => !t
  | .fin s m e, .fin t n f =>
    let k := min e f
    decide (signed s m * 2 ^ (e - k).toNat < signed t n * 2 ^ (f - k).toNat)
  | _, _ => false
/-- Whether a value is negative zero. -/
def Val.negZero : Val → Bool
  | .fin s m _ => s && m == 0
  | .nan _ _ _ => false
  | .inf _ => false

/-! ### Lanes -/

/-- The format of a lane type (05 R113). -/
def laneFormat (lt : Nat) : Format := (Format.ofCode lt).getD .f32
/-- The number of lanes of a format in a word. -/
def Format.lanes (f : Format) : Nat := 128 / f.width
/-- Lane `i` of a word. -/
def lane (f : Format) (w : QWord) (i : Nat) : Nat := bits w.toNat (f.width * i) f.width
/-- The word of a list of lane codes, lane 0 first; what no lane fills is 0. -/
def ofLanes (f : Format) (l : List Nat) : QWord :=
  BitVec.ofNat 128 (l.foldr (fun c acc => c % 2 ^ f.width + 2 ^ f.width * acc) 0)
/-- Applies a function to every lane. -/
def mapLanes (f : Format) (g : Nat → Nat) (w : QWord) : QWord := ofLanes f ((List.range f.lanes).map fun i => g (lane f w i))
/-- Applies a function to every pair of lanes. -/
def zipLanes (f : Format) (g : Nat → Nat → Nat) (a b : QWord) : QWord :=
  ofLanes f ((List.range f.lanes).map fun i => g (lane f a i) (lane f b i))

/-- A float result rounded to its lane; a NaN keeps its bits (07 R181, R182). -/
def roundLane (f : Format) (r : Rounding) (v : Val) : Nat := (toFormat f r v).1

/-- The integer of a lane. -/
def laneInt (f : Format) (c : Nat) : Int := (BitVec.ofNat f.width c).toInt
/-- An integer result modulo 2^n (07 R181). -/
def wrapLane (f : Format) (n : Int) : Nat := (BitVec.ofInt f.width n).toNat

/-- ADD on a lane (15 R322). -/
def addLane (f : Format) (r : Rounding) (a b : Nat) : Nat :=
  if f.isInt then wrapLane f (laneInt f a + laneInt f b)
  else
    let x := decodeVal f a
    let y := decodeVal f b
    roundLane f r ((firstNan [x, y]).getD (addVal r x y))
/-- SUB on a lane (18 R428). -/
def subLane (f : Format) (r : Rounding) (a b : Nat) : Nat :=
  if f.isInt then wrapLane f (laneInt f a - laneInt f b)
  else
    let x := decodeVal f a
    let y := decodeVal f b
    roundLane f r ((firstNan [x, y]).getD (addVal r x y.negate))
/-- MUL on a lane (17 R386). -/
def mulLane (f : Format) (r : Rounding) (a b : Nat) : Nat :=
  if f.isInt then wrapLane f (laneInt f a * laneInt f b)
  else
    let x := decodeVal f a
    let y := decodeVal f b
    roundLane f r ((firstNan [x, y]).getD (mulVal x y))
/-- FMA, or FMS with `neg`, on a lane: one rounding (16 R359). -/
def fmaLane (f : Format) (r : Rounding) (neg : Bool) (a b c : Nat) : Nat :=
  if f.isInt then wrapLane f (laneInt f a * laneInt f b + (if neg then -laneInt f c else laneInt f c))
  else
    let x := decodeVal f a
    let y := decodeVal f b
    let z := decodeVal f c
    let p := mulVal x y
    roundLane f r ((firstNan [x, y, z]).getD (if p.isNan then p else addVal r p (if neg then z.negate else z)))

/-- CMP's code on a lane (15 R344). -/
def cmpLane (f : Format) (a b : Nat) : Nat :=
  let x := decodeVal f a
  let y := decodeVal f b
  if x.isNan || y.isNan then 3 else if x.lt y then 1 else if y.lt x then 2 else 0

/-- Whether MIN, or MAX, takes its second operand (17 R381). -/
def takesB (f : Format) (max : Bool) (a b : Nat) : Bool :=
  let x := decodeVal f a
  let y := decodeVal f b
  if x.isNan then !y.isNan
  else if y.isNan then false
  else
    let zeros := !f.isInt && !x.lt y && !y.lt x
    if max then x.lt y || (zeros && x.negZero && !y.negZero) else y.lt x || (zeros && y.negZero && !x.negZero)
/-- MIN or MAX on a lane; two NaNs give the first quietened (17 R381). -/
def minMaxLane (f : Format) (max : Bool) (a b : Nat) : Nat :=
  let x := decodeVal f a
  let y := decodeVal f b
  if x.isNan && y.isNan then roundLane f .nearest x.quiet else if takesB f max a b then b else a

/-- Whether a lane is zero, ±0 for a floating lane (15 R322). -/
def laneZero (f : Format) (c : Nat) : Bool :=
  match decodeVal f c with
  | .fin _ m _ => m == 0
  | .nan _ _ _ => false
  | .inf _ => false

/-- ABS and NEG of a lane, and whether SAT is set (15 R320, 17 R397). -/
def absLane (f : Format) (a : Nat) : Nat × Bool :=
  if f.isInt then settleInt f (laneInt f a).natAbs
  else match decodeVal f a with
    | .nan s m w => (roundLane f .nearest (Val.quiet (.nan s m w)), false)
    | _ => (a % 2 ^ (f.width - 1), false)
/-- NEG of a lane (17 R397). -/
def negLane (f : Format) (a : Nat) : Nat × Bool :=
  if f.isInt then settleInt f (-laneInt f a)
  else match decodeVal f a with
    | .nan s m w => (roundLane f .nearest (Val.quiet (.nan s m w)), false)
    | _ => (Nat.xor a (2 ^ (f.width - 1)), false)

/-! ### Widening under a scale -/

/-- An element widened with a scale: exact product, one rounding; a NaN scale gives the default NaN, a UE4M3 zero a signed zero and
ZSC (07 R169, R170). The superscale of a B4U word multiplies too. DESIGN CHOICE (log 88): a UE4M3 zero under a superscale 0xFF, for which two rows
of R170 hold, gives the default NaN and no ZSC. -/
def scaleElement (src dst : Format) (r : Rounding) (ue : Bool) (scale : Nat) (super : Option Nat) (c : Nat) : Nat × Bool :=
  let x := decodeVal src c
  let s := decodeVal (if ue then .ue4m3 else .e8m0) scale
  let t := match super with | some e => decodeVal .e8m0 e | none => .fin false 1 0
  if s.isNan || t.isNan then (dst.defaultNan, false)
  else if ue && scale % 256 == 0 then
    match x with
    | .fin g _ _ => (dst.signBit g, true)
    | .inf _ => (dst.defaultNan, true)
    | .nan g m w => (roundLane dst r (.nan g m w), true)
  else if x.isNan then (roundLane dst r x, false)
  else (roundLane dst r (mulVal (mulVal x s) t), false)

/-! ### The function opcodes -/

/-- ⌊√n⌋ by bits, from 2^k down. -/
def isqrtFrom (n : Nat) : Nat → Nat → Nat
  | 0, acc => acc
  | k + 1, acc => isqrtFrom n k (if (acc + 2 ^ k) * (acc + 2 ^ k) ≤ n then acc + 2 ^ k else acc)
/-- ⌊√n⌋ (16 R357). -/
def isqrt (n : Nat) : Nat := isqrtFrom n (Nat.log2 n / 2 + 1) 0

/-- A value between q·2^e and (q + 1)·2^e, exact when `exact` holds: a sticky bit stands for the rest. -/
def sticky (s : Bool) (q : Nat) (exact : Bool) (e : Int) : Val := .fin s (2 * q + (if exact then 0 else 1)) (e - 1)

/-- 1/x of a finite value other than zero. -/
def rcpVal (s : Bool) (m : Nat) (e : Int) : Val :=
  let k := Nat.log2 m + 100
  sticky s (2 ^ k / m) (2 ^ k % m == 0) (-e - k)

/-- 1/√x of a positive finite value. -/
def rsqVal (m : Nat) (e : Int) : Val :=
  let (m, e) := if e % 2 = 0 then (m, e) else (2 * m, e - 1)
  let k := Nat.log2 m + 100
  let q := isqrt (2 ^ (2 * k) / m)
  sticky false q (q * q * m == 2 ^ (2 * k)) (-(e / 2) - k)

/-- The fixed-point bits of the function opcodes. -/
def fracBits : Nat := 320

/-- Multiplies a lower bound of 2^f by the roots that the bits of `f` select, `f` a fraction of `n` bits (16 R357). -/
def exp2Bits (f : Nat) : Nat → Nat → Nat → Nat
  | 0, _, acc => acc
  | n + 1, root, acc =>
    let root := isqrt (root * 2 ^ fracBits)
    exp2Bits f n root (if f.testBit n then acc * root / 2 ^ fracBits else acc)

/-- Bounds of 2^x for a fraction f/2^n, scaled by 2^fracBits: the roots and products lose fewer than 2^12 units. -/
def exp2Bounds (f n : Nat) : Nat × Nat :=
  let lo := exp2Bits f n (2 * 2 ^ fracBits) (2 ^ fracBits)
  (lo, lo + 4096)

/-- The bits of log2 of a value in [1, 2), between bounds scaled by 2^fracBits: the fraction, and how many bits it has. -/
def log2Bits : Nat → Nat → Nat → Nat → Nat → Nat × Nat
  | 0, _, _, acc, n => (acc, n)
  | k + 1, lo, hi, acc, n =>
    let lo := lo * lo / 2 ^ fracBits
    let hi := hi * hi / 2 ^ fracBits + 1
    if 2 * 2 ^ fracBits ≤ lo then log2Bits k (lo / 2) (hi / 2 + 1) (2 * acc + 1) (n + 1)
    else if hi < 2 * 2 ^ fracBits then log2Bits k lo hi (2 * acc) (n + 1)
    else (acc, n)

/-- The rounding of a value between two bounds: decided where both round alike, otherwise left open (log 2). -/
def between (f : Format) (r : Rounding) (op code : Nat) (lo hi : Val) : Nat :=
  let a := roundLane f r lo
  if a = roundLane f r hi then a else Config.transcendental op code f.width

/-- EXP2 of a lane (16 R357). -/
def exp2Lane (f : Format) (r : Rounding) (c : Nat) : Nat :=
  match decodeVal f c with
  | .nan s m w => roundLane f r (Val.quiet (.nan s m w))
  | .inf s => if s then 0 else f.infCode false
  | .fin s m e =>
    if m = 0 then roundLane f r (.fin false 1 0)
    else if 12 < e + Nat.log2 m then roundLane f r (.fin false 1 (if s then -5000 else 5000))
    else match e with
      | .ofNat k => roundLane f r (.fin false 1 (signed s (m * 2 ^ k)))
      | .negSucc k =>
        let n := k + 1
        let x := signed s m
        let whole := x / (2 ^ n : Nat)
        let frac := (x % (2 ^ n : Nat)).toNat
        if frac = 0 then roundLane f r (.fin false 1 whole)
        else
          let (lo, hi) := exp2Bounds frac n
          between f r 0 c (.fin false lo (whole - fracBits)) (.fin false hi (whole - fracBits))

/-- LOG2 of a lane (16 R357). -/
def log2Lane (f : Format) (r : Rounding) (c : Nat) : Nat :=
  match decodeVal f c with
  | .nan s m w => roundLane f r (Val.quiet (.nan s m w))
  | .inf s => if s then f.defaultNan else f.infCode false
  | .fin s m e =>
    if m = 0 then f.infCode true
    else if s then f.defaultNan
    else
      let k := Nat.log2 m
      let whole := e + k
      if m = 2 ^ k then roundLane f r (Val.ofInt whole 0)
      else
        let y := m * 2 ^ (fracBits - k)
        let (acc, n) := log2Bits 140 y y 0 0
        let lo := whole * (2 ^ n : Nat) + acc
        between f r 1 c (Val.ofInt (2 ^ 20 * lo + 1) (-(n : Int) - 20)) (Val.ofInt (2 ^ 20 * (lo + 1) - 1) (-(n : Int) - 20))

/-- RCP of a lane (16 R357). -/
def rcpLane (f : Format) (r : Rounding) (c : Nat) : Nat :=
  match decodeVal f c with
  | .nan s m w => roundLane f r (Val.quiet (.nan s m w))
  | .inf s => f.signBit s
  | .fin s m e => if m = 0 then f.infCode s else roundLane f r (rcpVal s m e)

/-- RSQ of a lane (16 R357). -/
def rsqLane (f : Format) (r : Rounding) (c : Nat) : Nat :=
  match decodeVal f c with
  | .nan s m w => roundLane f r (Val.quiet (.nan s m w))
  | .inf s => if s then f.defaultNan else 0
  | .fin s m e => if m = 0 then f.infCode s else if s then f.defaultNan else roundLane f r (rsqVal m e)

/-! ### RAND -/

/-- One round of Philox (17 R406). -/
def philoxRound (c : Nat × Nat × Nat × Nat) (k : Nat × Nat) : Nat × Nat × Nat × Nat :=
  let (c0, c1, c2, c3) := c
  let p0 := 0xD2511F53 * c0
  let p1 := 0xCD9E8D57 * c2
  (Nat.xor (Nat.xor (p1 / 2 ^ 32) c1) k.1, p1 % 2 ^ 32, Nat.xor (Nat.xor (p0 / 2 ^ 32) c3) k.2, p0 % 2 ^ 32)
/-- The rounds of Philox that are left. -/
def philoxRounds : Nat → Nat × Nat × Nat × Nat → Nat × Nat → Nat × Nat × Nat × Nat
  | 0, c, _ => c
  | n + 1, c, k => philoxRounds n (philoxRound c k) ((k.1 + 0x9E3779B9) % 2 ^ 32, (k.2 + 0xBB67AE85) % 2 ^ 32)
/-- Philox4x32-10 (17 R406). -/
def philox (ctr : BitVec 128) (key : QWord) : QWord :=
  let w := fun i => bits ctr.toNat (32 * i) 32
  let (a, b, c, d) := philoxRounds 10 (w 0, w 1, w 2, w 3) (bits key.toNat 0 32, bits key.toNat 32 32)
  ofLanes .i32 [a, b, c, d]

end Sys2Proof.Machine
end

