-- ==== Sys2Proof/Machine/Operands.lean ====
section
/-! DEFINITION. The operand forms of control-processor words (14 R291, R295, R296): immediates, memory operands, tile
selectors, and the operands of PE words (05 R113). -/
namespace Sys2Proof.Machine

/-- An immediate that its row sign-extends (14 R296). -/
def sx {n : Nat} (i : BitVec n) : Word := i.signExtend 64
/-- An immediate that its row zero-extends (14 R296). -/
def zx {n : Nat} (i : BitVec n) : Word := i.zeroExtend 64
/-- The target of B, BC and CALL: the own offset plus four times the signed offset (04 R96). -/
def branchTarget (pc : Word) (o : BitVec 21) : Word := pc + sx o * 4
/-- The address of a plain memory operand: the base plus the signed offset in units of the access size (14 R296, 16 R374). -/
def plainAddress (base : Word) (e : BitVec 6) (z : Size) : Word := base + sx e * BitVec.ofNat 64 z.bytes
/-- The address of a line operand: the base plus the signed offset in 128-byte lines (14 R296). -/
def lineAddress (base : Word) (e : BitVec 9) : Word := base + sx e * 128
/-- The size of an atomic (14 R296). -/
def atomicBytes (wide : Bool) : Nat := if wide then 8 else 4
/-- The register after `rd`, where CAS finds its new value; rd is at most 30 (14 R296). -/
def nextReg (r : Reg) : Reg := Fin.ofNat 32 (r.val + 1)
/-- The value that LI loads (14 R292). -/
def liValue (v : BitVec 52) : Word := v.signExtend 64

/-- The tiles a selector names: every tile of the region, or the one whose coordinates a register holds, with x in [3:0]
and y in [7:4]; none where a bit of [63:8] is set or the coordinate lies outside the region (14 R296). -/
def Tile.select (t : Tile) (all : Bool) (v : Word) : Option (List Nat) :=
  if all then some t.sites
  else
    let x := bits v.toNat 0 4
    let y := bits v.toNat 4 4
    if bits v.toNat 8 56 = 0 ∧ t.inRegion x y then some [t.siteAt x y] else none

/-- The registers that a selector reads. -/
def selRegs : TileSel → List Reg
  | .all => []
  | .one r => [r]
/-- The value of a selector's register. -/
def Strand.selValue (t : Strand) : TileSel → Word
  | .all => 0
  | .one r => t.rd r
/-- Whether a selector names every tile. -/
def selAll : TileSel → Bool
  | .all => true
  | .one _ => false

/-- WIDF: field `n` of WID, zero-extended; a field of width 0 reads 0 (02 R45, R46). -/
def widField (widw wid n : Nat) : Nat :=
  let width := fun k => bits widw (7 * k) 7
  let start := ((List.range n).map width).sum
  bits wid start (width n)

/-- SBST: the seven counts (04 R102). -/
def Strand.sbst (t : Strand) : Word :=
  BitVec.ofNat 64 ((List.range 7).foldl (fun acc k => acc + vget t.sb (k + 1) % 64 * 2 ^ (6 * k)) 0)

/-- STATUS of strand `n` (04 R99). -/
def Strand.statusWord (t : Strand) (n : Nat) : Word :=
  BitVec.ofNat 64 (flagCode t.prv * 128 + flagCode t.intrap * 64 + flagCode t.imp * 32 + flagCode t.barbrk * 16 + n % 4)
/-- CAUSE (04 R100). -/
def Strand.causeWord (t : Strand) : Word := BitVec.ofNat 64 (t.causeDetail.toNat * 256 + t.causeCode.toNat)
/-- EPC and TVEC from their WOFF (04 R101). -/
def woffWord (w : BitVec 15) : Word := BitVec.ofNat 64 (w.toNat * 4)

/-- SRD of strand `n` (04 R98, 14 R297). -/
def Tile.sysRead (t : Tile) (n : Nat) : SysReg → Word
  | .status => (t.strand n).statusWord n
  | .cause => (t.strand n).causeWord
  | .epc => woffWord (t.strand n).epc
  | .eval => (t.strand n).eval
  | .tvec => woffWord (t.strand n).tvec
  | .sbst => (t.strand n).sbst
  | .wid => (t.strand n).wid
  | .widw => t.widw
  | .rgnb => t.rgnb
  | .genr => BitVec.ofNat 64 t.gen
  | .part => BitVec.ofNat 64 t.part.toNat
  | .gkey => BitVec.ofNat 64 t.gkey.toNat
  | .zscf => BitVec.ofNat 64 (flagCode t.zsc)
  | .satf => BitVec.ofNat 64 (flagCode t.sat)
  | .rndm => BitVec.ofNat 64 t.rnd.toNat

/-- What SWR does to a register (04 R97, 14 R297). -/
inductive SysWrite where
  | priv | ill | done (t : Tile)

/-- The index of a system register (14 R297). -/
def sysIndex (r : SysReg) : Nat := r.code

/-- SWR of strand `n`: the Access column of each map under R5 (04 R97 to R104, 14 R297). -/
def Tile.sysWrite (t : Tile) (n : Nat) (r : SysReg) (v : Word) : SysWrite :=
  let x := t.strand n
  match r with
  | .status => .done (t.setStrand n { x with barbrk := x.barbrk && !v.getLsbD 4 })
  | .cause => .done t
  | .epc => .done (t.setStrand n { x with epc := BitVec.ofNat 15 (v.toNat / 4) })
  | .eval => .done (t.setStrand n { x with eval := v })
  | .tvec => .done (t.setStrand n { x with tvec := BitVec.ofNat 15 (v.toNat / 4) })
  | .sbst => .done t
  | .wid => .done (t.setStrand n { x with wid := v })
  | .widw | .rgnb | .genr | .part | .gkey => .priv
  | .zscf => .done { t with zsc := v.getLsbD 0 }
  | .satf => .done { t with sat := v.getLsbD 0 }
  | .rndm => if 3 < bits v.toNat 0 3 then .ill else .done { t with rnd := BitVec.ofNat 3 v.toNat }

end Sys2Proof.Machine
end

