-- ==== Sys2Proof/Machine/Ops.lean ====
section
/-! DEFINITION. Issue of a control-processor instruction, taking a trap and returning from one, the end of the issuing
task, and the issue of an access (04 R81, R83, R91, R96, 11 R257, R258). -/
namespace Sys2Proof.Machine

/-! ### Traps -/

/-- Fails the task of a tile with a fault of strand `n` (11 R256). A strand of firmware has no task: it is HALTED (log 85). -/
def State.failAt (s : State) (d site n : Nat) (c : Report) : State :=
  let t := s.tile d site
  match t.task with
  | none => if t.firmware.isSome then s.modStrand d site n fun x => { x with run := .halted } else s
  | some r => s.failTask d r c ⟨(t.strand n).wid, t.relX site, t.relY site, n⟩

/-- Takes a trap in a strand (11 R257): `off` is the offset that EPC names. An imprecise report inside a handler waits in
the pending list, which holds four; a trap with no handler fails the task. -/
def State.takeTrap (s : State) (d site n : Nat) (c : Report) (imp : Bool) (off : Word) : State :=
  let x := s.strand d site n
  if x.intrap && imp then
    if 4 ≤ x.pending.length then s.failAt d site n c
    else s.modStrand d site n fun x => { x with pending := x.pending ++ [c] }
  else if x.intrap || x.tvec == 0 then s.failAt d site n c
  else s.modStrand d site n fun x =>
    { x with epc := BitVec.ofNat 15 (off.toNat / 4), causeCode := BitVec.ofNat 8 c.cause, causeDetail := BitVec.ofNat 8 c.detail,
             eval := c.eval, imp := imp, intrap := true, stand := none, pc := BitVec.ofNat 64 (4 * x.tvec.toNat) }

/-- A precise trap of the strand that has the move: EPC names the faulting instruction (11 R257). -/
def State.trapMe (s : State) (cause detail : Nat) (eval : Word) : State :=
  s.takeTrap s.cur.die s.cur.site s.cur.strand ⟨cause, detail, eval⟩ false s.me.pc

/-- A precise ILL on an operand value: DETAIL 0x05, EVAL the instruction word (11 R255, 14 R293). -/
def State.illOperand (s : State) (i : Instr) : State := s.trapMe 1 5 (BitVec.ofNat 64 (encode i))

/-- The word of the tile's running section at an offset, if the section holds one there: of the code that the loader has written, or of the
firmware of an armature core's role (01 R14, 04 R95). -/
def Tile.wordAt (t : Tile) (off : Nat) : Option IWord :=
  match tget t.imem ((if t.half then 16384 else 0) + off / 4), t.firmware with
  | some w, _ => some w
  | none, some role => some ⟨(Config.firmware role (off / 4)).1, (Config.firmware role (off / 4)).2, false⟩
  | none, none => none

/-- Whether a control transfer may land on an offset of the tile's running section: a multiple of 4, below the section's
length, a start word (04 R95, R96). -/
def Tile.targetOk (t : Tile) (off : Word) : Bool :=
  off.toNat % 4 == 0 && decide (off.toNat < t.codeLen) && (t.wordAt off.toNat).any (·.start)

/-- The word of the tile's running section at an offset (04 R95). -/
def Tile.codeWord (t : Tile) (off : Nat) : IWord := (t.wordAt off).getD ⟨0, true, false⟩

/-- ERET (11 R258): INTRAP falls; the oldest pending report is taken at once; a bad target traps ITGT with INTRAP still
set. -/
def State.trapReturn (s : State) : State :=
  let x := s.me
  let t : Word := woffWord x.epc
  match x.pending with
  | r :: rest =>
    (s.modMe fun x => { x with intrap := false, pending := rest }).takeTrap s.cur.die s.cur.site s.cur.strand r true t
  | [] =>
    if s.here.targetOk t then s.modMe fun x => { x with intrap := false, pc := t } else s.trapMe 2 0 t

/-! ### Issue -/

/-- The order field of an instruction that takes no part in ordering. -/
def Order.none : Order := ⟨0, 0⟩

/-- Whether an operation in flight will write a register (04 R83). -/
def Strand.isBusy (t : Strand) (r : Reg) : Bool := t.busy.getLsbD r.val

/-- Whether a strand is ready to issue an instruction that names these registers and this order field (04 R81, R91). -/
def Strand.ready (t : Strand) (regs : List Reg) (o : Order) : Bool :=
  t.run == .run && !t.stall && regs.all (fun r => !t.isBusy r) && (o.wait == 0 || vget t.sb o.wait.val == 0)
    && (o.set == 0 || decide (vget t.sb o.set.val < 63))

/-- A strand that has issued a one-word instruction. -/
def Strand.next (t : Strand) : Strand := { t with pc := t.pc + 4 }

/-- Issues an instruction when its strand is ready; otherwise the strand forfeits its slot (04 R81). -/
def issue (s : State) (regs : List Reg) (o : Order) (go : State → State) : Out :=
  if s.me.ready regs o then .next (go s) else .next s

/-- Issues an instruction that reads and writes only registers (04 R82). -/
def issueAlu (s : State) (regs : List Reg) (f : Strand → Strand) : Out :=
  issue s regs Order.none fun s => s.modMe fun t => (f t).next

/-- Whether a release fence holds back the writes and engine commands of the strand (09 R224). -/
def State.fenced (s : State) : Bool :=
  s.access.any fun a => a.ofStrand s.cur.die s.cur.site s.cur.strand && a.kind == .fence && a.ord.releases

/-- Whether an access of the strand that has the move has not been performed at tile scope (09 R223). -/
def State.unperformed (s : State) : Bool :=
  s.access.any fun a => a.ofStrand s.cur.die s.cur.site s.cur.strand && !a.ghost && !a.drained

/-- Issues a memory instruction: it also waits for the strand's acquires (09 R223). -/
def issueMem (s : State) (regs : List Reg) (o : Order) (go : State → State) : Out :=
  if s.me.ready regs o && s.me.acquires == 0 then .next (go s) else .next s

/-- Issues a scratchpad write or an engine command: it waits for acquires and for release fences (09 R223, R224). -/
def issueCommand (s : State) (regs : List Reg) (o : Order) (go : State → State) : Out :=
  if s.me.ready regs o && s.me.acquires == 0 && !s.fenced then .next (go s) else .next s

/-- A control transfer of the strand that has the move: it goes to the target, or traps ITGT (04 R96). -/
def State.jumpMe (s : State) (target : Word) (f : Strand → Strand) : State :=
  if s.here.targetOk target then s.modMe fun t => { f t with pc := target } else s.trapMe 2 0 target

/-- A new access of the strand that has the move, with its task's identity (10 R244, R253). -/
def State.newAccess (s : State) (kind : AccessKind) (va : Word) (bytes slot : Nat) : Access :=
  let t := s.here
  { id := s.nextId, agent := .strand s.cur.die s.cur.site s.cur.strand, kind := kind, phase := .translate, va := va.toNat,
    bytes := bytes, part := t.part, gkey := t.gkey, gen := t.gen, data := 0, data2 := 0, dst := 0, dst2 := 0, signed := false,
    ord := .rlx, scp := .tile, slot := slot, pa := 0, kidx := 0, cacheable := false, sent := false,
    mark := (s.die s.cur.die).rwbSeq, plain := true, noAcq := false, txn := 0, ringTxn := 0, port := 0 }

/-- The strand's share of an issued access: destination registers are marked, the slot rises, an acquire is counted (04
R83, R91, 09 R223). -/
def Strand.issued (t : Strand) (a : Access) : Strand :=
  let t := (((t.mark a.dst).mark a.dst2).raise a.slot).next
  if a.acquires then { t with acquires := t.acquires + 1 } else t

/-- Puts an issued access in flight. -/
def State.launch (s : State) (a : Access) : State :=
  (({ s with nextId := s.nextId + 1 }).modMe fun t => t.issued a).addAccess a

/-- Issues an access to global memory or the window: misalignment and window faults are precise, the rest is found after
issue (08 R192, 16 R374). `logn` is the log2 of its size. -/
def State.startAccess (s : State) (a : Access) (logn : Nat) : State :=
  let va := BitVec.ofNat 64 a.va
  if a.va % 2 ^ logn ≠ 0 then s.trapMe 4 logn va
  else if inWindow a.va then
    match s.windowFault a.part a.va with
    | some r => s.trapMe r.cause r.detail r.eval
    | none => (s.launch a).enter a .window
  else (s.launch a).translate a

/-- Issues a memory-tile operation on the window word at `va`: its precise faults are those of R328, with PERM for any
address outside the window, then ILL with EVAL `bad` where the operand check `ok` fails (18 R431). -/
def State.startWindow (s : State) (bad : Word) (ok : Bool) (a : Access) (op logn : Nat) : State :=
  let va := BitVec.ofNat 64 a.va
  if !inWindow a.va then s.trapMe 6 0x11 va
  else match s.windowFault a.part a.va with
    | some r => s.trapMe r.cause r.detail r.eval
    | none =>
      if a.va % 2 ^ logn ≠ 0 then s.trapMe 4 logn va
      else if !ok then s.trapMe 1 5 bad
      else
        let a := { a with kind := .window op, plain := false }
        (s.launch a).enter a .window

/-- Reports a fault found after issue to a strand (11 R257). -/
def State.report (s : State) (d site n : Nat) (c : Report) : State :=
  { s with reports := s.reports ++ [(.strand d site n, c)] }

/-- Routes a fault that no strand raised to a strand of its tile: a fault of the grid or the island, or of a fired copy (05 R115, 06
R153, 11 R257). -/
def State.routeReport (s : State) (d site n : Nat) (c : Report) : State :=
  { s with reports := s.reports ++ [(.routed d site n, c)] }

/-- The fault record's place of a report that ends a task: no strand faulted where the report was routed (11 R256). -/
def State.routedAt (s : State) (d site : Nat) : FaultAt := ⟨0, (s.tile d site).relX site, (s.tile d site).relY site, 0⟩

/-- The account that a strand's partition is charged to. -/
def State.accountOf (s : State) (n : Nat) : Account := (lget s.plinth.accounts n).getD Account.init

end Sys2Proof.Machine
end

