-- ==== Sys2Proof/Machine/Faults.lean ====
section
/-! DEFINITION. Handles and their transitions, the descriptor fields of streams, and how copies and streams fault (06 R142 to
R146, R149, R153, R154, R158, 11 R256). -/
namespace Sys2Proof.Machine

/-! ### Handles -/

/-- Lowers a slot of a strand of a tile: an operation that carried it has ended (04 R91, R93). -/
def State.lowerSlot (s : State) (d t n slot : Nat) : State := s.modStrand d t n fun x => x.lower slot

/-- A handle has come to a state: the HWAITs and HFREEs that wait for it complete, an HFREE unbinds it, and a strand that stands at an HWAIT for it
goes on (04 R93, 16 R368 to R370). -/
def State.meetWaits (s : State) (d t h : Nat) (to_ : HState) : State :=
  let hit := fun (w : HandleWait) => w.handle == h && w.want == to_
  let mine := (s.tile d t).hwaits.filter hit
  let s := s.modTile d t fun x => { x with
    hwaits := x.hwaits.filter fun w => !hit w
    strands := x.strands.map fun y => if y.stand = some (h, to_, false) then { y with stand := some (h, to_, true) } else y
    handles := if mine.any (·.unbind) then tput x.handles h { x.handle h with bnd := false, len := 0 } else x.handles }
  s.over mine fun w s => s.lowerSlot d t w.strand w.slot
/-- Gives a handle a new entry (06 R144). -/
def State.putHandle (s : State) (d t h : Nat) (e : Handle) : State :=
  let was := (s.tile d t).handle h
  let s := s.modTile d t fun x => x.setHandle h e
  if was.state == e.state then s else s.meetWaits d t h e.state

/-- An entry that enters FREE (06 R144). -/
def Handle.release (e : Handle) : Handle := { e with state := .free, filled := 0, rd := 0, psn := false, ws := false, swz := 0, cover := 0, writers := [] }

/-- An engine consumer ends: RD falls, and the last one with REL frees the handle (06 R144). -/
def State.endConsumer (s : State) (d t h : Nat) (rel : Bool) : State :=
  let e := (s.tile d t).handle h
  let e := { e with rd := e.rd - 1 }
  s.putHandle d t h (if rel && e.rd == 0 then e.release else e)

/-- The swizzled place of an offset of an extent (06 R146). -/
def swizzle (code : BitVec 5) (o : Nat) : Nat :=
  let k := bits code.toNat 0 3
  let c := 4 + bits code.toNat 3 2
  Nat.xor o (o / 2 ^ (c + k) % 2 ^ k * 2 ^ c)
/-- A reserved swizzle code (06 R146). -/
def swizzleReserved (code : BitVec 5) : Bool :=
  bits code.toNat 3 2 == 3 || decide (5 < bits code.toNat 0 3) || (bits code.toNat 0 3 == 0 && bits code.toNat 3 2 != 0)
/-- Whether a code's row size divides an extent; code 0 fits every extent (06 R146). -/
def swizzleFits (code : BitVec 5) (len : Nat) : Bool :=
  code == 0 || len % 2 ^ (4 + bits code.toNat 3 2 + bits code.toNat 0 3) == 0

/-- How a consumer's start ends (06 R144, R147). -/
inductive Start where
  | wait | fault (r : Report) | go
  deriving DecidableEq, Repr

/-- An HSTATE fault on a handle (11 R255). -/
def Handle.stateFault (e : Handle) (h : Nat) : Report := ⟨0xA, e.state.code, BitVec.ofNat 64 h⟩
/-- An SWZ fault on a handle (11 R255). -/
def Handle.swzFault (e : Handle) (h : Nat) : Report := ⟨9, e.swz.toNat, BitVec.ofNat 64 h⟩

/-- Whether an engine consumer that names `code` may start on a handle (06 R144, R146, R147). -/
def Handle.startConsumer (e : Handle) (h : Nat) (code : BitVec 5) : Start :=
  if !e.bnd then .fault (e.stateFault h)
  else if !swizzleFits code e.len then .fault (e.swzFault h)
  else match e.state with
    | .free | .filling => .wait
    | .full => if e.swz = code then .go else .fault (e.swzFault h)
    | .draining => if e.swz ≠ code then .fault (e.swzFault h) else if 15 ≤ e.rd then .wait else .go

/-- Starts a consumer that may start (06 R144). -/
def State.beginConsumer (s : State) (d t h : Nat) : State :=
  let e := (s.tile d t).handle h
  s.putHandle d t h { e with state := .draining, rd := e.rd + 1 }

/-- Whether overlapping writes ended the fill of a full handle before every byte of its extent was written (06 R144). -/
def Handle.early (e : Handle) : Bool := e.cover != 2 ^ e.len - 1

/-- Whether engine command `who` may write `n` bytes into a handle under a swizzle. DEDUCED (log 41): a command that wrote in a fill that
overlapping writes ended early faults where it goes on beyond LEN; every other writer waits (06 R144, R146). -/
def Handle.startWrite (e : Handle) (who h n : Nat) (code : BitVec 5) : Start :=
  if !e.bnd then .fault (e.stateFault h)
  else if !swizzleFits code e.len then .fault (e.swzFault h)
  else match e.state with
    | .full | .draining => if e.early && e.writers.contains who then .fault (e.stateFault h) else .wait
    | .free => .go
    | .filling =>
      if e.ws then .wait else if e.swz ≠ code then .fault (e.swzFault h)
      else if e.len < e.filled + n then .fault (e.stateFault h) else .go

/-! ### Stream descriptors -/

/-- Word `i` of a stream's descriptor. -/
def Stream.word (x : Stream) (i : Nat) : Nat := ((lget x.desc i).getD 0).toNat
/-- KIND (06 R154). -/
def Stream.kind (x : Stream) : Nat := bits (x.word 0) 61 3
/-- The element size in bytes (06 R154). -/
def Stream.esz (x : Stream) : Nat := 2 ^ bits (x.word 0) 58 3
/-- The handle that the stream addresses through. -/
def Stream.hnd (x : Stream) : Nat := bits (x.word 0) 38 7
/-- SWZ. -/
def Stream.swz (x : Stream) : BitVec 5 := BitVec.ofNat 5 (bits (x.word 0) 33 5)
/-- HU. -/
def Stream.hu (x : Stream) : Bool := flagOf (x.word 0) 32
/-- REL. -/
def Stream.rel (x : Stream) : Bool := flagOf (x.word 0) 31
/-- DEC. -/
def Stream.dec (x : Stream) : Bool := flagOf (x.word 0) 30
/-- COUNT of a dimension, 1 for one beyond ND. -/
def Stream.count (x : Stream) (i : Nat) : Nat := if i ≤ bits (x.word 0) 56 2 then bits (x.word (2 + i)) 32 32 else 1
/-- STRIDE of a dimension. -/
def Stream.stride (x : Stream) (i : Nat) : Int := (BitVec.ofNat 32 (x.word (2 + i))).toInt
/-- The read kinds (18 R415). -/
def readKind (k : Nat) : Bool := k == 0 || k == 2 || k == 4 || k == 7
/-- Whether engine `e` is the island's A source (17 R388). -/
def Tile.sourceOf (t : Tile) (e : Nat) : Bool :=
  t.island.configured && flagOf t.island.config.toNat 5 && bits t.island.config.toNat 6 3 == e

/-- The PE that PSIDE and PROW name: 16 columns and 8 rows, row-major (05 R109, 06 R154). -/
def Stream.pe (x : Stream) : Nat := bits (x.word 0) 52 3 * 16 + (if flagOf (x.word 0) 55 then 15 else 0)
/-- A word on its way to the input queue that the pattern names (06 R156, R158). -/
def Stream.outWord (x : Stream) (w : GWord) : OutWord := ⟨w, x.pe, bits (x.word 0) 50 2⟩

/-! ### Faults of engines -/

/-- A stream fault token (06 R158). DESIGN CHOICE (log 68): the address of a pattern with HU = 1, which R158 does not name, is the offset
within the handle. -/
def faultToken (x : Stream) (e : Nat) (r : Report) (addr : Word) : GWord :=
  { bits := BitVec.ofNat 128 (bits addr.toNat 16 41 * 65536 + r.cause + x.pos % 2 ^ 40 * 2 ^ 64 + r.detail * 2 ^ 104 + e * 2 ^ 112)
    tag := BitVec.ofNat 5 (bits (x.word 0) 25 5), psn := 0, ended := false }

/-- Ends a stream's hold on its handle without REL (06 R144). -/
def State.dropStreamHandle (s : State) (d t e : Nat) : State :=
  let x := (s.tile d t).stream e
  if x.acquired then (s.endConsumer d t x.hnd false).modTile d t fun y => y.setStream e { y.stream e with acquired := false } else s

/-- A stream faults: it goes to FAULT, its consumer ends, its SGO completes, a read kind that does not feed the island emits its
fault token, and the strand of the SGO gets the report (06 R158, 18 R412). `addr` is the faulting element's address. DESIGN CHOICE (log 93): the
elements of a read run that a word not yet full holds are dropped, though POS counts them. -/
def State.streamFault (s : State) (d t e : Nat) (r : Report) (addr : Word) : State :=
  let x := (s.tile d t).stream e
  if x.state != .run && x.state != .parked then s
  else
    let s := s.dropStreamHandle d t e
    let s := s.modTile d t fun y =>
      let x := y.stream e
      let token := readKind x.kind && !y.sourceOf e
      y.setStream e { x with state := .fault, cause := r.cause, detail := r.detail, wait := false, peer := [], pack := 0, packed := 0,
                             packPsn := 0, out := if token then x.out ++ [x.outWord (faultToken x e r addr)] else x.out }
    ((s.modTile d t fun y => y.settleRaces (.engine e)).lowerSlot d t x.strand x.slot).report d t x.strand r

/-- Takes a copy off its tile; nothing it wrote races any more (09 R230). -/
def State.endJob (s : State) (d t id : Nat) : State :=
  (s.modTile d t fun x => { x with jobs := x.jobs.filter fun q => q.id != id }).over (s.tile d t).sites fun y s =>
    s.modTile d y fun z => z.settleRaces (.engine (8 + id))

/-- Where the fault of a staging copy strikes: its tile (11 R256). -/
def State.jobPlace (s : State) (d t : Nat) : FaultAt := ⟨0, (s.tile d t).relX t, (s.tile d t).relY t, 0⟩

/-- A copy faults: it ends, its consumer ends without REL, its slot falls, and its strand gets the report; a staging copy fails
its task (06 R144, R149, R153, 02 R48). -/
def State.jobFault (s : State) (d t id : Nat) (r : Report) : State :=
  match (s.tile d t).jobs.find? (fun j => j.id == id) with
  | none => s
  | some j =>
    let s := s.endJob d t id
    match j.staging with
    | some n => s.failTask d n r (s.jobPlace d t)
    | none =>
      let s := if j.acquired then s.endConsumer d ((s.tile d t).siteAt j.desc.sx j.desc.sy) j.desc.sh false else s
      let s := s.lowerSlot d t j.strand j.slot
      if j.fired then s.routeReport d t j.strand r else s.report d t j.strand r

/-- The copies of a die that a condition picks out, each with its tile. -/
def State.dieJobs (s : State) (d : Nat) (p : Tile → Job → Bool) : List (Nat × Job) :=
  (s.tiles.filter fun e => e.1 / 144 == d).flatMap fun e => (e.2.jobs.filter (p e.2)).map fun j => (e.1 % 144, j)
/-- The staging copies that take part in the merged read that a copy leads (03 R64). -/
def State.merged (s : State) (d lead : Nat) : List (Nat × Job) := s.dieJobs d fun _ j => j.lead == some lead
/-- The source of a copy faults: the copy ends; the fault of a staging copy fails its task and every task that takes part in its merged read, each
with the same cause, before the policy of any of them names others (03 R64, 02 R31). -/
def State.copyFault (s : State) (d t id : Nat) (r : Report) : State :=
  match (s.tile d t).jobs.find? fun j => j.id == id with
  | none => s
  | some j =>
    if j.staging.isNone then s.jobFault d t id r
    else
      let all := (t, j) :: ((s.merged d id).filter fun e => e.2.id != id)
      (s.over all fun e s => s.endJob d e.1 e.2.id).failAll
        (all.filterMap fun e => e.2.staging.map fun n => ⟨d, n, r, s.jobPlace d e.1, true⟩)

/-- Parks a stream that awaits a page (06 R157, R158). -/
def State.park (s : State) (g : Agent) : State :=
  match g with
  | .stream d t e => s.modTile d t fun x => x.setStream e { x.stream e with state := .parked }
  | _ => s
/-- Takes a parked stream back to RUN after a successful answer (06 R157). -/
def State.unpark (s : State) (g : Agent) : State :=
  match g with
  | .stream d t e => s.modTile d t fun x =>
      if (x.stream e).state == .parked then x.setStream e { x.stream e with state := .run } else x
  | _ => s

end Sys2Proof.Machine
end

