-- ==== Sys2Proof/Machine/Translate.lean ====
section
/-! DEFINITION. Walks, page requests, page capabilities and invalidation (10 R244 to R251, 18 R434, R441). -/
namespace Sys2Proof.Machine

/-! ### Page requests -/

/-- The access code of a page request (12 R274); a walk-only access holds its code in `data2`. -/
def Access.needCode (a : Access) : Nat :=
  match a.kind with
  | .load => 0 | .store => 1 | .atomic _ => 2 | .cas => 2 | .xlt => a.data2.toNat % 8 | .fence | .flush _ | .pref => 4
  | .window op => if isGet op then 0 else 1

/-- An identifier for a page request that no outstanding one of the die has (10 R250). -/
def State.pageId (s : State) (d : Nat) : Nat :=
  let used := (s.die d).pageReqs.map (·.id)
  match (List.range (used.length + 1)).find? fun i => !used.contains ((s.nextId + i) % 65536) with
  | some i => (s.nextId + i) % 65536
  | none => 0

/-- A walk met V = 0: the access joins the request for its granule, or opens one and raises its event; while the table of
256 is full it goes on waiting and walks again (10 R250). -/
def State.pageRequest (s : State) (d : Nat) (a : Access) : State :=
  let f := s.die d
  let cgen := (s.context a.part).cgen
  let g := a.walkVa / 65536
  match f.pageReqs.find? (fun q => q.part == a.part && q.cgen == cgen && q.granule == g) with
  | some q =>
    ((s.park a.agent).modDie d fun f => { f with pageReqs := f.pageReqs.map fun x =>
      if x.id = q.id then { x with waiters := x.waiters ++ [a.id] } else x }).modAccess a.id fun b => { b with phase := .page }
  | none =>
    if 256 ≤ f.pageReqs.length then s
    else
      let id := s.pageId d
      let s := { s.park a.agent with nextId := s.nextId + 1 }
      let s := s.modDie d fun f => { f with pageReqs := f.pageReqs ++ [⟨id, a.part, cgen, g, a.needCode, [a.id]⟩] }
      (s.modAccess a.id fun b => { b with phase := .page }).raiseEvent 1 d
        (BitVec.ofNat 64 (id * 2 ^ 48 + a.part.toNat * 2 ^ 44 + d * 2 ^ 41 + bits a.walkVa 16 41))
        (BitVec.ofNat 64 (cgen * 2 ^ 48 + a.needCode * 2 ^ 45))

/-! ### Capabilities -/

/-- A fault word (10 R249). -/
def faultWord (va cause : Nat) : Word := BitVec.ofNat 64 (bits va 16 41 * 65536 + cause)
/-- A page capability (10 R249). -/
def capabilityWord (e : TlbEntry) (slot : Nat) : Word :=
  BitVec.ofNat 64 (2 ^ 63 + (if e.size = 0x10000 then 0 else if e.size = 0x200000 then 1 else 2) * 2 ^ 61
    + flagCode e.r * 2 ^ 60 + flagCode e.w * 2 ^ 59 + flagCode e.x * 2 ^ 58 + flagCode e.c * 2 ^ 57 + e.vbase + slot)
/-- Pins a translation in the tile's next capability slot (10 R249). -/
def Tile.pin (t : Tile) (e : TlbEntry) : Tile := { t with caps := tput t.caps t.capNext e, capNext := (t.capNext + 1) % 32 }

/-- Gives XLT or XLTN its word: a strand's register, or the delayed result of a PE (10 R249, 05 R119). -/
def State.answerWord (s : State) (a : Access) (v : Word) : State :=
  match a.agent with
  | .pe d t pe id =>
    (if (s.tile d t).holds a.gen then s.modTile d t fun x => x.modPe pe fun p =>
        { p with delayed := p.delayed.map fun r =>
          if r.id = id then { r with kind := 0, flag := v.getLsbD 63, word := { r.word with bits := v.zeroExtend 128 } } else r }
     else s.countGen d).dropAccess a.id
  | _ => s.reply a v

/-- Ends an XLT or XLTN with a translation: it is pinned and its capability returned, or the fault word of the check that
fails (18 R441). -/
def State.answerXlt (s : State) (a : Access) (e : TlbEntry) : State :=
  match checkEntry s e a.part a.gkey .none a.va with
  | some r => s.answerWord a (faultWord a.va r.cause)
  | none =>
    let (d, t) := a.agent.place
    let slot := (s.tile d t).capNext
    (s.modTile d t fun x => x.pin e).answerWord a (capabilityWord e slot)

/-- Whether an access is an XLT or XLTN, not an engine's or dispatcher's walk, a TSIG or a GINST (log 12, log 22). -/
def Access.isXlt (a : Access) : Bool :=
  a.kind == .xlt && decide (a.data2.toNat < 8) && (match a.agent with
    | .strand _ _ _ => true | .pe _ _ _ _ => true
    | .stream _ _ _ => false | .copy _ _ _ => false | .dispatcher _ _ => false | .tile _ => false | .routed _ _ _ => false)

/-- Whether an access is a TSIG that waits for its release (log 22). -/
def Access.isSignal (a : Access) : Bool := a.kind == .xlt && a.data2 == 16
/-- Whether an access is a GINST that waits for its release or its argument table (log 22). -/
def Access.isGinst (a : Access) : Bool := a.kind == .xlt && a.data2 == 24

/-- Whether an access is a read of the dispatcher that raises no page request: a walk that ends without a translation answers it (03 R70,
14 R305). -/
def Access.quiet (a : Access) : Bool :=
  a.kind == .xlt && decide (32 ≤ a.data2.toNat) && (match a.agent with
    | .dispatcher _ _ => true
    | .strand _ _ _ | .pe _ _ _ _ | .stream _ _ _ | .copy _ _ _ | .tile _ | .routed _ _ _ => false)

/-- Ends a walk-only access of an engine or the dispatcher: the agent goes on and looks the translation up again (log 12). -/
def State.endWalk (s : State) (a : Access) : State :=
  let s := if a.isGinst then s.modAccess a.id fun b => { b with phase := .drained } else s.dropAccess a.id
  match a.agent with
  | .stream d t e => s.modTile d t fun x => x.setStream e { x.stream e with wait := false }
  | .copy d t j => s.modTile d t fun x => { x with jobs := x.jobs.map fun q => if q.id = j then { q with wait := false } else q }
  | _ => s

/-- Answers a quiet read of the dispatcher: its page is absent, or its translation has failed (03 R70, 14 R305). -/
def State.answerQuiet (s : State) (a : Access) (failed : Bool) : State :=
  match a.agent with
  | .dispatcher d n => (s.dropAccess a.id).modRecord d n fun r => { r with peer := r.peer ++ [⟨true, a.va, failed, [], false⟩] }
  | .strand _ _ _ | .pe _ _ _ _ | .stream _ _ _ | .copy _ _ _ | .tile _ | .routed _ _ _ => s.dropAccess a.id

/-- Ends an access that translation has failed: a fault word, the end of a stream's or copy's run, the failure of a staged task,
BADREC for a GINST, nothing for a line operation or a hint, or a report to its agent (10 R244, R249, 06 R149, R158, 02 R48, 14 R305, 15
R341, 17 R405). -/
def State.failWalk (s : State) (a : Access) (r : Report) : State :=
  if a.isXlt then s.answerWord a (faultWord a.va r.cause)
  else if a.quiet then s.answerQuiet a true
  else match a.kind, a.agent with
    | .flush _, _ => s.finish a
    | .pref, _ => s.finish a
    | _, .stream d t e => (s.endWalk a).streamFault d t e r a.data
    | _, .copy d t j => (s.endWalk a).copyFault d t j r
    | _, .dispatcher d n => (s.endWalk a).failTask d n r FaultAt.none
    | _, .strand _ _ _ => if a.isGinst then s.reply a 4 else s.faultAccess a r
    | _, _ => s.faultAccess a r

/-! ### Meanings -/

/-- Starts an XLT or XLTN that has issued: a fault word at once for an address outside the tables, a cached translation, or a
walk (18 R441). -/
def State.startXlt (s : State) (a : Access) : State :=
  if 2 ^ 57 ≤ a.va ∨ inWindow a.va ∨ !(s.context a.part).valid then s.answerWord a (faultWord a.va 5)
  else match s.tlbFind a.agent a.part a.va with
    | some e => s.answerXlt a e
    | none => s.waitWalk a

/-- XLT (18 R441). -/
def execXlt (d a : Reg) (o : Order) (s : State) : Out :=
  issue s [d, a] o fun s =>
    let x := { s.newAccess .xlt (s.me.rd a) 1 o.set.val with dst := d, data2 := 4 }
    (s.launch x).startXlt x

/-- Ends every walk that is outstanding: none installs, and the accesses that wait walk again (10 R247, R254). -/
def State.restartWalks (s : State) : State :=
  let s := { s with walks := [] }
  s.over (s.access.filter fun a => a.phase == .walk) fun a s => s.openWalk a

/-- Drops every cached translation and capability of a partition that overlaps [lo, hi], and ends the walks outstanding (10 R247). -/
def State.dropTranslations (s : State) (part : BitVec 4) (lo hi : Nat) : State :=
  let keep := fun (e : TlbEntry) => !(e.part == part && decide (e.vbase ≤ hi) && decide (lo < e.vbase + e.size))
  let drop := fun (x : Tile) => { x with utlb := x.utlb.map fun l => l.filter keep, caps := x.caps.filter fun c => keep c.2 }
  { s with
    tiles := s.tiles.map fun x => (x.1, drop x.2)
    dies := s.dies.map fun f => { f with tlb := f.tlb.filter keep } : State }.restartWalks

/-- TLBI: the translations drop and the walks outstanding end in its own step, so it completes at once (18 R434, 10 R247, log 7). -/
def execTlbi (a b : Reg) (s : State) : Out :=
  issue s [a, b] Order.none fun s =>
    let lo := (s.me.rd a).toNat
    let hi := (s.me.rd b).toNat
    if hi < lo ∨ 2 ^ 57 ≤ lo ∨ 2 ^ 57 ≤ hi then s.illOperand (.tlbi a b)
    else (s.modMe Strand.next).dropTranslations s.here.part lo hi

end Sys2Proof.Machine
end

