-- ==== Sys2Proof/Machine/Window.lean ====
section
/-! DEFINITION. Memory-tile operations: their issue by a strand, and the pipeline step that performs each (08 R211 to R214,
03 R78, R79, 11 R268, 15 R329, R330, R333, 16 R355, R356, R377, 18 R431, R432, R435). -/
namespace Sys2Proof.Machine

/-! ### Words -/

/-- A window word as a partition sees it: another tag reads as a plain zero (10 R252). -/
def State.wordFor (s : State) (part : BitVec 4) (off : Nat) : WindowWord :=
  let w := s.word off
  if w.part = part then w else ⟨0, .plain, part, false⟩

/-- Sends the reply of a window operation: two result words, the status, and poison, with the address of the first poisoned byte as the first word
of an operation that works on more words than its own (08 R213, 11 R255, log 9). It leaves by the port through which the operation came. -/
def State.tileReply (s : State) (a : Access) (v v2 : Word) (stat : Nat) (psn : Bool) : State :=
  let off := a.va - windowBase
  let p := { Packet.zero with src := s.windowNode off, dst := a.agent.dieNo, ndf := 1, line := off / 128, txn := a.txn, part := a.part,
                              gen := a.gen, stat := BitVec.ofNat 8 stat, psn := psn, data := BitVec.ofNat 1024 (v.toNat + v2.toNat * 2 ^ 64) }
  { s.modAccess a.id (fun b => { b with phase := .window }) with net := s.net ++ [⟨17, 0, p, 0, 0, p.src, a.port, 0⟩] }

/-- The accesses that wait at an object of the window, in the order in which they joined. -/
def State.waitersOf (s : State) (off : Nat) : List Access := (s.windowWait.filter fun e => e.1 == off).filterMap fun e => s.access? e.2
/-- Those that wait with one operation. -/
def State.waitersFor (s : State) (off op : Nat) : List Access := (s.waitersOf off).filter fun a => a.op == op && a.phase == .waiter
/-- Takes an access off the list of an object. -/
def State.leave (s : State) (off id : Nat) : State := { s with windowWait := s.windowWait.filter fun e => !(e.1 == off && e.2 == id) }
/-- Puts an access on the list of an object, in a phase; one that stands there keeps its place. -/
def State.list (s : State) (off : Nat) (a : Access) (ph : Phase) : State :=
  let s := s.modAccess a.id fun b => { b with phase := ph }
  if s.windowWait.contains (off, a.id) then s else { s with windowWait := s.windowWait ++ [(off, a.id)] }
/-- An operation joins the waiters of an object; with 16 there already the control processor retries it (16 R356, 18 R435,
log 13). -/
def State.join (s : State) (off : Nat) (a : Access) : State :=
  if 16 ≤ ((s.waitersOf off).filter fun b => b.phase == .waiter && b.id != a.id).length then
    (s.leave off a.id).modAccess a.id fun b => { b with phase := .retry }
  else s.list off a .waiter

/-- Writes the fault record of a waiter of a broken barrier; its task goes on (11 R256, R268). -/
def State.barrierRecord (s : State) (a : Access) (off : Nat) : State :=
  match a.agent with
  | .strand d t n =>
    let x := s.tile d t
    match x.task with
    | none => s
    | some r => match s.record d r with
      | some q => s.faultRecord d q ⟨0xD, 0, BitVec.ofNat 64 off⟩ ⟨(x.strand n).wid, x.relX t, x.relY t, n⟩
      | none => s
  | _ => s

/-- What a plain store to a word does to the object it held: a barrier breaks, a lock frees every waiting TSB, not taken (08
R211, 11 R268, 18 R435). -/
def State.breakObject (s : State) (off : Nat) : State :=
  match (s.word off).kind with
  | .barrier => s.over (s.waitersFor off opBarw) fun a s => ((s.leave off a.id).tileReply a 0 0 1 false).barrierRecord a off
  | .lock => s.over (s.waitersFor off opTsb) fun a s => (s.leave off a.id).tileReply a (BitVec.allOnes 64) 0 3 false
  | .plain | .queue | .table => s

/-- Writes `n` bytes of a window word: a word of another kind becomes plain, another tag's word is zeroed first, and poison
goes with a whole clean word (08 R211, 10 R252, 11 R260). -/
def State.storeWord (s : State) (part : BitVec 4) (a n v : Nat) (psn : Bool) : State :=
  let off := a / 8 * 8
  let w := s.wordFor part off
  (s.breakObject off).setWord off
    ⟨BitVec.ofNat 64 (setBits w.bits.toNat (8 * (a % 8)) (8 * n) v), .plain, part, psn || (w.psn && decide (n < 8))⟩

/-! ### Edge queues -/

/-- The descriptor's base: aligned to 32 bytes (03 R78). -/
def queueBase (off : Nat) : Nat := off / 32 * 32
/-- A descriptor as a partition sees it: HEAD, TAIL, word 2, word 3. -/
def State.queueWords (s : State) (part : BitVec 4) (off : Nat) : List WindowWord :=
  (List.range 4).map fun i => s.wordFor part (off + 8 * i)
/-- Whether a descriptor is malformed (03 R79). -/
def queueMalformed (w : List WindowWord) : Bool :=
  match w with
  | [h, t, b, c] =>
    let lcap := bits c.bits.toNat 0 5
    w.any (fun x => x.kind == .barrier || x.kind == .lock || x.kind == .table) || bits b.bits.toNat 57 7 != 0
      || bits c.bits.toNat 5 59 != 0 || bits b.bits.toNat 0 6 != 0 || lcap == 0 || decide (20 < lcap)
      || decide (2 ^ lcap < (t.bits - h.bits).toNat)
  | _ => true

/-- How an attempt at an edge-queue operation ends: answered, waiting for HEAD or TAIL to move, or holding its descriptor while its ring
access goes on (16 R356). -/
inductive Attempt where
  | done (s : State) | stay (s : State) | hold (s : State)

/-- Whether an operation code waits. -/
def opBlocks (op : Nat) : Bool := op == opEqput true || op == opEqget true
/-- Whether an operation on a descriptor holds every later one: its ring access awaits a walk, a page or a line (16 R356). -/
def State.descriptorHeld (s : State) (off : Nat) : Bool :=
  (s.waitersOf off).any fun a => isEdge a.op && (a.phase == .walk || a.phase == .page || a.phase == .ring)

/-- The ring address that an edge-queue operation works on (16 R356). -/
def State.ringAddress (s : State) (a : Access) : Nat :=
  match s.queueWords a.part (queueBase (a.va - windowBase)) with
  | [h, t, b, c] => bits b.bits.toNat 0 57 + 8 * ((if isPut a.op then t.bits else h.bits).toNat % 2 ^ bits c.bits.toNat 0 5)
  | _ => 0

/-- The plain words of a descriptor become queue words of the partition (16 R356). -/
def State.queueKind (s : State) (part : BitVec 4) (off : Nat) : State :=
  s.over (List.range 4) fun i s => s.setWord (off + 8 * i) { s.wordFor part (off + 8 * i) with kind := .queue }

/-- Answers an edge-queue operation with a status other than 0: it acquires nothing (03 R79, 16 R355). -/
def State.queueStatus (s : State) (a : Access) (st : Nat) : State :=
  s.tileReply a (if isPut a.op then BitVec.ofNat 64 st else 0) (BitVec.ofNat 64 st) 2 false

/-- The packet of a ring access: the memory tile reads or writes the entry as an uncached access that the line's home performs (03 R79, 16
R356). -/
def ringPacket (a : Access) (node dst pa txn kidx : Nat) : Packet :=
  { Packet.zero with
    src := node, dst := dst, line := pa / 128, boff := pa % 128, size := 3, txn := txn, part := a.part, gen := a.gen,
    aux := homeCode (if isPut a.op then 1 else 0) false kidx, ndf := if isPut a.op then 1 else 0, enables := 255,
    data := BitVec.ofNat 1024 a.data.toNat }

/-- The ring access of an edge-queue operation at address `va`, translated in the issuing strand's PART and GKEY (03 R79, 16 R356). A ring
outside local HBM faults PERM (log 14). -/
def State.ringStep (s : State) (a : Access) (va : Nat) : Attempt :=
  let off := queueBase (a.va - windowBase)
  let w := BitVec.ofNat 64 va
  let stop := fun (r : Report) => Attempt.done (s.faultAccess a r)
  if 2 ^ 57 ≤ va ∨ inWindow va ∨ !(s.context a.part).valid then stop ⟨5, 1, w⟩
  else match s.tlbFind a.agent a.part va with
    | none => .hold ((s.list off a .walk).waitWalk { a with pa := va })
    | some e => match checkEntry s e a.part a.gkey (if isPut a.op then .write else .read) va with
      | some r => stop r
      | none =>
        let pa := e.pa va
        let node := s.windowNode off
        let t := s.newTxn node
        if bits pa 50 2 ≠ 0 then stop ⟨6, 5, w⟩
        else if s.lostHome (pa / 128) then stop ⟨8, 1, w⟩
        else .hold (((s.list off a .ring).modAccess a.id fun b => { b with pa := va, ringTxn := t }).send (if isPut a.op then 14 else 13)
          (ringPacket a node (s.homeNode (pa / 128)) pa t e.kidx))

/-- One attempt at an edge-queue operation (16 R356). -/
def State.queueAttempt (s : State) (a : Access) : Attempt :=
  let off := queueBase (a.va - windowBase)
  let w := s.queueWords a.part off
  match (List.range 4).find? fun i => (s.wordFor a.part (off + 8 * i)).psn with
  | some i => .done (s.tileReply a (BitVec.ofNat 64 (windowBase + off + 8 * i)) 0 2 true)
  | none =>
    if queueMalformed w then .done (s.queueStatus a 2)
    else match w with
      | [h, t, _, c] =>
        let used := (t.bits - h.bits).toNat
        if used = (if isPut a.op then 2 ^ bits c.bits.toNat 0 5 else 0) then
          (if opBlocks a.op then .stay (s.queueKind a.part off) else .done ((s.queueKind a.part off).queueStatus a 1))
        else s.ringStep a (s.ringAddress a)
      | _ => .done s

/-- Performs an edge-queue operation whose ring access has been answered: HEAD or TAIL moves; a poisoned entry leaves the ring and is
reported at its address (16 R356). -/
def State.ringDone (s : State) (a : Access) (v : Nat) (psn : Bool) : State :=
  let off := queueBase (a.va - windowBase)
  let w := fun (i : Nat) => s.wordFor a.part (off + 8 * i)
  let k := s.queueKind a.part off
  let s := if isPut a.op then
      (k.setWord (off + 8) ⟨(w 1).bits + 1, .queue, a.part, false⟩).tileReply a 0 0 0 false
    else (k.setWord off ⟨(w 0).bits + 1, .queue, a.part, false⟩).tileReply a (BitVec.ofNat 64 (if psn then a.pa else v)) 0 0 psn
  s.leave off a.id

/-! ### Tag tables -/

/-- TLOOK and TEVICT miss; TINS full; malformed table (18 R431). -/
def codeMiss : Word := 0x8000000000000001
/-- FULL. -/
def codeFull : Word := 0x8000000000000002
/-- MALF. -/
def codeMalf : Word := 0x8000000000000003

/-- Performs a tag-table operation: the state after it and the word it returns, or the address of the first poisoned word (08 R214, 11 R255,
18 R432). -/
def State.tableOp (s : State) (part : BitVec 4) (op off : Nat) (b : Word) : State × Word × Bool :=
  let h := s.wordFor part off
  let h1 := s.wordFor part (off + 8)
  let ways := bits h.bits.toNat 8 4
  let lsets := bits h.bits.toNat 0 5
  let offs := (List.range (2 + ways * 2 ^ lsets)).map fun i => off + 8 * i
  let struck := fun (o : Nat) => BitVec.ofNat 64 (windowBase + o)
  if h.psn || h1.psn then (s, struck (if h.psn then off else off + 8), true)
  else if bits h.bits.toNat 12 52 ≠ 0 ∨ bits h.bits.toNat 5 3 ≠ 0 ∨ h1.bits ≠ 0 ∨ ways = 0 ∨ 8 < ways ∨ 14 < lsets
      ∨ 0x200000 < off % 0x200000 + 16 + 8 * ways * 2 ^ lsets then (s, codeMalf, false)
  else if offs.any (fun o => let k := (s.wordFor part o).kind
      k == .barrier || k == .lock || k == .queue) then (s, codeMalf, false)
  else
    let s := s.over offs fun o s => s.setWord o { s.wordFor part o with kind := .table }
    let key := bits b.toNat 0 47
    let set := key % 2 ^ lsets
    let slots := (List.range ways).map fun k => off + 16 + 8 * (ways * set + k)
    let hit := slots.find? fun o => flagOf (s.word o).bits.toNat 63 && bits (s.word o).bits.toNat 0 47 == key
    match slots.find? fun o => (s.word o).psn with
    | some o => (s, struck o, true)
    | none =>
    if op = opTins then
      match slots.find? fun o => !flagOf (s.word o).bits.toNat 63 with
      | some o => (s.setWord o { s.word o with bits := BitVec.ofNat 64 (2 ^ 63 + bits b.toNat 47 16 * 2 ^ 47 + key) }, 0, false)
      | none => (s, codeFull, false)
    else match hit with
      | none => (s, codeMiss, false)
      | some o =>
        let w := s.word o
        let slot := BitVec.ofNat 64 (bits w.bits.toNat 47 16)
        if op = opTevict then (s.setWord o { w with bits := BitVec.ofNat 64 (bits w.bits.toNat 0 63) }, slot, false) else (s, slot, false)

/-! ### One pipeline step -/

/-- BARA at a word (15 R329). -/
def State.arrive (s : State) (a : Access) (off : Nat) : State :=
  let w := s.wordFor a.part off
  if w.kind != .barrier then s.tileReply a 0 0 1 false
  else
    let v := w.bits.toNat
    let p := bits v 32 16
    let arr := bits v 16 16 + 1
    if arr = bits v 0 16 then
      let s := s.setWord off { w with bits := BitVec.ofNat 64 (setBits (setBits v 16 16 0) 32 16 (p + 1)) }
      let s := s.over ((s.waitersFor off opBarw).filter fun b => b.data.toNat == p) fun b s => (s.leave off b.id).tileReply b 0 0 0 false
      s.tileReply a (BitVec.ofNat 64 p) 0 0 false
    else (s.setWord off { w with bits := BitVec.ofNat 64 (setBits v 16 16 arr) }).tileReply a (BitVec.ofNat 64 p) 0 0 false

/-- TSB at a word (18 R435). A TSB that does not take the lock acquires nothing: status 3. -/
def State.takeLock (s : State) (a : Access) (off : Nat) : State :=
  let w := s.wordFor a.part off
  let w := if w.kind == .plain then { w with kind := .lock, bits := 0, psn := false } else w
  if w.kind != .lock then s.tileReply a (BitVec.allOnes 64) 0 3 false
  else if flagOf w.bits.toNat 63 then (s.setWord off w).join off a
  else (s.setWord off { w with bits := a.data ||| BitVec.ofNat 64 (2 ^ 63), psn := false }).tileReply a (BitVec.ofNat 64 (bits w.bits.toNat 0 63)) 0 0 false

/-- LREL at a word (16 R377). -/
def State.releaseLock (s : State) (a : Access) (off : Nat) : State :=
  let w := s.wordFor a.part off
  if w.kind != .lock || !flagOf w.bits.toNat 63 then s.tileReply a 0 0 0 false
  else match s.waitersFor off opTsb with
    | b :: _ =>
      let s := s.setWord off { w with bits := b.data ||| BitVec.ofNat 64 (2 ^ 63) }
      ((s.leave off b.id).tileReply b (BitVec.ofNat 64 (bits w.bits.toNat 0 63)) 0 0 false).tileReply a 0 0 0 false
    | [] => (s.setWord off { w with bits := BitVec.ofNat 64 (bits w.bits.toNat 0 63) }).tileReply a 0 0 0 false

/-- BARW at a word: it returns at once unless its phase is open (15 R333). -/
def State.awaitBarrier (s : State) (a : Access) (off : Nat) : State :=
  let w := s.wordFor a.part off
  if w.kind != .barrier then s.tileReply a 0 0 1 false
  else if bits w.bits.toNat 32 16 ≠ a.data.toNat then s.tileReply a 0 0 0 false
  else s.list off a .waiter

/-- An edge-queue operation at its descriptor (16 R356). -/
def State.queueOp (s : State) (a : Access) : State :=
  match s.queueAttempt a with
  | .done s => s
  | .stay s => s.join (queueBase (a.va - windowBase)) a
  | .hold s => s

/-- Performs a window operation as one indivisible step (08 R212); `held` stands for the operations that waited behind a descriptor. Poisoned
words answer poison (11 R260, log 10), and so does every word of a failed M-die, but for BARA and BARW, whose barrier has broken (11
R269, log 76); the kind of a barrier or lock word is judged first (11 R268, 15 R329, R333). -/
def State.windowPerform (s : State) (a : Access) : State :=
  let off := a.va - windowBase
  let w8 := off / 8 * 8
  let w := s.wordFor a.part w8
  let op := a.op
  let old := bits w.bits.toNat (8 * (off % 8)) (8 * a.bytes)
  let value := BitVec.ofNat 64 old
  if s.lostWord off && op != opBara && op != opBarw then s.tileReply a (BitVec.ofNat 64 a.va) 0 2 true
  else if isEdge op then s.queueOp a
  else if op = opLoad then s.tileReply a value 0 0 w.psn
  else if op = opStore then (s.storeWord a.part off a.bytes a.data.toNat (a.data2 != 0)).tileReply a 0 0 0 false
  else if op = opCas then
    (if old = a.data.toNat % 2 ^ (8 * a.bytes) then s.storeWord a.part off a.bytes a.data2.toNat w.psn else s).tileReply a value 0 0 w.psn
  else if op = opBari then
    ((s.breakObject w8).setWord w8 ⟨BitVec.ofNat 64 (bits a.data.toNat 0 16), .barrier, a.part, false⟩).tileReply a 0 0 0 false
  else if op = opTlook ∨ op = opTins ∨ op = opTevict then
    let (s, v, psn) := s.tableOp a.part op w8 a.data
    s.tileReply a v 0 0 psn
  else if 16 ≤ op then
    match AtomicOp.ofCode (op - 16) with
    | some o =>
      (s.storeWord a.part off a.bytes (o.apply a.bytes old a.data.toNat) ((w.psn && o != .swap) || a.data2 != 0)).tileReply a value 0 0 w.psn
    | none => s
  else if op = opBara then s.arrive a w8
  else if op = opBarw then s.awaitBarrier a w8
  else if op = opTsb then s.takeLock a w8
  else if op = opLrel then s.releaseLock a w8
  else s

/-- Serves the first operation of a descriptor's list that can be performed: one that was held behind the descriptor, or a waiting
edge-queue operation (16 R356). -/
def State.serveFirst (s : State) (off : Nat) : List Access → Option State
  | [] => none
  | a :: rest =>
    if a.phase == .held then some ((s.leave off a.id).windowPerform { a with phase := .window })
    else if a.phase == .waiter && isEdge a.op then
      match s.queueAttempt a with
      | .done s => some (s.leave off a.id)
      | .hold s => some s
      | .stay s => s.serveFirst off rest
    else s.serveFirst off rest

/-- Serves a descriptor's list in the order in which its operations joined, each time HEAD or TAIL moves, until one holds it (16 R356). -/
def State.serveQueue (s : State) (off : Nat) : Nat → State
  | 0 => s
  | n + 1 =>
    if s.descriptorHeld off then s
    else match s.serveFirst off (s.waitersOf off) with
      | some s => s.serveQueue off n
      | none => s

/-- Lets the operations on a descriptor try. -/
def State.serveAll (s : State) (off : Nat) : State := s.serveQueue off (2 * (s.waitersOf off).length + 1)

/-- A window operation reaches its memory tile: behind an operation that holds its descriptor it waits; otherwise it is performed, and the
operations that wait at the descriptor try again (08 R212, 16 R356). -/
def State.windowStep (s : State) (a : Access) : State :=
  let off := queueBase (a.va - windowBase)
  if s.descriptorHeld off then s.list off a .held else (s.windowPerform a).serveAll off

/-! ### Issue -/

/-- TLOOK (18 R431). -/
def execTlook (d a b : Reg) (o : Order) (s : State) : Out :=
  issueMem s [d, a, b] o fun s =>
    s.startWindow (s.me.rd a) (bits (s.me.rd b).toNat 47 17 == 0)
      { s.newAccess .load (s.me.rd a) 16 o.set.val with dst := d, data := s.me.rd b } opTlook 4
/-- TINS (18 R431). -/
def execTins (d a b : Reg) (o : Order) (s : State) : Out :=
  issueMem s [d, a, b] o fun s =>
    s.startWindow (s.me.rd a) true { s.newAccess .load (s.me.rd a) 16 o.set.val with dst := d, data := s.me.rd b } opTins 4
/-- TEVICT (18 R431). -/
def execTevict (d a b : Reg) (o : Order) (s : State) : Out :=
  issueMem s [d, a, b] o fun s =>
    s.startWindow (s.me.rd a) (bits (s.me.rd b).toNat 47 17 == 0)
      { s.newAccess .load (s.me.rd a) 16 o.set.val with dst := d, data := s.me.rd b } opTevict 4
/-- BARI (15 R330). -/
def execBari (a b : Reg) (o : Order) (s : State) : Out :=
  issueMem s [a, b] o fun s =>
    let v := (s.me.rd b).toNat
    s.startWindow (BitVec.ofNat 64 (encode (.bari a b o))) (decide (1 ≤ v) && decide (v ≤ 65535))
      { s.newAccess .load (s.me.rd a) 8 o.set.val with data := s.me.rd b } opBari 3
/-- BARA (15 R329). -/
def execBara (d a : Reg) (o : Order) (s : State) : Out :=
  issueMem s [d, a] o fun s =>
    s.startWindow (s.me.rd a) true { s.newAccess .load (s.me.rd a) 8 o.set.val with dst := d } opBara 3
/-- BARW (15 R333). -/
def execBarw (a b : Reg) (o : Order) (s : State) : Out :=
  issueMem s [a, b] o fun s =>
    s.startWindow (BitVec.ofNat 64 (encode (.barw a b o))) (bits (s.me.rd b).toNat 16 48 == 0)
      { s.newAccess .load (s.me.rd a) 8 o.set.val with data := s.me.rd b } opBarw 3
/-- TSB (18 R435). -/
def execTsb (d a b : Reg) (o : Order) (s : State) : Out :=
  issueMem s [d, a, b] o fun s =>
    s.startWindow (BitVec.ofNat 64 (encode (.tsb d a b o))) (bits (s.me.rd b).toNat 63 1 == 0)
      { s.newAccess .load (s.me.rd a) 8 o.set.val with dst := d, data := s.me.rd b } opTsb 3
/-- LREL (16 R377). -/
def execLrel (a : Reg) (o : Order) (s : State) : Out :=
  issueMem s [a] o fun s => s.startWindow (s.me.rd a) true (s.newAccess .load (s.me.rd a) 8 o.set.val) opLrel 3
/-- EQPUT (16 R355). -/
def execEqput (d a b : Reg) (k : Bool) (o : Order) (s : State) : Out :=
  issueMem s [d, a, b] o fun s =>
    s.startWindow (s.me.rd a) true
      { s.newAccess .load (s.me.rd a) 32 o.set.val with dst := d, data := s.me.rd b } (opEqput k) 5
/-- EQGET (16 R355). -/
def execEqget (d a b : Reg) (k : Bool) (o : Order) (s : State) : Out :=
  issueMem s [d, a, b] o fun s =>
    s.startWindow (s.me.rd a) true { s.newAccess .load (s.me.rd a) 32 o.set.val with dst := d, dst2 := b } (opEqget k) 5

/-- WAITER_RETRY: an operation that found a full list is sent again; one that waits at a descriptor that an operation ahead of it has
released tries again (15 R328, 16 R356, 18 R435). -/
def execWaiterRetry (k : Nat) (s : State) : Out :=
  match s.access? k with
  | some a =>
    if a.phase == .retry then .next ((s.modAccess k fun b => { b with sent := false }).enter { a with sent := false } .window)
    else if a.phase == .held || (a.phase == .waiter && isEdge a.op) then .next (s.serveAll (queueBase (a.va - windowBase)))
    else .next s
  | none => .next s

end Sys2Proof.Machine
end

