-- ==== Sys2Proof/Machine/Walks.lean ====
section
/-! DEFINITION. The levels of a page walk and its end, line operations and hints once their line is translated, and page answers (10 R240 to
R251, 15 R341, 17 R405). -/
namespace Sys2Proof.Machine

/-! ### The levels of a walk -/

/-- What a table entry `e` read at a level of a walk says: the table and level that come next, or how the walk ends (10 R240 to R244). A frame
or table beyond the populated size is judged where it is used. -/
def walkEntry (w : PageWalk) (e : Nat) : WalkEnd ⊕ (Nat × Nat) :=
  let sh := (levelShift w.level).1
  if bits e 63 1 = 0 then .inl .notPresent
  else if bits e 62 1 = 0 then
    let next := bits e 8 44 * 256
    if bits e 52 10 ≠ 0 ∨ bits e 0 8 ≠ 0 ∨ w.level = 3 ∨ bits next 50 2 ≠ 0 ∨ next % (8 * 2 ^ (levelShift (w.level + 1)).2) ≠ 0 then
      .inl .malformed
    else .inr (next, w.level + 1)
  else
    let frame := bits e 12 36 * 65536
    let size := 2 ^ sh
    let va := w.granule * 65536
    if bits e 0 8 ≠ 0 ∨ w.level = 0 ∨ frame % size ≠ 0 ∨ bits frame 50 2 = 3 then .inl .malformed
    else .inl (.leaf ⟨w.part, w.cgen, va - va % size, size, frame, BitVec.ofNat 8 (e / 2 ^ 54), bits e 48 6, flagOf e 11, flagOf e 10,
      flagOf e 9, flagOf e 8⟩)

/-- The entry of a walk has been read: the walk goes on to the next level or ends; a poisoned entry is judged before its V bit (10 R240,
R243). -/
def State.walkStep (s : State) (w : PageWalk) (e : Nat) (psn : Bool) : State :=
  if psn then s.setWalk { w with result := some .poisoned }
  else match walkEntry w e with
    | .inl r => s.setWalk { w with result := some r }
    | .inr (table, level) =>
      let w := { w with table := table, level := level }
      (s.setWalk w).readEntry w

/-! ### Line operations and hints -/

/-- The line of a line operation or hint: its leaf fails no check of R244, grants what `ok` asks, and maps cacheable local HBM (15 R341, 17
R405). -/
def State.hintLine (s : State) (a : Access) (e : TlbEntry) (ok : TlbEntry → Bool) : Option Nat :=
  if (checkEntry s e a.part a.gkey .none a.va).isNone && ok e && e.c && bits (e.pa a.va) 50 2 == 0 then some (e.pa a.va / 128) else none

/-- A line operation: the L1 copy goes, and the die cache gives up its tokens, the owner token too when `owner` holds (15 R341). -/
def State.lineOp (s : State) (a : Access) (e : TlbEntry) (owner : Bool) : State :=
  match s.hintLine a e fun e => e.r || e.w with
  | none => s
  | some line =>
    let d := a.agent.dieNo
    let s := s.modTile d a.agent.place.2 fun t => { t with l1 := tdel t.l1 line }
    let c := s.cacheLine d line
    if c.tok != 0 && (owner || !c.own) then s.evictLine d line else s

/-- A hint asks for its line unless the die cache can read it; it completes when the die cache has finished (17 R405, 04 R93). -/
def State.hint (s : State) (a : Access) (e : TlbEntry) : State :=
  match s.hintLine a e fun e => e.r with
  | none => s.finish a
  | some line =>
    let d := a.agent.dieNo
    if (s.cacheLine d line).serves false then s.finish a
    else (s.modAccess a.id fun b => { b with phase := .cache, pa := line * 128 }).openMiss d line false a.part true

/-! ### The end of a walk -/

/-- An access goes on with its translation (10 R244, R249, log 12). -/
def State.translated (s : State) (a : Access) (e : TlbEntry) : State :=
  match a.kind with
  | .flush owner => (s.lineOp a e owner).finish a
  | .pref => s.hint a e
  | .window _ => (s.modAccess a.id fun b => { b with phase := .waiter }).serveAll (queueBase (a.va - windowBase))
  | .xlt => if a.isXlt then s.answerXlt a e else s.endWalk a
  | .load | .store | .atomic _ | .cas | .fence => match checkEntry s e a.part a.gkey a.kind.need a.va with
    | some r => s.faultAccess a r
    | none => s.route a e

/-- An access ends because its translation has failed; an edge-queue operation leaves its descriptor unchanged to the operations behind it (10
R244, 16 R356). -/
def State.failAccess (s : State) (a : Access) (r : Report) : State :=
  match a.kind with
  | .window _ =>
    let off := queueBase (a.va - windowBase)
    ((s.leave off a.id).faultAccess a r).serveAll off
  | .load | .store | .atomic _ | .cas | .fence | .xlt | .flush _ | .pref => s.failWalk a r

/-- The walk of an access has ended: a translation is installed and the access goes on, V = 0 raises or joins a page request, the rest, a
frame beyond the populated size among it, faults (10 R243, R244, R246, R250). Line operations and hints raise nothing (15 R341, 17 R405). -/
def State.endWait (s : State) (a : Access) (r : WalkEnd) : State :=
  let va := BitVec.ofNat 64 a.walkVa
  match r with
  | .context => s.failAccess a ⟨5, 1, va⟩
  | .malformed => s.failAccess a ⟨5, 3, va⟩
  | .poisoned => s.failAccess a ⟨8, 6, va⟩
  | .notPresent =>
    if a.quiet then s.answerQuiet a false
    else match a.kind with
      | .flush _ | .pref => s.finish a
      | .load | .store | .atomic _ | .cas | .fence | .xlt | .window _ => s.pageRequest a.agent.dieNo a
  | .leaf e => if s.beyond e a.walkVa then s.failAccess a ⟨5, 3, va⟩ else (s.tlbInstall a.agent e).translated a e

/-- WALK_COMPLETION: the walk that access `k` waits for has ended, and with it every access that joined it; an access whose walk ended
without it, or that found no room at its walker, looks its translation up again (10 R244, R246, R248, R250). -/
def execWalkCompletion (k : Nat) (s : State) : Out :=
  match s.access? k with
  | none => .next s
  | some a =>
    if a.phase != .walk then .next s
    else match s.walkOf a with
      | some w => match w.result with
        | some r =>
          let go := fun (b : Access) (s : State) => match s.access? b.id with
            | some b => if b.phase == .walk then s.endWait b r else s
            | none => s
          .next (State.over { s with walks := s.walks.filter fun x => !x.is w.node w.txn } (s.walkWaiters w) go)
        | none => .next s
      | none =>
        if !(s.context a.part).valid then .next (s.endWait a .context)
        else match s.tlbFind a.agent a.part a.walkVa with
          | some e => .next (s.translated a e)
          | none => .next (s.openWalk a)

/-! ### Page answers -/

/-- Gives a waiter its page answer: it walks again, or ends with PFAIL; one whose region is gone is dropped and counted (10 R251, 02 R51, 16
R356). -/
def State.answerWaiter (s : State) (d k : Nat) (failed : Bool) : State :=
  match s.access? k with
  | none => s.countGen d
  | some a =>
    if a.phase != .page then s
    else if failed then s.failAccess a ⟨0xF, 0, BitVec.ofNat 64 a.walkVa⟩
    else (s.unpark a.agent).waitWalk a

end Sys2Proof.Machine
end

