-- ==== Sys2Proof/Machine/Peers.lean ====
section
/-! DEFINITION. The ends of what crosses UALink: requests of this device, pieces of an engine, and the requests that stations serve (06 R150, 09
R233, R236, 12 R276, R277). -/
namespace Sys2Proof

/-- Whether a request has a size that the station implements (12 R276). -/
def UaReq.sizeOk (r : UaReq) : Bool :=
  (match r.op with
    | .read => r.bytes == 64 || r.bytes == 256 | .write => r.bytes == 64 || r.bytes == 256
    | .atomic _ => r.bytes == 4 || r.bytes == 8 | .cas => r.bytes == 4 || r.bytes == 8) && r.off % (max r.bytes 1) == 0

end Sys2Proof

namespace Sys2Proof.Machine

/-- Ends an entry's write: the entry is freed, its stores complete or fault PAGE, and what waited for it goes on (09 R236, 12
R277, log 17). -/
def State.endRemoteWrite (s : State) (d k : Nat) (error : Bool) : State :=
  match (s.die d).rwb.find? (fun e => e.seq == k) with
  | none => s
  | some e =>
    let s := s.modDie d fun f => { f with rwb := f.rwb.filter fun x => x.seq != k }
    let s := { s with uaOut := s.uaOut.filter fun u => u.entry != some (d, k) }
    let s := s.over e.waits fun w s => match s.access? w.2 with
      | some a => if error then s.faultAccess a ⟨5, 3, BitVec.ofNat 64 a.va⟩ else s.finishReply a
      | none => s
    (s.over ((s.access.filter fun a => a.kind == .fence && a.agent.dieNo == d).map (·.agent)) fun g s => s.settleStrand g).kick d

/-- Gives an engine or the dispatcher the answer to one of its pieces (06 R150, log 12). -/
def State.enginePiece (s : State) (a : Access) (error : Bool) (data : List Byte) (psn : Bool) : State :=
  let got : PeerPiece := ⟨a.kind == .store, a.va, error, data, psn⟩
  let s := s.dropAccess a.id
  if !s.live a then s.countGen a.agent.dieNo
  else match a.agent with
  | .stream d t e => s.modTile d t fun x => x.setStream e { x.stream e with wait := false, peer := (x.stream e).peer ++ [got] }
  | .copy d t j => s.modTile d t fun x => { x with jobs := x.jobs.map fun q =>
      if q.id = j then { q with wait := false, peer := q.peer ++ [got] } else q }
  | .dispatcher d n => s.modRecord d n fun x => { x with peer := x.peer ++ [got] }
  | .strand _ _ _ | .pe _ _ _ _ | .tile _ | .routed _ _ _ => s

/-- Ends an access to a peer, or a remote write, by the answer to its request: an error completion faults PAGE, poison POISON (12 R277, R279,
log 17); an access whose region is gone drops the answer (02 R51). -/
def State.peerAnswered (s : State) (u : UaOut) (r : UaRsp) : State :=
  match u.entry, u.access with
  | some (d, k), _ => s.endRemoteWrite d k r.error
  | none, none => s
  | none, some k => match s.access? k with
    | none => s.countGen u.die
    | some a => match a.agent with
      | .strand _ _ _ =>
        if r.error then s.faultAccess a ⟨5, 3, BitVec.ofNat 64 a.va⟩
        else if r.psn then s.faultAccess a ⟨8, 1, BitVec.ofNat 64 a.va⟩
        else if a.reads then s.reply a (a.extendValue (fromBytes ((r.data.drop (a.pa % 64)).take a.bytes)))
        else s.finishReply a
      | .stream _ _ _ | .copy _ _ _ | .dispatcher _ _ => s.enginePiece a r.error r.data r.psn
      | .pe _ _ _ _ | .tile _ | .routed _ _ _ => s.dropAccess a.id

/-- Answers a peer (12 R277). -/
def State.answerPeer (s : State) (r : UaReq) (error : Bool) (data : List Byte) (psn : Bool) : State :=
  { s with peerAnswer := some (r.src, ⟨r.id, error, data, psn⟩) }

/-- The node of the station that serves a request (log 73). -/
def State.stationNode (s : State) (q : PeerReq) : Nat := s.homeNode (q.req.off / 128)

/-- A station has the answer of every line of a request: it answers the peer, or the own request that came back (08 R193, 12 R277). -/
def State.peerDone (s : State) (q : PeerReq) : State :=
  let s := { s with peerReqs := s.peerReqs.filter fun x => x.txn != q.txn || x.req != q.req }
  let got := q.got.flatMap (·.2)
  let data := match q.req.op with
    | .write => []
    | .read => got
    | .atomic _ | .cas => got
  match q.own with
  | none => s.answerPeer q.req false data q.bad
  | some k => match s.uaOut.find? fun u => u.id == k with
    | none => s
    | some u =>
      let pad := if q.req.op == UaOp.read then data else List.replicate (q.req.off % 64) 0 ++ data
      (State.peerAnswered { s with uaOut := s.uaOut.filter fun v => v.id != k } u ⟨k, false, pad, q.bad⟩).releaseUalink

/-- The home of one line of a station's request has answered (12 R277). -/
def State.peerPiece (s : State) (q : PeerReq) (p : Packet) : State :=
  let n := if q.req.bytes ≤ 128 then q.req.bytes else 128
  let x := { q with left := q.left.erase p.line, got := tput q.got p.line (toBytes p.data.toNat n), bad := q.bad || p.psn }
  let s := { s with peerReqs := s.peerReqs.map fun y => if y = q then x else y }
  if x.left.isEmpty then s.peerDone x else s

end Sys2Proof.Machine
end

