-- ==== Sys2Proof/Machine/Network.lean ====
section
/-! DEFINITION. Token coherence, homes, the serialising ring, memory-tile traffic, and the packets that carry them (08 R196 to
R213, 09 R232 to R234, 11 R259). -/
namespace Sys2Proof.Machine

/-! ### Die caches -/

/-- Counts a failed attempt of a miss: the first is sent again, the second makes the request persistent (08 R204). -/
def State.failAttempt (s : State) (d line : Nat) (m : Miss) : State :=
  let m := { m with fails := m.fails + 1, ticket := false }
  let s := s.setMiss d line m
  if m.fails = 1 then s.sendTransient d line m 1 else s.nextPersistent d

/-- The active place of a die's activation table for a line: the requester slot (08 R206). -/
def State.activeFor (s : State) (d line : Nat) : Option Nat :=
  ((s.die d).acts.find? fun e => e.2.active && e.2.line == line).map (·.1)
/-- The node of a requester slot (08 R205). -/
def State.slotNode (s : State) (slot line : Nat) : Nat := if slot < 8 then slot else s.homeNode line

/-- Makes room for a line in a die cache: a full set gives up a line of the part's choice (08 R196, R209, log 2). -/
def State.makeRoom (s : State) (d line : Nat) : State :=
  let set := (s.die d).lines.filter fun e => e.1 % 24576 == line % 24576 && e.1 != line
  if (s.cacheLine d line).tok = 0 ∧ 16 ≤ set.length then
    let (v, s) := s.pick set.length
    match lget set v with
    | some (x, _) => s.evictLine d x
    | none => s
  else s

/-- Adds tokens to a die cache line (08 R196). -/
def State.addTokens (s : State) (d : Nat) (p : Packet) (data : Bool) : State :=
  let line := p.line
  let c := s.cacheLine d line
  let s := s.makeRoom d line
  let c := if data && !c.own then { c with data := p.data, valid := true, psn := p.psn, part := p.part, key := p.key } else c
  s.setCacheLine d line { c with tok := c.tok + p.tok, own := c.own || p.own, dirty := if p.own then p.drty else c.dirty }

/-- TOKD or TOKN at a die cache: sent on while a persistent request is active for the line, with the data only beside the owner token, added
to a line that is present or missed, otherwise sent on to the home (08 R204, R206). -/
def State.tokensAtDie (s : State) (d : Nat) (p : Packet) (data : Bool) : State :=
  let line := p.line
  let l : LineData := ⟨p.data, p.key, p.part, p.psn⟩
  let onward := fun (n : Nat) => s.sendTokens d n line p.txn p.tok p.own p.drty p.own l
  match s.activeFor d line with
  | some slot => if slot = d then s.addTokens d p data else onward (s.slotNode slot line)
  | none =>
    if (s.cacheLine d line).tok != 0 || (tget (s.die d).misses line).isSome then
      let s := s.addTokens d p data
      match tget (s.die d).misses line with
      | some m => if m.hint || !s.wanted d line then s.settleMiss d line else s
      | none => s
    else onward (s.homeNode line)

/-! ### Homes -/

/-- Whether a request is an SC operation: AUX[8] (09 R233, log 9). -/
def scPacket (p : Packet) : Bool := p.aux.testBit 8

/-- Whether the home keeps a line's tokens for an SC access that waits for the serialising token: it marks the request with the 16 tokens once
they are gathered (09 R233). -/
def State.homeHolds (s : State) (line : Nat) : Bool := s.homeWait.any fun p => p.line == line && scPacket p && p.tok == 16

/-- The tracker entries in use at a home slice: uncached requests that wait and entries kept for a GRANT (08 R203, R204). -/
def State.trackerUse (s : State) (slice : Nat) : Nat :=
  (s.homeWait.filter fun p => s.homeSlice p.line == slice).length + tgetD s.trackers slice 0

/-- Gives a freed tracker entry to the oldest ticket of a slice (08 R204). -/
def State.grantNext (s : State) (slice : Nat) : State :=
  match tgetD s.tickets slice [] with
  | (d, line) :: rest =>
    if s.trackerUse slice < 32 then
      { s with tickets := tput s.tickets slice rest, trackers := tput s.trackers slice (tgetD s.trackers slice 0 + 1) }.send 7
        { Packet.zero with src := s.homeNode line, dst := d, line := line }
    else s
  | [] => s
/-- Frees a tracker entry that was kept for a GRANT (08 R204). -/
def State.freeTracker (s : State) (slice : Nat) : State :=
  { s with trackers := tput s.trackers slice (tgetD s.trackers slice 0 - 1) }.grantNext slice

/-- What an uncached or SC request makes of its line at the home: none where it writes nothing (08 R208, 09 R231, log 9). -/
def homeWrite (l : LineData) (p : Packet) (key old : Nat) : Option LineData :=
  let n := 2 ^ p.size
  let op := p.aux % 256
  let v := p.data.toNat
  let put := fun (x : Nat) => lineWrite l p.line p.part key p.boff n x p.psn
  if op = 1 then some (lineMerge l p.line p.part key p.boff n v p.enables p.psn)
  else if op = 2 then (if old = v % 2 ^ (8 * n) then some (put (v / 2 ^ 64 % 2 ^ (8 * n))) else none)
  else (AtomicOp.ofCode (op - 16)).bind fun o => if 16 ≤ op then some (put (o.apply n old v)) else none

/-- The bytes of a write by a strand reach its tile's L1 copy (08 R195, 09 R226). -/
def State.writeL1 (s : State) (a : Access) (old : Nat) : State :=
  match a.newValue old, a.agent with
  | some v, .strand d t _ => s.l1Update d t a.pa a.part a.bytes v
  | _, _ => s

/-- Performs an uncached or SC request at the home, which holds all 16 tokens, and replies (08 R208, 09 R233). The walker reads an entry as it
is stored (10 R240, log 72). -/
def State.homePerform (s : State) (p : Packet) : State :=
  let s := s.homeFill p.line
  let l := s.homeData p.line
  let n := 2 ^ p.size
  let op := p.aux % 256
  let key := (s.keyOf p.part (p.aux / 512 % 64)).getD 0
  let old := if op = 3 then bits l.data.toNat (8 * p.boff) (8 * n) else lineRead l p.line p.part key p.boff n
  let s := match homeWrite l p key old with
    | some x =>
      let s := s.setHomeData p.line x
      match s.accessOf p.src p.txn with
      | some a => if p.src < 8 then s.writeL1 a old else s
      | none => s
    | none => s
  s.send 15 { Packet.zero with
    src := s.homeNode p.line, dst := p.src, ndf := if op = 1 then 0 else (n + 31) / 32, line := p.line, boff := p.boff, size := p.size, txn := p.txn,
    part := p.part, gen := p.gen, psn := op != 1 && l.psn && (op == 3 || l.part == p.part), data := if op = 1 then 0 else BitVec.ofNat 1024 old }

/-- A persistent entry that is activated and not yet deactivated (08 R205). -/
def Persistent.active (e : Persistent) : Bool := e.state == 1 || e.state == 3
/-- A persistent entry that keeps the next one of its line waiting (08 R205). -/
def Persistent.busy (e : Persistent) : Bool := e.state == 1 || e.state == 2 || e.state == 3
/-- The persistent entry of a line that is activated. -/
def State.activeEntry (s : State) (line : Nat) : Option Persistent := s.persistent.find? fun e => e.line == line && e.active
/-- Puts a persistent entry in place of another. -/
def State.putEntry (s : State) (e x : Persistent) : State := { s with persistent := s.persistent.map fun y => if y = e then x else y }
/-- The F-dies that answer on the network. -/
def State.onlineDies (s : State) : List Nat := (List.range 8).filter fun d => s.serving d

/-- Sends PACT or PDEACT to every die cache (08 R205, R206). -/
def State.tellDies (s : State) (opc : Nat) (e : Persistent) : State :=
  s.over s.onlineDies fun d s => s.send opc { Packet.zero with src := s.homeNode e.line, dst := d, line := e.line, aux := e.slot * 4096 + e.epoch }

/-- Activates the next request for a line: the oldest one, unless one is active or being deactivated, or it is a recall of an M-die that has
one active (08 R205, R208). A request that is done already is activated and then deactivated (log 75). -/
def State.activateNext (s : State) (line : Nat) : State :=
  if s.persistent.any fun e => e.line == line && e.busy then s
  else match s.persistent.find? fun e => e.line == line && (e.state == 0 || e.state == 4) && (decide (e.slot < 8) ||
      !s.persistent.any fun r => r.slot == e.slot && r.busy) with
    | none => s
    | some e =>
      let epoch := (tgetD s.epochs e.slot 0 + 1) % 4096
      let x := { e with state := if e.state = 4 then 3 else 1, epoch := epoch, acks := s.onlineDies.length }
      (State.putEntry { s with epochs := tput s.epochs e.slot epoch } e x).tellDies 9 x

/-- Starts or defers the deactivation of a request that is done; `now` starts it whatever acknowledgements are out, and those are then waited for
with its own (08 R205, R209). -/
def State.deactivate (s : State) (e : Persistent) (now : Bool) : State :=
  if e.acks = 0 || now then
    let x := { e with state := 2, acks := e.acks + s.onlineDies.length }
    (s.putEntry e x).tellDies 10 x
  else s.putEntry e { e with state := 3 }

/-- Serves the uncached requests that wait for a line whose 16 tokens are at home: plain ones at once; for SC ones the tokens are kept until
the serialising token comes, but at a failed M-die, where the ring no longer goes, they are served at once too (08 R208, 09 R233, 11 R269). -/
def State.serveHome (s : State) (line : Nat) : State :=
  s.over (s.homeWait.filter fun p => p.line == line) fun p s =>
    if scPacket p && !s.lostHome line then { s with homeWait := s.homeWait.map fun q => if q = p then { q with tok := 16 } else q }
    else (State.homePerform { s with homeWait := s.homeWait.erase p } p).grantNext (s.homeSlice line)

/-- Sends the tokens that a home holds for a line to a node. -/
def State.sendHomeTokens (s : State) (dst line txn : Nat) : State :=
  let s := s.homeFill line
  let h := s.home line
  (s.setHome line { h with tok := 0, own := false }).sendTokens (s.homeNode line) dst line txn h.tok h.own false h.own (s.homeData line)

/-- An active recall is done with all 16 tokens at home (08 R208). -/
def State.endRecall (s : State) (line : Nat) : State :=
  match s.activeEntry line with
  | some e => if 8 ≤ e.slot ∧ e.state = 1 ∧ (s.home line).tok = 16 then s.deactivate e false else s
  | none => s

/-- A recall of a line's tokens, unless one stands already (08 R208). -/
def State.recall (s : State) (line : Nat) : State :=
  if s.persistent.any fun e => e.line == line && decide (8 ≤ e.slot) then s
  else State.activateNext { s with persistent := s.persistent ++ [(⟨line, s.homeNode line, 0, 0, 0⟩ : Persistent)] } line

/-- What a home does when its share of a line, or what waits for it, has changed: tokens go to the active persistent requester
unless an SC access keeps them; with all 16 it serves what waits; otherwise it asks for a recall (08 R205, R206, R208). -/
def State.homeSettle (s : State) (line : Nat) : State :=
  let h := s.home line
  let waiting := s.homeWait.any fun p => p.line == line
  match s.activeEntry line with
  | some e =>
    if e.slot < 8 then (if h.tok ≠ 0 ∧ !s.homeHolds line then s.sendHomeTokens e.slot line 0 else s)
    else if h.tok = 16 then (s.serveHome line).endRecall line
    else s
  | none =>
    if h.tok = 16 then ((if waiting then s.serveHome line else s).activateNext line).endRecall line
    else if waiting && !s.persistent.any (fun e => e.line == line && decide (8 ≤ e.slot)) then s.recall line
    else s.activateNext line

/-- TOKD or TOKN at the home; data is stored with the owner token (08 R203, R209). -/
def State.tokensAtHome (s : State) (p : Packet) : State :=
  let s := if p.own then s.setHomeData p.line ⟨p.data, p.key, p.part, p.psn⟩ else s
  let h := s.home p.line
  (s.setHome p.line { h with tok := h.tok + p.tok, own := h.own || p.own }).homeSettle p.line

/-- Poisons a line that is short of tokens: all 16 are at its home, the active request ends, and the control node is told (08
R209). -/
def State.poisonLine (s : State) (line : Nat) : State :=
  let s := s.over (List.range 8) fun d s => s.setCacheLine d line CacheLine.none
  let s := { s with net := s.net.filter fun n => !((n.opc == 3 || n.opc == 4) && n.p.line == line) }
  let s := s.setHomeData line { s.homeData line with psn := true }
  let s := s.setHome line { s.home line with tok := 16, own := true }
  let s := match s.activeEntry line with
    | some e => s.deactivate e true
    | none => s
  s.raiseEvent 5 (s.homeNode line) (BitVec.ofNat 64 line) 0

/-- The tokens of a line that its home, the die caches and the packets hold. -/
def State.tokenCount (s : State) (line : Nat) : Nat :=
  (s.home line).tok + ((List.range 8).map fun d => if s.serving d then (s.cacheLine d line).tok else 0).sum
    + ((s.net.filter fun n => (n.opc == 3 || n.opc == 4) && n.p.line == line).map (·.p.tok)).sum

/-! ### Transient and persistent packets -/

/-- The answer of a home to a transient request: none while a persistent request, a recall or an SC access has the line; from a tracker entry,
or REFUSE, or TICKET to a second attempt, which keeps a place that it has already; an attempt after GRANT is answered from the entry kept for it, which is then free (08 R203,
R204, R206, 09 R233). -/
def State.homeTransient (s : State) (p : Packet) (answer : State → State) : State :=
  let line := p.line
  let slice := s.homeSlice line
  let n := s.homeNode line
  let silent := (s.activeEntry line).isSome || s.homeHolds line
  if p.aux = 2 then (if silent then s else answer s).freeTracker slice
  else if silent then s
  else if 32 ≤ s.trackerUse slice then
    if p.aux = 0 then s.send 5 { Packet.zero with src := n, dst := p.src, line := line, txn := p.txn, part := p.part }
    else
      let q := tgetD s.tickets slice []
      let q := if q.contains (p.src, line) then q else q ++ [(p.src, line)]
      { s with tickets := tput s.tickets slice q }.send 6
        { Packet.zero with src := n, dst := p.src, line := line, txn := p.txn, part := p.part, aux := q.idxOf (p.src, line) }
  else answer s

/-- Answers GETS from a home (08 R203). -/
def State.homeShare (s : State) (p : Packet) : State :=
  let line := p.line
  let s := s.homeFill line
  let h := s.home line
  let l := s.homeData line
  let n := s.homeNode line
  if !h.own then s
  else if h.tok = 16 then (s.setHome line { h with tok := 0, own := false }).sendTokens n p.src line p.txn 16 true false true l
  else if h.tok = 1 then (s.setHome line { h with tok := 0, own := false }).sendTokens n p.src line p.txn 1 true false true l
  else (s.setHome line { h with tok := h.tok - 1 }).sendTokens n p.src line p.txn 1 false false true l

/-- Answers GETX from a home: all its tokens (08 R203). -/
def State.homeYield (s : State) (p : Packet) : State := s.sendHomeTokens p.src p.line p.txn

/-- GETS: a holder with the owner token gives one token and the data (08 R203). -/
def execGets (p : Packet) (s : State) : Out :=
  let d := p.dst
  if d < 8 then
    let c := s.cacheLine d p.line
    if (s.activeFor d p.line).isSome || !c.own then .next s
    else if c.tok = 1 then .next ((s.setCacheLine d p.line CacheLine.none).sendTokens d p.src p.line p.txn 1 true c.dirty true c.dataOf)
    else .next ((s.setCacheLine d p.line { c with tok := c.tok - 1 }).sendTokens d p.src p.line p.txn 1 false false true c.dataOf)
  else .next (s.homeTransient p fun s => s.homeShare p)
/-- GETX: a holder gives all its tokens (08 R203). -/
def execGetx (p : Packet) (s : State) : Out :=
  let d := p.dst
  if d < 8 then
    let c := s.cacheLine d p.line
    if (s.activeFor d p.line).isSome then .next s
    else .next ((s.setCacheLine d p.line CacheLine.none).sendTokens d p.src p.line p.txn c.tok c.own c.dirty c.own c.dataOf)
  else .next (s.homeTransient p fun s => s.homeYield p)
/-- TOKD (08 R204, R206, R209). -/
def execTokd (p : Packet) (s : State) : Out := .next (if p.dst < 8 then s.tokensAtDie p.dst p true else s.tokensAtHome p)
/-- TOKN (08 R204, R206, R209). -/
def execTokn (p : Packet) (s : State) : Out := .next (if p.dst < 8 then s.tokensAtDie p.dst p false else s.tokensAtHome p)

/-- The transient miss of a die that a reply answers. -/
def State.transientMiss (s : State) (d line txn : Nat) : Option Miss :=
  match tget (s.die d).misses line with
  | some m => if m.txn = txn ∧ !m.persistent ∧ m.fails < 2 then some m else none
  | none => none

/-- REFUSE: the attempt has failed (08 R204). -/
def execRefuse (p : Packet) (s : State) : Out :=
  match s.transientMiss p.dst p.line p.txn with
  | some m => .next (s.failAttempt p.dst p.line m)
  | none => .next s
/-- TICKET: the requester waits for its GRANT (08 R204). -/
def execTicket (p : Packet) (s : State) : Out :=
  match s.transientMiss p.dst p.line p.txn with
  | some m => .next (s.setMiss p.dst p.line { m with ticket := true })
  | none => .next s
/-- GRANT: the attempt is sent again, to all 8 holders, and the home answers it from the entry it keeps; a die that no longer waits for it in
the transient phase asks the home to free the entry (08 R203, R204, log 16). -/
def execGrant (p : Packet) (s : State) : Out :=
  let d := p.dst
  match tget (s.die d).misses p.line with
  | some m =>
    if m.persistent || decide (2 ≤ m.fails) then .next (s.freeTracker (s.homeSlice p.line))
    else
      let m := { m with ticket := false }
      .next ((s.setMiss d p.line m).sendTransient d p.line m 2)
  | none => .next (s.freeTracker (s.homeSlice p.line))

/-- PREQ: the request takes its place at the home and is activated in order of arrival; one whose PDONE came first is done already (08 R205,
log 75). -/
def execPreq (p : Packet) (s : State) : Out :=
  let early := s.persistent.find? fun e => e.line == p.line && e.slot == p.src && e.state == 5
  let e : Persistent := ⟨p.line, p.src, if early.isSome then 4 else 0, 0, 0⟩
  let rest := match early with
    | some x => s.persistent.erase x
    | none => s.persistent
  .next ((State.activateNext { s with persistent := rest ++ [e] } p.line).homeSettle p.line)

/-- Whether epoch `e` is later than `f` modulo 2^12 (08 R206). -/
def epochAfter (e f : Nat) : Bool := decide (0 < (e + 4096 - f % 4096) % 4096) && decide ((e + 4096 - f % 4096) % 4096 < 2048)

/-- PACT: a newer epoch makes the place active, and the die cache sends its tokens on; every PACT is acknowledged (08 R206). -/
def execPact (p : Packet) (s : State) : Out :=
  let d := p.dst
  let slot := p.aux / 4096
  let epoch := p.aux % 4096
  let old := tgetD (s.die d).acts slot ⟨0, 0, false⟩
  let ack := fun (s : State) => s.send 11 { Packet.zero with src := d, dst := p.src, line := p.line, aux := p.aux }
  if epochAfter epoch old.epoch then
    let s := s.modDie d fun f => { f with acts := tput f.acts slot ⟨p.line, epoch, true⟩ }
    if slot = d then .next (ack s)
    else
      let c := s.cacheLine d p.line
      .next (ack ((s.setCacheLine d p.line CacheLine.none).sendTokens d (s.slotNode slot p.line) p.line 0 c.tok c.own c.dirty c.own c.dataOf))
  else .next (ack s)
/-- PDEACT: an epoch that is not older clears the place (08 R206). The die whose request ends may send its next; a request that the home has
ended unserved starts again as a transient one (08 R205, R209, log 16). -/
def execPdeact (p : Packet) (s : State) : Out :=
  let d := p.dst
  let slot := p.aux / 4096
  let epoch := p.aux % 4096
  let old := tgetD (s.die d).acts slot ⟨0, 0, false⟩
  let s := if epochAfter epoch old.epoch || epoch == old.epoch then
      s.modDie d fun f => { f with acts := tput f.acts slot ⟨p.line, epoch, false⟩ }
    else s
  let s := s.send 11 { Packet.zero with src := d, dst := p.src, line := p.line, aux := p.aux }
  if slot ≠ d then .next s
  else
    let s := s.modDie d fun f => { f with preq := none }
    match tget (s.die d).misses p.line with
    | some m =>
      if m.persistent then
        let m := { m with persistent := false, fails := 0 }
        .next (((s.setMiss d p.line m).sendTransient d p.line m 0).nextPersistent d)
      else .next (s.nextPersistent d)
    | none => .next (s.nextPersistent d)
/-- PACK: the home counts acknowledgements; with the last one of a deactivation the request ends and the next is activated
(08 R205). -/
def execPack (p : Packet) (s : State) : Out :=
  let slot := p.aux / 4096
  match s.persistent.find? fun e => e.line == p.line && e.slot == slot && e.busy && e.epoch == p.aux % 4096 with
  | none => .next s
  | some e =>
    let x := { e with acks := e.acks - 1 }
    let s := s.putEntry e x
    if x.acks ≠ 0 then .next s
    else if e.state = 3 then .next (s.deactivate x false)
    else if e.state = 2 then
      let s := { s with persistent := s.persistent.erase x }
      let s := s.over ((s.persistent.map (·.line)).eraseDups) fun line s => (s.activateNext line).homeSettle line
      .next (s.homeSettle p.line)
    else .next s
/-- PDONE: the requester has performed its access; it may come before the activation, and before its PREQ (08 R205 to R207, log 75). -/
def execPdone (p : Packet) (s : State) : Out :=
  let mine := s.persistent.filter fun e => e.line == p.line && e.slot == p.src
  match mine.find? fun e => e.state == 1, mine.find? fun e => e.state == 0 with
  | some e, _ => .next (s.deactivate e false)
  | none, some e => .next (s.putEntry e { e with state := 4 })
  | none, none => .next (if mine.isEmpty then { s with persistent := s.persistent ++ [(⟨p.line, p.src, 5, 0, 0⟩ : Persistent)] } else s)

/-- TRANSIENT_TIMEOUT: an attempt fails (08 R204, log 4). -/
def execTransientTimeout (die line : Nat) (s : State) : Out :=
  match tget (s.die die).misses line with
  | some m => if m.persistent || decide (2 ≤ m.fails) then .next s else .next (s.failAttempt die line m)
  | none => .next s
/-- PERSISTENT_POISON_TIMEOUT: a line for which a persistent request is active and that is short of tokens is poisoned (08 R209, log 4). -/
def execPersistentPoisonTimeout (line : Nat) (s : State) : Out :=
  .next ((if (s.activeEntry line).isSome && s.tokenCount line != 16 then s.poisonLine line else s).homeSettle line)
/-- DIE_CACHE_EVICTION: a line leaves a die cache with its tokens (08 R209). -/
def execDieCacheEviction (die line : Nat) (s : State) : Out := .next (s.evictLine die line)

/-! ### Accesses at the die cache -/

/-- Performs an access with a die cache line that serves it (08 R194 to R196). -/
def State.cachePerform (s : State) (d : Nat) (a : Access) : State :=
  let line := a.pa / 128
  let c := s.cacheLine d line
  let key := (s.keyOf a.part a.kidx).getD 0
  let l := c.dataOf
  let old := lineRead l line a.part key (a.pa % 128) a.bytes
  let psn := l.psn && l.part == a.part
  let s := match a.newValue old with
    | some v =>
      let n := lineWrite l line a.part key (a.pa % 128) a.bytes v false
      (s.setCacheLine d line { c with data := n.data, key := n.key, part := n.part, psn := n.psn, dirty := true }).writeL1 a old
    | none => s
  let s := match a.agent, a.kind == .load && a.plain && a.cacheable && s.live a with
    | .strand d t _, true => s.l1Fill d t a.pa ⟨viewLine l line key, l.part, psn⟩
    | _, _ => s
  let s := s.settleMiss d line
  if a.reads then s.replyRead a (a.extendValue old) psn else s.finish a

/-- DIE_CACHE_ACCESS: access `k`, which waits at its die cache, is performed if the line holds the tokens it needs and its
strand's order lets it; otherwise its miss is opened. A hint completes once the line is there (08 R196, 09 R222, 17 R405). -/
def execDieCacheAccess (die k : Nat) (s : State) : Out :=
  match s.access? k with
  | none => .next s
  | some a =>
    let ready := (s.cacheLine die (a.pa / 128)).serves a.writes
    if a.phase != .cache || a.agent.dieNo != die then .next s
    else if a.kind == .pref then .next (if ready then s.finish a else s.openMiss die (a.pa / 128) false a.part true)
    else if !s.mayPerform a then .next s
    else if ready then .next (s.cachePerform die a)
    else .next (s.openMiss die (a.pa / 128) a.writes a.part false)

/-! ### Uncached accesses -/

/-- An uncached request reaches its home: with all 32 tracker entries in use it waits at the node's input; an SC request takes its place in the
queue of the slice's ring node as it arrives (08 R198, R208, 09 R232). -/
def State.uncachedArrive (s : State) (opc : Nat) (p : Packet) : State :=
  if scPacket p && !s.lostHome p.line then
    (State.joinSerial { s with homeWait := s.homeWait ++ [{ p with tok := 0 }] } (sliceNode (s.homeSlice p.line)) p.src p.txn).homeSettle p.line
  else if 32 ≤ s.trackerUse (s.homeSlice p.line) then s.waitAt opc p
  else State.homeSettle { s with homeWait := s.homeWait ++ [p] } p.line

/-- UCRD (08 R208). -/
def execUcrd (p : Packet) (s : State) : Out := .next (s.uncachedArrive 13 p)
/-- UCWR (08 R208). -/
def execUcwr (p : Packet) (s : State) : Out := .next (s.uncachedArrive 14 p)

/-- The ring access that a memory tile of a node has out under a transaction (16 R356). -/
def State.ringOf (s : State) (node txn : Nat) : Option Access :=
  s.access.find? fun a => a.phase == .ring && a.ringTxn == txn && s.windowNode (a.va - windowBase) == node
/-- The request of a station of a node (12 R277). -/
def State.stationOf (s : State) (node txn : Nat) : Option PeerReq := s.peerReqs.find? fun q => q.txn == txn && s.stationNode q == node

/-- A home's reply to an M-die: to its walker, to an edge queue at one of its memory tiles, or to a station (10 R240, 16 R356, 12 R277). -/
def State.replyAtMdie (s : State) (p : Packet) : State :=
  match s.walks.find? fun w => w.is p.dst p.txn && w.result.isNone, s.ringOf p.dst p.txn, s.stationOf p.dst p.txn with
  | some w, _, _ => s.walkStep w (bits p.data.toNat 0 64) p.psn
  | none, some a, _ => (s.ringDone a (bits p.data.toNat 0 64) p.psn).serveAll (queueBase (a.va - windowBase))
  | none, none, some q => s.peerPiece q p
  | none, none, none => s

/-- UCRSP: the reply of a home ends its access; one whose access is gone is dropped and counted (08 R201, 10 R253). -/
def execUcrsp (p : Packet) (s : State) : Out :=
  if 8 ≤ p.dst then .next (s.replyAtMdie p)
  else match s.accessOf p.dst p.txn with
    | none => .next (s.countGen p.dst)
    | some a =>
      if a.phase != .uncached && a.phase != .serial then .next s
      else match a.agent with
        | .strand _ _ _ | .pe _ _ _ _ | .tile _ | .routed _ _ _ =>
          if a.reads then .next (s.replyRead a (a.extendValue p.data.toNat) p.psn) else .next (s.finishReply a)
        | .stream _ _ _ | .copy _ _ _ | .dispatcher _ _ => .next (s.enginePiece a false (toBytes p.data.toNat (2 ^ p.size)) p.psn)

/-! ### Memory tiles -/

/-- The stream of an agent: a memory-port PE's requests are one stream (08 R213). -/
def Agent.source : Agent → Agent
  | .pe d t n _ => .pe d t n 0
  | g => g
/-- Whether a freeze has been asked for the region of an access. -/
def State.freezing (s : State) (a : Access) : Bool :=
  match (s.tile a.agent.place.1 a.agent.place.2).task.bind (s.record a.agent.place.1) with
  | some r => r.endReq == .freeze
  | none => false
/-- Whether a reply waits in the reorder buffer: an older request of its stream to its memory tile has no reply yet, and is not one that a
freeze removes from its wait (03 R80, 08 R213). -/
def State.heldBack (s : State) (a : Access) : Bool :=
  s.access.any fun b => b.agent.source == a.agent.source && decide (b.id < a.id) && b.sent && inWindow b.va
    && (b.va - windowBase) / 0x200000 == (a.va - windowBase) / 0x200000
    && !((b.phase != .window || s.inSerial b.agent.dieNo b.txn) && s.freezing b)

/-- MTOP: the operation is performed, or, for an SC access, waits at its tile for the serialising token; one whose region is gone is dropped
and counted (08 R212, 09 R233, 03 R80). -/
def execMtop (p : Packet) (s : State) : Out :=
  match s.accessOf p.src p.txn with
  | none => .next (s.countGen p.src)
  | some a =>
    if a.ord == .sc && !s.lostWord (a.va - windowBase) then .next (s.joinSerial (s.tileNode (a.va - windowBase)) p.src p.txn) else .next (s.windowStep a)

/-- Whether a window operation works on the one word that its address names: a load, a store, a CAS or an atomic. -/
def plainOp (op : Nat) : Bool := op == opLoad || op == opStore || op == opCas || decide (16 ≤ op)
/-- Delivers a memory-tile reply to a strand (08 R213; the reference entries of the operations). Poison is reported at the operation's word, or at
the address that the reply names (11 R255); an EQGET of a poisoned entry has been performed, so it writes its status (16 R356). -/
def State.windowReply (s : State) (a : Access) (p : Packet) (d t n : Nat) : State :=
  let v := BitVec.ofNat 64 (bits p.data.toNat 0 64)
  let v2 := BitVec.ofNat 64 (bits p.data.toNat 64 64)
  let a := if 2 ≤ p.stat.toNat then { a with noAcq := true } else a
  let holds := (s.tile d t).holds a.gen
  let s := if p.stat = 1 && holds then s.modStrand d t n fun x => { x with barbrk := true } else s
  let op := a.op
  let s := if isGet op && holds && !(p.psn && p.stat = 2) then s.modStrand d t n fun x => x.wr a.dst2 (if p.psn then 0 else v2) else s
  if p.psn then s.faultAccess a ⟨8, 1, if plainOp op then BitVec.ofNat 64 a.va else v⟩
  else if op = opLoad then s.reply a (a.extendValue v.toNat)
  else if a.reads then s.reply a v
  else s.finishReply a

/-- Delivers the old value of MAMO or MTAS to its delayed result; a poisoned one comes in the low half, and the status in the high half is clean
(17 R379, 05 R119, 11 R260). -/
def State.gridReply (s : State) (a : Access) (p : Packet) (d t pe id : Nat) : State :=
  let old := bits p.data.toNat 0 (8 * a.bytes)
  (if (s.tile d t).holds a.gen then s.modTile d t fun x => x.modPe pe fun q =>
      { q with delayed := q.delayed.map fun r =>
        if r.id = id then
          { r with kind := 0, flag := r.kind == 4 && (BitVec.ofNat 64 old &&& a.data) != 0,
                   word := { r.word with bits := BitVec.ofNat 128 old, psn := r.word.psn ||| (if p.psn then 1 else 0) } }
        else r }
   else s.countGen d).dropAccess a.id

/-- MTRSP: the word that an engine asked for, or the word that it wrote, or a strand's or PE's result. Replies of one stream reach their requester in the order of its requests (08 R213); one that is ahead of an older
one waits in the reorder buffer; one whose access is gone is dropped and counted (10 R253). -/
def execMtrsp (p : Packet) (s : State) : Out :=
  match s.accessOf p.dst p.txn with
  | none => .next (s.countGen p.dst)
  | some a =>
    if s.heldBack a then .next (s.waitAt 17 p)
    else match a.agent with
      | .strand d t n => .next (s.windowReply a p d t n)
      | .pe d t pe id => .next (s.gridReply a p d t pe id)
      | .stream _ _ _ => .next (s.enginePiece a (p.psn && p.stat != 0) (toBytes p.data.toNat a.bytes) p.psn)
      | .copy _ _ _ => .next (s.enginePiece a (p.psn && p.stat != 0) (toBytes p.data.toNat a.bytes) p.psn)
      | .dispatcher _ _ => .next (s.enginePiece a (p.psn && p.stat != 0) (toBytes p.data.toNat a.bytes) p.psn)
      | .tile _ => .next (s.dropAccess a.id)
      | .routed _ _ _ => .next (s.dropAccess a.id)

/-! ### The serialising ring -/

/-- Whether a request in a node's queue can be performed: a home has gathered its line's tokens (09 R233). -/
def State.serialReady (s : State) (e : Nat × Nat) : Bool :=
  match s.homeWait.find? fun p => p.src == e.1 && p.txn == e.2 && scPacket p with
  | some p => (s.home p.line).tok == 16 && p.tok == 16
  | none => true

/-- Performs an SC request that waits at a node (09 R232, R233). -/
def State.serialPerform (s : State) (k src txn : Nat) : State :=
  let out := s.leaveSerial k src txn
  match s.homeWait.find? fun p => p.src == src && p.txn == txn && scPacket p with
  | some p => ((State.homePerform { out with homeWait := out.homeWait.erase p } p).grantNext (s.homeSlice p.line)).homeSettle p.line
  | none => match s.accessOf src txn with
    | some a => if a.kind == .fence then out.finish a else if inWindow a.va then out.windowStep a else out
    | none => out

/-- The accesses that the token's visit at a node has still to perform: at most four of those that waited when it arrived, in order; one that
has been cancelled since is passed over (09 R232, R234). -/
def State.visitList (s : State) (node : Nat) : List (Nat × Nat) :=
  match s.scVisit with
  | some l => l.filter fun e => (s.waitersAt node).contains e
  | none => (s.waitersAt node).take 4

/-- Performs the accesses of a visit in order, up to the first whose line's tokens are not gathered yet: the rest of the list (09 R232,
R233, log 98). -/
def State.visit (node : Nat) : List (Nat × Nat) → State → List (Nat × Nat) × State
  | [], s => ([], s)
  | e :: rest, s => if s.serialReady e then State.visit node rest (s.serialPerform node e.1 e.2) else (e :: rest, s)

/-- SCT: the token visits the node it has reached, stays until the visit's accesses are performed, and goes on; the first node raises the lap
number, but for a token that it has just issued; a token of an older lap is dropped (09 R232, R234, log 98). -/
def execSct (p : Packet) (s : State) : Out :=
  if p.aux != s.scLap || s.firstNode == 2560 then .next s
  else
    let node := if s.ringUsable s.scAt then s.scAt else s.nextNode s.scAt
    let (rest, s) := State.visit node (s.visitList node) s
    if !rest.isEmpty then .next (State.waitAt { s with scVisit := some rest } 19 p)
    else
      let first := node == s.firstNode
      let lap := if first && !s.scFresh then (s.scLap + 1) % 65536 else s.scLap
      let at_ := s.nextNode node
      .next (State.send { s with scVisit := none, scAt := at_, scLap := lap, scFresh := s.scFresh && !first } 19
        { Packet.zero with src := ringDie node, dst := ringDie at_, aux := lap })

/-- The first node issues a new token with the next lap number; what waits is kept, and a token of an older lap is dropped when it arrives (09
R234). -/
def State.regenerate (s : State) : State :=
  let lap := (s.scLap + 1) % 65536
  if s.firstNode = 2560 then s
  else State.send { s with scLap := lap, scAt := s.firstNode, scFresh := true, scVisit := none } 19
    { Packet.zero with src := ringDie s.firstNode, dst := ringDie s.firstNode, aux := lap }

/-- SCLOST: the token has not been seen for 10 ms; the first node reports it and issues a new one (09 R234, log 4). -/
def execSclost (s : State) : Out :=
  if !s.plinth.booted || s.firstNode == 2560 then .next s
  else
    let t := s.regenerate
    .next (t.raiseEvent 4 (ringDie t.firstNode) (BitVec.ofNat 64 t.scLap) 0)

/-! ### Refused and unknown packets -/

/-- A refused request of an M-die is made again (08 R201, log 15). -/
def State.nackAtMdie (s : State) (p : Packet) : State :=
  match s.walks.find? fun w => w.is p.dst p.txn && w.result.isNone, s.ringOf p.dst p.txn, s.stationOf p.dst p.txn with
  | some w, _, _ => s.readEntry w
  | none, some a, _ => (s.modAccess a.id fun b => { b with phase := .waiter, ringTxn := 0 }).serveAll (queueBase (a.va - windowBase))
  | none, none, some q => State.station { s with peerReqs := s.peerReqs.erase q } q.own q.req
  | none, none, none => s

/-- NACK: a refused request of an access in flight is sent again; one refused by the generation check is dropped and counted
(08 R201, 10 R253, log 15). -/
def execNack (p : Packet) (s : State) : Out :=
  if 8 ≤ p.dst then .next (s.nackAtMdie p)
  else match s.accessOf p.dst p.txn with
    | none => .next s
    | some a =>
      if p.stat = 2 then .next ((s.countGen a.agent.dieNo).finish a)
      else if !a.sent then .next s
      else match a.agent with
        | .strand _ _ _ | .pe _ _ _ _ | .tile _ | .routed _ _ _ =>
          let a := { a with sent := false }
          .next ((s.modAccess a.id fun _ => a).push a)
        | .stream _ _ _ | .copy _ _ _ | .dispatcher _ _ => .next (s.endWalk a)

/-- Logs a dropped packet or message at a node: its header and the reason, 64 entries, and a counter that saturates (11 R259). -/
def State.logDrop (s : State) (node opc reserved : Nat) (p : Packet) (reason : Nat) : State :=
  s.modPlinth fun q =>
    let mine := q.malLog.filter fun e => e.1 == node
    let rest := q.malLog.filter fun e => e.1 != node
    { q with malLog := (node, packetHeader opc reserved p, reason) :: mine.take 63 ++ rest,
             malCount := tput q.malCount node (min (tgetD q.malCount node 0 + 1) 0xFFFFFFFF) }

/-- Whether an opcode is of the request class (08 R201). -/
def isRequest (opc : Nat) : Bool := opc == 1 || opc == 2 || opc == 13 || opc == 14 || opc == 16

/-- UNKNOWN_PACKET: dropped and logged, reason 0 unknown opcode, 1 reserved bits, 2 a field out of range; a request is
answered NACK 0x01 (08 R200, R201, 11 R259). -/
def execUnknownPacket (opc reserved : Nat) (p : Packet) (s : State) : Out :=
  let reason := if opc = 0 ∨ 0x15 ≤ opc then 0 else if p.malformed 0 then 2 else 1
  let s := s.logDrop p.dst opc reserved p reason
  if isRequest opc && decide (p.src < 17) then
    .next (s.send 20 { Packet.zero with src := p.dst % 17, dst := p.src, line := p.line, txn := p.txn, part := p.part, stat := 1 })
  else .next s

end Sys2Proof.Machine
end

