-- ==== Sys2Proof/Machine/EngineIo.lean ====
section
/-! DEFINITION. How engines read and write bytes: virtual addresses, the window, scratchpads, handles; and the CB8 decoder (06
R149, R150, R155, R161, 07 R188 to R190, 08 R192, R193, R196, R208, 11 R260, 12 R276, log 12). -/
namespace Sys2Proof.Machine

/-- A byte with the poison of its granule (11 R260). -/
abbrev PByte := Byte × Bool

/-- How an engine's access ends: with a value, waiting, or with a fault. -/
inductive Io (α : Type) where
  | ok (s : State) (v : α)
  | wait (s : State)
  | fault (r : Report)

/-- The identity of an engine that accesses memory: its agent, tile and task, the answers that it holds, and how many bytes from the
address of its next access on it goes on to read. `tag` is what a fault token names as the element's address. -/
structure Requester where
  agent : Agent
  die : Nat
  site : Nat
  part : BitVec 4
  gkey : BitVec 8
  gen : Nat
  peer : List PeerPiece
  tag : Word
  limit : Nat

/-- Marks an engine as waiting. -/
def State.await (s : State) (g : Agent) : State :=
  match g with
  | .stream d t e => s.modTile d t fun x => x.setStream e { x.stream e with wait := true }
  | .copy d t j => s.modTile d t fun x => { x with jobs := x.jobs.map fun q => if q.id = j then { q with wait := true } else q }
  | _ => s

/-- An access of an engine or the dispatcher to `n` bytes at `va`. -/
def Requester.access (q : Requester) (s : State) (kind : AccessKind) (ph : Phase) (va n need pa kidx : Nat) : Access :=
  { id := s.nextId, agent := q.agent, kind := kind, phase := ph, va := va, bytes := n, part := q.part, gkey := q.gkey, gen := q.gen,
    data := q.tag, data2 := BitVec.ofNat 64 need, dst := 0, dst2 := 0, signed := false, ord := .rlx, scp := .dev, slot := 0, pa := pa,
    kidx := kidx, cacheable := false, sent := true, mark := 0, plain := true, noAcq := false, txn := 0, ringTxn := 0, port := 0 }
/-- Puts an access of an engine in flight; the engine waits for it. -/
def State.startEngine (s : State) (q : Requester) (a : Access) : State := ({ s with nextId := s.nextId + 1 }.addAccess a).await q.agent
/-- Puts the walk of an engine in flight (10 R246, log 12). -/
def State.startWalk (s : State) (q : Requester) (code va : Nat) : State :=
  let a := { q.access s .xlt .walk va 1 code 0 0 with sent := false }
  (s.startEngine q a).waitWalk a

/-- Bytes with one poison mark. -/
def withPoison (bs : List Byte) (psn : Bool) : List PByte := bs.map fun b => (b, psn)
/-- Splits bytes into pieces that end at multiples of 8 from address `a` on. -/
def wordPieces (a : Nat) (bs : List PByte) : List (Nat × List PByte) :=
  (List.range ((a + bs.length + 7) / 8 - a / 8)).map fun i =>
    let lo := max a (8 * (a / 8 + i))
    (lo, (bs.drop (lo - a)).take (8 * (a / 8 + i) + 8 - lo))

/-- The answer that an engine holds for a read of a window word, or for a write at a window address (log 12). -/
def Requester.wordAt (q : Requester) (write : Bool) (va : Nat) : Option PeerPiece := q.peer.find? fun p => p.write == write && p.va == va
/-- The words that a read of `n` bytes at a window address touches. -/
def wordsOf (va n : Nat) : List Nat := (List.range ((va + n + 7) / 8 - va / 8)).map fun i => 8 * (va / 8 + i)
/-- Sends a load or store of a window word for an engine: it goes through the memory tile's ports and banks as any other (08 R211 to R213, 03
R79). -/
def State.sendWord (s : State) (q : Requester) (kind : AccessKind) (va n : Nat) (v : Word) (psn : Bool) : State :=
  let a := { q.access s kind .window va n (flagCode psn) 0 0 with data := v, sent := false }
  (s.startEngine q a).push a
/-- Reads window bytes word by word: the answers that the engine holds, or a request for the first word that it lacks (08 R192, R213, log 12). A
word of a failed M-die is a fault (11 R269). -/
def State.windowRead (s : State) (q : Requester) (va n : Nat) : Io (List PByte) :=
  match s.windowFault q.part va with
  | some r => .fault r
  | none =>
    if s.lostWord (va - windowBase) then .fault ⟨8, 3, BitVec.ofNat 64 va⟩
    else
      let held := (wordsOf va n).filterMap (q.wordAt false)
      match (wordsOf va n).find? fun w => (q.wordAt false w).isNone with
      | some w => .wait (s.sendWord q .load w 8 0 false)
      | none =>
        if held.any (·.error) then .fault ⟨8, 3, BitVec.ofNat 64 va⟩
        else .ok s (((held.flatMap fun p => withPoison p.data p.psn).drop (va % 8)).take n)
/-- Writes window bytes word by word: each is sent once the one before is acknowledged (08 R192, R213, log 12). -/
def State.windowStore (s : State) (q : Requester) (va : Nat) (bs : List PByte) : Io Unit :=
  match s.windowFault q.part va with
  | some r => .fault r
  | none =>
    if s.lostWord (va - windowBase) then .fault ⟨8, 3, BitVec.ofNat 64 va⟩
    else match (wordPieces va bs).find? fun w => (q.wordAt true w.1).isNone with
      | some w => .wait (s.sendWord q .store w.1 w.2.length (BitVec.ofNat 64 (fromBytes (w.2.map (·.1)))) (w.2.any (·.2)))
      | none =>
        if (wordPieces va bs).any fun w => (q.wordAt true w.1).any (·.error) then .fault ⟨8, 3, BitVec.ofNat 64 va⟩ else .ok s ()

/-- Translates an engine's access: a fault, a wait for a walk, or the entry (10 R244, R246). -/
def State.engineEntry (s : State) (q : Requester) (need : Need) (code va : Nat) : Io TlbEntry :=
  if 2 ^ 57 ≤ va ∨ !(s.context q.part).valid then .fault ⟨5, 1, BitVec.ofNat 64 va⟩
  else match s.tlbFind q.agent q.part va with
    | none => .wait (s.startWalk q code va)
    | some e => match checkEntry s e q.part q.gkey need va with
      | some r => .fault r
      | none => .ok s e

/-- What an engine's access to peer or local memory meets before it goes out: an own pod address that names nothing faults PAGE (08 R193, log
17), a line homed on a failed M-die POISON (11 R269). -/
def State.engineFault (s : State) (q : Requester) (e : TlbEntry) (va : Nat) : Option Report :=
  let pa := e.pa va
  let own := s.ownPeer pa
  if own && (decide (s.hbmSize ≤ s.frame pa) || (s.keyOf q.part e.kidx).isNone) then some ⟨5, 3, BitVec.ofNat 64 va⟩
  else if (bits pa 50 2 == 0 || own) && s.lostHome (s.frame pa / 128) then some ⟨8, 3, BitVec.ofNat 64 va⟩
  else none

/-- Sends an engine's access to local HBM to the home of its line as an uncached read or write (08 R208, log 9). -/
def State.sendPiece (s : State) (q : Requester) (a : Access) (bs : List PByte) : State :=
  let line := a.pa / 128
  let t := s.newTxn q.die
  if 65536 ≤ t then s
  else
    (s.startEngine q { a with txn := t }).send (if a.kind == .store then 14 else 13)
      { Packet.zero with src := q.die, dst := s.homeNode line, line := line, boff := a.pa % 128, size := Nat.log2 a.bytes, txn := t,
                         part := a.part, gen := a.gen, aux := a.homeOp, ndf := (bs.length + 31) / 32, enables := 2 ^ bs.length - 1,
                         psn := bs.any (·.2), data := BitVec.ofNat 1024 (fromBytes (bs.map (·.1))) }

/-- The size of the piece of peer memory that an engine asks for: an aligned 256-byte piece that it reads or writes whole, else 64 bytes (12
R276). DESIGN CHOICE (log 92): the piece is what the engine moves at once, so a stream engine and CPYC, which move an element and a block, ask for
64 bytes. -/
def pieceSize (va n : Nat) : Nat := if va % 256 = 0 ∧ 256 ≤ n then 256 else 64

/-- Sends an engine's read of a piece of peer memory (12 R276, R277). -/
def State.readPeer (s : State) (q : Requester) (e : TlbEntry) (code va : Nat) : State :=
  let n := pieceSize va q.limit
  let at_ := va / 64 * 64
  let a := q.access s .load .remote at_ n code (e.pa at_) e.kidx
  (s.startEngine q a).ualink q.die (bits a.pa 40 10) (some a.id) none ⟨0, 0, bits a.pa 0 40, .read, n, [], [], q.part, e.kidx, false, false⟩
/-- Sends an engine's write of bytes of one piece of peer memory (12 R276, R277, 11 R260). -/
def State.writePeer (s : State) (q : Requester) (e : TlbEntry) (va : Nat) (bs : List PByte) : State :=
  let n := pieceSize va bs.length
  let pa := e.pa va
  let o := pa % n
  let a := q.access s .store .remote va bs.length 1 pa e.kidx
  (s.startEngine q a).ualink q.die (bits pa 40 10) (some a.id) none
    ⟨0, 0, bits pa 0 40 - o, .write, n, List.replicate o 0 ++ bs.map (·.1) ++ List.replicate (n - o - bs.length) 0,
      (List.range n).map fun i => decide (o ≤ i) && decide (i < o + bs.length), q.part, e.kidx, bs.any (·.2), false⟩

/-- The answer that an engine holds for a read of `n` bytes at `va`: a piece that has the bytes, or an error at it. -/
def Requester.held (q : Requester) (va n : Nat) : Option PeerPiece :=
  q.peer.find? fun p => !p.write && (p.va == va / 64 * 64 || (decide (p.va ≤ va) && decide (va + n ≤ p.va + p.data.length)))

/-- Reads `n` bytes that lie in one 64-byte piece at a virtual address, or at a window address when `win` holds: from the host, the die cache, or
by a request of a window word, or of the aligned piece to a peer or a home, whose answer the engine holds (08 R192, R193, R196, R208, 12
R276, log 12). -/
def State.engineRead (s : State) (q : Requester) (need : Need) (code : Nat) (win : Bool) (va n : Nat) : Io (List PByte) :=
  if win || inWindow va then s.windowRead q va n
  else match s.engineEntry q need code va with
    | .wait s => .wait s
    | .fault r => .fault r
    | .ok s e =>
      let pa := e.pa va
      match s.engineFault q e va with
      | some r => .fault r
      | none =>
        if bits pa 50 2 = 1 then
          (if s.plinth.golfyUp then .ok s (withPoison (mbytes s.hostMem (bits pa 0 50) n) false) else .wait s)
        else if bits pa 50 2 = 0 ∧ e.c then
          let line := pa / 128
          let c := s.cacheLine q.die line
          if c.serves false then
            let l := c.dataOf
            .ok (s.settleMiss q.die line)
              (withPoison (toBytes (lineRead l line q.part ((s.keyOf q.part e.kidx).getD 0) (pa % 128) n) n) (l.psn && l.part == q.part))
          else .wait (s.openMiss q.die line false q.part false)
        else match q.held va n with
          | some p => if p.error then .fault ⟨5, 3, BitVec.ofNat 64 va⟩ else .ok s (withPoison ((p.data.drop (va - p.va)).take n) p.psn)
          | none =>
            let at_ := va / 64 * 64
            .wait (if bits pa 50 2 = 2 then s.readPeer q e code va
              else s.sendPiece q (q.access s .load .uncached at_ 64 code (e.pa at_) e.kidx) [])

/-- Writes bytes that lie in one 64-byte piece, or a whole aligned 256-byte piece of peer memory, at a virtual or window address; the write is
performed at device scope (06 R150). A poisoned byte that would leave through the Golfy port faults POISON (11 R260). -/
def State.engineWrite (s : State) (q : Requester) (win : Bool) (va : Nat) (bs : List PByte) : Io Unit :=
  let n := bs.length
  let bad := bs.any (·.2)
  if win || inWindow va then s.windowStore q va bs
  else match s.engineEntry q .write 1 va with
    | .wait s => .wait s
    | .fault r => .fault r
    | .ok s e =>
      let pa := e.pa va
      match s.engineFault q e va with
      | some r => .fault r
      | none =>
        if bits pa 50 2 = 1 then
          (if bad then .fault ⟨8, 3, BitVec.ofNat 64 (va + (bs.findIdx (·.2)))⟩
           else if s.plinth.golfyUp then .ok { s with hostMem := mputs s.hostMem (bits pa 0 50) (bs.map (·.1)) } () else .wait s)
        else if bits pa 50 2 = 0 ∧ e.c then
          let line := pa / 128
          let c := s.cacheLine q.die line
          if c.serves true then
            let l := lineWrite c.dataOf line q.part ((s.keyOf q.part e.kidx).getD 0) (pa % 128) n (fromBytes (bs.map (·.1))) bad
            .ok ((s.setCacheLine q.die line { c with data := l.data, key := l.key, part := l.part, psn := l.psn, dirty := true }).settleMiss
              q.die line) ()
          else .wait (s.openMiss q.die line true q.part false)
        else match q.peer.find? fun p => p.write && p.va == va with
          | some p => if p.error then .fault ⟨5, 3, BitVec.ofNat 64 va⟩ else .ok s ()
          | none =>
            .wait (if bits pa 50 2 = 2 then s.writePeer q e va bs else s.sendPiece q (q.access s .store .uncached va n 1 pa e.kidx) bs)

/-- Whether an engine's address lies in peer memory, as far as its translations say. -/
def State.peerFrame (s : State) (q : Requester) (va : Nat) : Bool :=
  match s.tlbFind q.agent q.part va with
  | some e => bits (e.pa va) 50 2 == 2
  | none => false

/-- The answers that an engine still needs when it goes on at address `a`. -/
def heldFrom (l : List PeerPiece) (a : Nat) : List PeerPiece := l.filter fun p => !p.write && decide (a < p.va + p.data.length)

/-! ### Scratchpads -/

/-- Reads scratchpad bytes for a partition, with the poison of their words. -/
def Tile.engineSpad (t : Tile) (part : BitVec 4) (a n : Nat) : List PByte :=
  (List.range n).map fun i => (((t.spadBytes part (a + i) 1).headD 0), t.spadPoisoned part (a + i) 1)
/-- Writes scratchpad bytes word by word, so that each word keeps its own poison. -/
def Tile.engineSpadWrite (t : Tile) (w : Racer) (coin : Nat → Nat) (part : BitVec 4) (a : Nat) (bs : List PByte) : Tile :=
  (wordPieces a bs).foldl (fun t p => t.raceWrite w coin part p.1 (p.2.map (·.1)) (p.2.any (·.2))) t

/-- Reads bytes of a handle's extent in linear order: 16-byte chunks through the swizzle (06 R146, R147). -/
def Tile.handleRead (t : Tile) (part : BitVec 4) (e : Handle) (o n : Nat) : List PByte :=
  (List.range n).map fun i =>
    let a := e.base + swizzle e.swz (o + i)
    (((t.spadBytes part a 1).headD 0), t.spadPoisoned part a 1)
/-- Writes bytes of a handle's extent in linear order, 16-byte pieces at a time (06 R146). -/
def Tile.handleWrite (t : Tile) (who : Nat) (coin : Nat → Nat) (part : BitVec 4) (e : Handle) (code : BitVec 5) (o : Nat) (bs : List PByte) : Tile :=
  (List.range ((o + bs.length + 15) / 16 - o / 16)).foldl (fun t i =>
    let lo := max o (16 * (o / 16 + i))
    t.engineSpadWrite (.engine who) coin part (e.base + swizzle code lo) ((bs.drop (lo - o)).take (16 * (o / 16 + i) + 16 - lo))) t

/-- Counts the bytes from offset `o` that engine command `who` has written into a handle that may be written (06 R142, R144): FREE goes to
FILLING, and FILLED reaching LEN gives FULL. -/
def Handle.count (e : Handle) (who o n : Nat) (code : BitVec 5) (psn : Bool) : Handle :=
  let e := if e.state == .free then { e.release with state := .filling, swz := code } else e
  let e := { e with filled := e.filled + n, psn := e.psn || psn, cover := Nat.lor e.cover ((2 ^ n - 1) * 2 ^ o), writers := sput e.writers who }
  if e.filled = e.len then { e with state := .full } else e

/-- A handle that has entered FULL has released its bytes: the engines' races for them are over (06 R145, 09 R230). -/
def Tile.releaseBytes (t : Tile) (e : Handle) : Tile :=
  if e.state == .full then
    { t with races := t.races.filter fun r => !r.writer.isEngine || decide (4 * r.word + 4 ≤ e.base) || decide (e.base + e.len ≤ 4 * r.word) }
  else t
/-- Writes into a handle of a tile and counts the bytes; the caller has found that it may. -/
def State.fillHandle (s : State) (d t who h : Nat) (part : BitVec 4) (code : BitVec 5) (o : Nat) (bs : List PByte) : State :=
  let e := (s.tile d t).handle h
  let n := e.count who o bs.length code (bs.any (·.2))
  let s := if e.state == .free then s.meetWaits d t h .filling else s
  ((s.modTile d t fun x => (x.handleWrite who s.coin part e code o bs).releaseBytes n).putHandle d t h n).coined

/-! ### The CB8 decoder -/

/-- The bits of a 32-bit word from bit 31 down. -/
def wordBits (w : Nat) : List Bool := (List.range 32).map fun i => w.testBit (31 - i)

/-- What one exponent code gives: a delta, or an escape's raw field. -/
inductive ExpCode where
  | delta (d : Int) | raw (e : Nat)
  deriving DecidableEq, Repr

/-- The raw field of an escape (07 R189). -/
def readEscape : List Bool → Option (ExpCode × List Bool)
  | a :: b :: c :: d :: r => some (.raw (8 * flagCode a + 4 * flagCode b + 2 * flagCode c + flagCode d), r)
  | _ => none

/-- Reads one code of a table, and the bits that follow it (07 R189). -/
def readCode (tbl : Nat) (l : List Bool) : Option (ExpCode × List Bool) :=
  match tbl, l with
  | 0, false :: r => some (.delta 0, r)
  | 0, true :: false :: r => some (.delta 1, r)
  | 0, true :: true :: false :: r => some (.delta (-1), r)
  | 0, true :: true :: true :: false :: r => some (.delta 2, r)
  | 0, true :: true :: true :: true :: r => readEscape r
  | 1, false :: false :: r => some (.delta 0, r)
  | 1, false :: true :: r => some (.delta 1, r)
  | 1, true :: false :: false :: r => some (.delta (-1), r)
  | 1, true :: false :: true :: false :: r => some (.delta 2, r)
  | 1, true :: false :: true :: true :: r => some (.delta (-2), r)
  | 1, true :: true :: false :: false :: r => some (.delta 3, r)
  | 1, true :: true :: false :: true :: r => some (.delta (-3), r)
  | 1, true :: true :: true :: r => readEscape r
  | 2, false :: false :: r => some (.delta 0, r)
  | 2, false :: true :: false :: r => some (.delta 1, r)
  | 2, false :: true :: true :: r => some (.delta (-1), r)
  | 2, true :: false :: false :: r => some (.delta 2, r)
  | 2, true :: false :: true :: r => some (.delta (-2), r)
  | 2, true :: true :: false :: false :: r => some (.delta 3, r)
  | 2, true :: true :: false :: true :: r => some (.delta (-3), r)
  | 2, true :: true :: true :: r => readEscape r
  | _, _ => none

/-- Reads `n` exponent fields; none where a field leaves 0 to 15 or the stream ends (07 R190). -/
def readExponents (tbl bexp : Nat) : Nat → List Bool → Option (List Nat × List Bool)
  | 0, l => some ([], l)
  | n + 1, l => match readCode tbl l with
    | none => none
    | some (c, r) =>
      let ex : Int := match c with | .delta d => bexp + d | .raw e => e
      if ex < 0 ∨ 15 < ex then none
      else match readExponents tbl bexp n r with
        | some (t, r) => some (ex.toNat :: t, r)
        | none => none

/-- The length that a block's header names (07 R188). -/
def cbLength (header : Nat) : Nat := bits header 20 6

/-- The decoder on the words of a block up to its header's length (07 R190); none for a malformed block. -/
def cbDecode (w : List Nat) : Option (List Byte) :=
  let h := w.headD 0
  let word := fun i => (lget w i).getD 0
  if bits h 0 20 ≠ 0 then none
  else if bits h 30 2 = 3 then
    if bits h 26 4 ≠ 0 ∨ cbLength h ≠ 17 then none else some ((w.drop 1).flatMap fun x => toBytes x 4)
  else match readExponents (bits h 30 2) (bits h 26 4) 64 ((w.drop 9).flatMap wordBits) with
    | none => none
    | some (ex, rest) =>
      if 32 ≤ rest.length ∨ rest.any id then none
      else
        let mant := fromBytes ((List.range 6).flatMap fun i => toBytes (word (3 + i)) 4)
        some (ex.mapIdx fun i e =>
          BitVec.ofNat 8 (bits (word (1 + i / 32)) (i % 32) 1 * 128 + e * 8 + bits mant (3 * i) 3))

/-- Bytes that the spec leaves open, as a poisoned block's (log 2). -/
def State.freeBytes (s : State) (n : Nat) : List Byte × State :=
  (toBytes (Config.choice s.freeCtr) n, { s with freeCtr := s.freeCtr + 1 })

/-- Reads units of `w` bytes one after another from an address. -/
def readUnits (read : State → Nat → Nat → Io (List PByte)) (w : Nat) (s : State) (a : Nat) : Nat → Io (List PByte)
  | 0 => .ok s []
  | n + 1 => match read s a w with
    | .ok s b => match readUnits read w s (a + w) n with
      | .ok s r => .ok s (b ++ r)
      | .wait s => .wait s
      | .fault r => .fault r
    | .wait s => .wait s
    | .fault r => .fault r

/-- Reads and decodes a CB8 block at an address (06 R161): its 64 bytes, its length in words, and whether its header's length is
outside 9 to 17. -/
def readBlock (read : State → Nat → Nat → Io (List PByte)) (s : State) (a : Nat) : Io (List PByte × Nat × Bool) :=
  match read s a 4 with
  | .wait s => .wait s
  | .fault r => .fault r
  | .ok s h =>
    let len := cbLength (fromBytes (h.map (·.1)))
    if len < 9 ∨ 17 < len then
      let (b, s) := s.freeBytes 64
      .ok s (withPoison b true, len, true)
    else match readUnits read 4 s (a + 4) (len - 1) with
      | .wait s => .wait s
      | .fault r => .fault r
      | .ok s rest =>
        let all := h ++ rest
        let word := fun i => fromBytes (((all.drop (4 * i)).take 4).map (·.1))
        match cbDecode ((List.range len).map word) with
        | some b => .ok s (withPoison b (all.any (·.2)), len, false)
        | none =>
          let (b, s) := s.freeBytes 64
          .ok s (withPoison b true, len, false)

end Sys2Proof.Machine
end

