-- ==== Sys2Proof/Machine/Copies.lean ====
section
/-! DEFINITION. Handles as the control processor uses them, copy descriptors, copies, templates and tokens (06 R142 to R153, R161
to R164, 15 R346 to R349, 16 R368 to R371). -/
namespace Sys2Proof.Machine

/-! ### Descriptors -/

/-- A copy descriptor read at a scratchpad offset: POISON if a byte of it is poisoned, ILL if it breaks R148. -/
def Tile.copyDesc (t : Tile) (at_ : Nat) (cb8 : Bool) : Except Report CopyDesc :=
  let w := fun i => t.spadRead t.part (at_ + 8 * i) 8
  let a := w 0
  let b := w 1
  let c := w 2
  let e := w 3
  let sk := bits c 62 2
  let dk := bits c 60 2
  let d : CopyDesc :=
    { descAddr := at_, saddr := bits a 0 57, daddr := bits b 0 57, sk := sk, dk := dk, sx := bits c 56 4, sy := bits c 52 4,
      dx := bits c 48 4, dy := bits c 44 4, all := flagOf c 43, sh := bits c 36 7, dh := bits c 29 7, dswz := BitVec.ofNat 5 (bits c 24 5),
      sswz := BitVec.ofNat 5 (bits c 19 5), rel := flagOf c 18, len := bits e 0 22, cb8 := cb8 }
  if t.spadPoisoned t.part at_ 32 then .error ⟨8, 3, BitVec.ofNat 64 (t.firstPoison at_ 32)⟩
  else if bits a 57 7 ≠ 0 ∨ bits b 57 7 ≠ 0 ∨ sk = 3 ∨ dk = 3 ∨ bits c 0 18 ≠ 0 ∨ bits e 22 42 ≠ 0
      ∨ d.len % 64 ≠ 0 ∨ d.len < 64 ∨ 2097152 < d.len ∨ d.saddr % (if cb8 then 4 else 64) ≠ 0 ∨ d.daddr % 64 ≠ 0
      ∨ (sk ≠ 2 ∧ (d.sx ≠ 0 ∨ d.sy ≠ 0 ∨ d.sh ≠ 0 ∨ d.sswz ≠ 0 ∨ d.rel))
      ∨ (dk ≠ 0 ∧ (d.dx ≠ 0 ∨ d.dy ≠ 0 ∨ d.all ∨ d.dh ≠ 0 ∨ d.dswz ≠ 0))
      ∨ (d.all ∧ (d.dx ≠ 0 ∨ d.dy ≠ 0)) ∨ swizzleReserved d.sswz ∨ swizzleReserved d.dswz then
    .error ⟨1, 6, BitVec.ofNat 64 at_⟩
  else .ok d

/-- Ends an engine command that has faulted or finished without a copy. -/
def State.endCommand (s : State) (d t strand slot : Nat) (r : Option Report) : State :=
  let s := s.lowerSlot d t strand slot
  match r with
  | some r => s.report d t strand r
  | none => s

/-- Starts a copy; coordinates outside the region fault PERM (06 R149). -/
def State.startCopy (s : State) (d t : Nat) (c : CopyDesc) (strand slot : Nat) (fired : Bool) : State :=
  let x := s.tile d t
  if (c.sk == 2 && !x.inRegion c.sx c.sy) || (c.dk == 0 && !x.inRegion c.dx c.dy) then
    let r : Report := ⟨6, 0x10, BitVec.ofNat 64 c.descAddr⟩
    if fired then s.routeReport d t strand r else s.endCommand d t strand slot (some r)
  else
    let (id, s) := s.fresh
    s.modTile d t fun x => { x with jobs := x.jobs ++ [⟨id, c, strand, slot, none, false, 0, 0, false, false, [], fired, none⟩] }

/-! ### The work of a copy -/

/-- A copy of a tile. -/
def Tile.job (t : Tile) (id : Nat) : Option Job := t.jobs.find? fun j => j.id == id
/-- Changes a copy of a tile. -/
def State.modJob (s : State) (d t id : Nat) (f : Job → Job) : State :=
  s.modTile d t fun x => { x with jobs := x.jobs.map fun j => if j.id = id then f j else j }

/-- A copy as a requester of memory; one that stages for a spliced successor carries the successor's generation (02 R50, 03 R71). -/
def Tile.copyRequester (x : Tile) (d t : Nat) (j : Job) : Requester :=
  ⟨.copy d t j.id, d, t, x.part, x.gkey, if j.staging.isSome then x.gen2.getD x.gen else x.gen, j.peer, 0,
    if j.desc.cb8 then 64 else j.desc.len - j.done⟩

/-- Reads `n` source bytes of a copy at address or offset `a` (06 R148, R149). -/
def State.copyRead (s : State) (d t : Nat) (j : Job) (s0 : State) (a n : Nat) : Io (List PByte) :=
  let x := s.tile d t
  let q := x.copyRequester d t j
  if j.desc.sk = 0 then s0.engineRead q .read 0 false a n
  else if j.desc.sk = 1 then s0.engineRead q .read 0 true (windowBase + a) n
  else
    let (y, s0) := s0.view d (x.siteAt j.desc.sx j.desc.sy) true
    let e := y.handle j.desc.sh
    if e.len < a + n then .fault ⟨6, 0x13, BitVec.ofNat 64 (max a e.len)⟩ else .ok s0 (y.handleRead x.part e a n)

/-- The bytes that a copy moves next: a whole aligned 256-byte piece of peer memory, else 64 bytes (06 R148, 12 R276). -/
def State.copySize (s : State) (d t : Nat) (j : Job) : Nat :=
  let a := j.desc.daddr + j.done
  if j.desc.dk = 1 ∧ !j.desc.cb8 ∧ pieceSize a (j.desc.len - j.done) = 256 ∧ s.peerFrame ((s.tile d t).copyRequester d t j) a then 256 else 64

/-- The next bytes of a copy's source, the source words they took, and whether every later block is poisoned (06 R161). -/
def State.copySource (s : State) (d t : Nat) (j : Job) : Io (List PByte × Nat × Bool) :=
  let a := j.desc.saddr
  if !j.desc.cb8 then
    match readUnits (fun s0 a n => s.copyRead d t j s0 a n) 64 s (a + j.done) (s.copySize d t j / 64) with
    | .ok s b => .ok s (b, 0, false)
    | .wait s => .wait s
    | .fault r => .fault r
  else if j.cbBad then
    let (b, s) := s.freeBytes 64
    .ok s (withPoison b true, 0, true)
  else readBlock (fun s0 a n => s.copyRead d t j s0 a n) s (a + j.cbPos)

/-- The tiles that a copy into handles writes. -/
def Tile.copyTargets (x : Tile) (c : CopyDesc) : List Nat := if c.all then x.sites else [x.siteAt c.dx c.dy]

/-- The handle of a target as a copy meets it: a staging copy binds one that it finds FREE (06 R143). -/
def Job.target (j : Job) (e : Handle) : Handle :=
  if j.staging.isSome && e.state == .free then { e with bnd := true, base := j.desc.daddr, len := j.desc.len } else e
/-- The offset within the handle that a copy writes next. -/
def Job.offset (j : Job) : Nat := if j.staging.isSome then j.done else j.desc.daddr + j.done
/-- The offset within the handle where a copy begins. -/
def Job.first (j : Job) : Nat := if j.staging.isSome then 0 else j.desc.daddr

/-- Whether a copy may write its next unit into a handle (06 R144, R149); a staging copy begins only at a handle that is FREE (03 R63). -/
def Job.mayFill (j : Job) (e : Handle) : Start :=
  let wait := j.staging.isSome && j.done == 0 && e.state != .free
  let e := j.target e
  if wait then .wait
  else if !e.bnd then .fault (e.stateFault j.desc.dh)
  else if e.len < j.first + j.desc.len then .fault ⟨6, 0x13, BitVec.ofNat 64 (max j.first e.len)⟩
  else e.startWrite (8 + j.id) j.desc.dh 64 j.desc.dswz

/-- What several starts amount to: the first fault, a wait, or go. -/
def joinStarts : List Start → Start
  | [] => .go
  | .fault r :: _ => .fault r
  | .wait :: l => match joinStarts l with
    | .fault r => .fault r
    | _ => .wait
  | .go :: l => joinStarts l

/-- Writes the next bytes of a copy at its destination; under ALL the unit is written in every tile at once (log 18). -/
def State.copyStore (s : State) (d t : Nat) (j : Job) (bs : List PByte) : Io Unit :=
  let x := s.tile d t
  let c := j.desc
  let q := x.copyRequester d t j
  if c.dk = 1 then s.engineWrite q false (c.daddr + j.done) bs
  else if c.dk = 2 then s.engineWrite q true (windowBase + c.daddr + j.done) bs
  else
    match joinStarts ((x.copyTargets c).map fun y => j.mayFill ((s.tile d y).handle c.dh)) with
    | .fault r => .fault r
    | .wait => .wait s
    | .go => .ok (s.over (x.copyTargets c) fun y s =>
        (s.modTile d y fun z => z.setHandle c.dh (j.target (z.handle c.dh))).fillHandle d y (8 + j.id) c.dh x.part c.dswz j.offset bs) ()

/-- The address of the source byte that a copy reads `n` bytes beyond those it has taken. -/
def Job.sourceAt (j : Job) (n : Nat) : Nat :=
  (if j.desc.sk = 1 then windowBase else 0) + j.desc.saddr + (if j.desc.cb8 then j.cbPos else j.done) + n
/-- Moves a copy on by the bytes it has written, for which it took `words` CB8 words (06 R150, R161). -/
def State.copyStep (s : State) (d t : Nat) (j : Job) (bs : List PByte) (words : Nat) (bad : Bool) : State :=
  s.modJob d t j.id fun j =>
    { j with done := j.done + bs.length, cbPos := j.cbPos + 4 * words, cbBad := bad,
             peer := heldFrom j.peer (j.sourceAt (if j.desc.cb8 then 4 * words else bs.length)) }

/-- One unit of a copy (06 R148 to R150, R161, R164). DESIGN CHOICE (log 69): R150 promises no order of the bytes of one copy; the
model writes its units at rising offsets. -/
def State.copyUnit (s : State) (d t : Nat) (j : Job) : State :=
  match s.copySource d t j with
  | .fault r => s.jobFault d t j.id r
  | .wait s => s
  | .ok s (bs, words, bad) => match s.copyStore d t j bs with
    | .fault r => s.jobFault d t j.id r
    | .wait s => s
    | .ok s _ => s.copyStep d t j bs words bad

/-- The staging copies that join the read of one that is about to request its first source beat: those of its die with its SADDR, LEN, PART and
GKEY that have requested none, itself among them (03 R64, log 83). -/
def State.joiners (s : State) (d t : Nat) (j : Job) : List (Nat × Job) :=
  let x := s.tile d t
  s.dieJobs d fun y q => q.staging.isSome && q.lead.isNone && q.desc.saddr == j.desc.saddr && q.desc.len == j.desc.len
    && y.part == x.part && y.gkey == x.gkey
/-- Puts copies under one merged read (03 R64). -/
def State.leadBy (s : State) (d lead : Nat) (l : List (Nat × Job)) : State :=
  s.over l fun e s => s.modJob d e.1 e.2.id fun q => { q with lead := some lead }

/-- The bytes of a merged read that have come for a copy and that it has not written yet: those it writes next (03 R64, log 83). -/
def Job.delivered (j : Job) : Option (List PByte) :=
  if j.lead == none || j.lead == some j.id then none
  else (j.peer.find? fun p => !p.write && p.va == j.desc.saddr + j.done).map fun p => withPoison p.data p.psn
/-- A copy keeps bytes of its merged read until its handle may be written (03 R63, R64). -/
def State.keepPiece (s : State) (d t : Nat) (j : Job) (bs : List PByte) : State :=
  s.modJob d t j.id fun q =>
    { q with peer := q.peer ++ [⟨false, q.desc.saddr + q.done + (q.peer.map fun p => p.data.length).sum, false, bs.map (·.1), false⟩] }
/-- A copy of a merged read writes bytes, or keeps them while its handle may not be written; one that may not write them ever fails alone (03
R64). -/
def State.takePiece (s : State) (d t : Nat) (j : Job) (bs : List PByte) (keep : Bool) : State :=
  if keep && j.delivered.isSome then s.keepPiece d t j bs
  else match s.copyStore d t j bs with
    | .ok s _ => s.copyStep d t j bs 0 false
    | .wait s => if keep then s.keepPiece d t j bs else s
    | .fault r => s.jobFault d t j.id r

/-- Delivers the bytes of a merged read to every copy that takes part; poisoned bytes fail every task that takes part (03 R64, 06 R161). -/
def State.deliverMerged (s : State) (d t : Nat) (j : Job) (bs : List PByte) : State :=
  if bs.any (·.2) then s.copyFault d t j.id ⟨8, 3, BitVec.ofNat 64 (j.desc.saddr + j.done + bs.findIdx (·.2))⟩
  else s.over (s.merged d j.id) fun e s => match (s.tile d e.1).job e.2.id with
    | some q => s.takePiece d e.1 q bs (q.id != j.id)
    | none => s

/-- One unit of a staging copy: bytes that have come for it; or, once its handle may be written, a read of its own, with the copies that merge
with it, or one whose leader is gone; else it leaves the read to its leader (03 R63, R64). -/
def State.stageUnit (s : State) (d t : Nat) (j : Job) : State :=
  let read := fun (s : State) => match s.copySource d t j with
    | .fault r => s.copyFault d t j.id r
    | .wait s => s
    | .ok s (bs, _, _) => s.deliverMerged d t j bs
  match j.delivered with
  | some bs => s.takePiece d t j bs false
  | none => match joinStarts (((s.tile d t).copyTargets j.desc).map fun z => j.mayFill ((s.tile d z).handle j.desc.dh)) with
    | .fault r => s.jobFault d t j.id r
    | .wait => s
    | .go => match j.lead with
      | none => read (s.leadBy d j.id (s.joiners d t j))
      | some k =>
        if k = j.id then read s
        else if (s.merged d k).any fun e => e.2.id == k then s
        else read (s.leadBy d j.id (s.merged d k))

/-- Starts a copy's hold on its source handle (06 R144, R147, R149, R150). -/
def State.acquireSource (s : State) (d t : Nat) (j : Job) : State :=
  let y := (s.tile d t).siteAt j.desc.sx j.desc.sy
  let e := (s.tile d y).handle j.desc.sh
  let start := if e.bnd && !j.desc.cb8 && decide (e.len < j.desc.saddr + j.desc.len) then
      Start.fault ⟨6, 0x13, BitVec.ofNat 64 (max j.desc.saddr e.len)⟩
    else e.startConsumer j.desc.sh j.desc.sswz
  match start with
  | .fault r => s.jobFault d t j.id r
  | .wait => s
  | .go => (s.beginConsumer d y j.desc.sh).modJob d t j.id fun j => { j with acquired := true }

/-- Ends a copy's hold on its source handle (06 R144). -/
def State.releaseSource (s : State) (d t : Nat) (j : Job) : State :=
  if j.acquired then
    (s.endConsumer d ((s.tile d t).siteAt j.desc.sx j.desc.sy) j.desc.sh j.desc.rel).modJob d t j.id fun j => { j with acquired := false }
  else s

/-! ### Copy events -/

/-- ENGINE_WRITE: copy `job` moves its next unit, once its source is acquired (03 R64, 06 R144, R150). -/
def execEngineWrite (die site job : Nat) (s : State) : Out :=
  match (s.tile die site).job job with
  | none => .next s
  | some j =>
    if j.wait || decide (j.desc.len ≤ j.done) || (j.desc.sk == 2 && !j.acquired) then .next s
    else .next (if j.staging.isSome then s.stageUnit die site j else s.copyUnit die site j)

/-- COPY_COMPLETION: the last byte is written; the consumer ends and the slot falls (06 R150, 04 R93). -/
def execCopyCompletion (die site job : Nat) (s : State) : Out :=
  match (s.tile die site).job job with
  | none => .next s
  | some j =>
    if j.done < j.desc.len then .next s
    else
      let s := s.releaseSource die site j
      let s := s.endJob die site job
      .next (if j.staging.isSome then s else s.lowerSlot die site j.strand j.slot)

/-- The head of a named queue takes the template that is armed as it comes there (15 R349). -/
def Tile.headToken (x : Tile) (q : Nat) : Tile :=
  match x.queue q, tget x.templates q with
  | k :: rest, some p => if k.tpl.isNone then x.setQueue q ({ k with tpl := some p } :: rest) else x
  | _, _ => x
/-- A token joins a named queue (06 R151). -/
def Tile.putToken (x : Tile) (q : Nat) (k : Token) : Tile := (x.setQueue q (x.queue q ++ [k])).headToken q
/-- Arms a queue; a token that waits at its head without a template takes it (06 R152, 15 R349). -/
def Tile.arm (x : Tile) (q : Nat) (p : Template) : Tile := ({ x with templates := tput x.templates q p }).headToken q
/-- Disarms a queue; its tokens stay and wait (06 R152, 15 R349). -/
def Tile.disarm (x : Tile) (q : Nat) : Tile :=
  let y := { x with templates := tdel x.templates q }
  y.setQueue q ((x.queue q).map fun k => { k with tpl := none })

/-- TOKEN_FIRE: the token at the head of an armed queue starts a copy of the template that it met there, or is discarded and reported (06
R153, 15 R349). -/
def execTokenFire (die site queue : Nat) (s : State) : Out :=
  let x := s.tile die site
  match x.queue queue with
  | [] => .next s
  | k :: rest => match k.tpl with
    | none => .next s
    | some p =>
      let nl := bits k.bits.toNat 10 15
      let bad := nl == 0 || bits k.bits.toNat 0 10 != 0
      if !k.psn && !bad && decide (128 ≤ x.jobs.length) then .next s
      else
        let s := (s.modTile die site fun x => ((x.setQueue queue rest).headToken queue).settleRaces .grid).returnCredit die site k.src
        if k.psn then .next (s.routeReport die site p.strand ⟨8, 3, 0⟩)
        else if bad then .next (s.routeReport die site p.strand ⟨1, 6, k.bits⟩)
        else .next (s.startCopy die site
          { p.desc with saddr := p.desc.saddr + 64 * bits k.bits.toNat 40 24, daddr := p.desc.daddr + 64 * bits k.bits.toNat 25 15,
                        len := 64 * nl } p.strand 0 true)

/-! ### Issue of engine commands -/

/-- Whether an engine command finds room in the command queue (06 R163). -/
def State.engineRoom (s : State) : Bool := decide (s.here.cmdq.length < 16)
/-- Puts an engine command into the command queue (06 R163). -/
def State.putCommand (s : State) (kind unit : Nat) (arg : Word) (o : Order) : State :=
  (s.modMe fun t => (t.raise o.set.val).next).modHere fun t => { t with cmdq := t.cmdq ++ [⟨kind, s.cur.strand, o.set.val, arg, unit⟩] }
/-- Issues a copy command: its descriptor offset is checked first (15 R346, R348). -/
def issueCopy (s : State) (a : Reg) (o : Order) (i : Instr) (kind unit : Nat) : Out :=
  if !s.engineRoom then .next s
  else issueCommand s [a] o fun s =>
    let v := s.me.rd a
    if 0x200000 ≤ v.toNat then s.illOperand i
    else if v.toNat % 32 ≠ 0 then s.trapMe 4 5 v
    else s.putCommand kind unit v o

/-- CPY (15 R346). -/
def execCpy (a : Reg) (o : Order) (s : State) : Out := issueCopy s a o (.cpy a o) 0 0
/-- CPYC (15 R346). -/
def execCpyc (a : Reg) (o : Order) (s : State) : Out := issueCopy s a o (.cpyc a o) 1 0
/-- CPYT (15 R348). -/
def execCpyt (a : Reg) (q : Fin 64) (o : Order) (s : State) : Out := issueCopy s a o (.cpyt a q o) 2 q.val
/-- CPYQ: not ready while its queue holds 8 tokens (15 R347). -/
def execCpyq (a : Reg) (q : Fin 64) (o : Order) (s : State) : Out :=
  if !s.engineRoom || decide (8 ≤ (s.here.queue q.val).length) then .next s
  else issueCommand s [a] o fun s => s.putCommand 3 q.val (s.me.rd a) o

/-! ### Handles -/

/-- HALLOC: the lowest unbound handle takes the extent; all ones when every handle is bound (16 R368, 06 R143). -/
def execHalloc (d a b : Reg) (o : Order) (s : State) : Out :=
  issue s [d, a, b] o fun s =>
    let base := (s.me.rd a).toNat
    let len := (s.me.rd b).toNat
    if 2097152 < base + len ∨ len = 0 ∨ base % 64 ≠ 0 ∨ len % 64 ≠ 0 then s.illOperand (.halloc d a b o)
    else match (List.range 128).find? fun h => !(s.here.handle h).bnd with
      | none => s.modMe fun t => (t.wr d (BitVec.allOnes 64)).next
      | some h =>
        (s.modHere fun t => t.setHandle h { t.handle h with bnd := true, base := base, len := len }).modMe fun t =>
          (t.wr d (BitVec.ofNat 64 h)).next

/-- An HWAIT or HFREE with a set slot issues and completes when its handle comes to the state that it waits for (04 R93, 16 R370, log 64). -/
def State.waitHandle (s : State) (h : Nat) (to_ : HState) (unbind : Bool) (o : Order) : Out :=
  issue s [] o fun s => (s.modMe fun x => (x.raise o.set.val).next).modHere fun t =>
    { t with hwaits := t.hwaits ++ [⟨s.cur.strand, o.set.val, h, to_, unbind⟩] }

/-- HFREE: an unbound handle is left as it is; a bound one is unbound once it is FREE, and without a set slot the instruction is not ready until
then (16 R368, 04 R81, log 64). -/
def execHfree (h : Fin 128) (o : Order) (s : State) : Out :=
  let e := s.here.handle h.val
  if e.bnd && e.state != .free then (if o.set = 0 then .next s else s.waitHandle h.val .free true o)
  else issue s [] o fun s =>
    let s := s.modMe Strand.next
    if e.bnd then s.putHandle s.cur.die s.cur.site h.val { e with bnd := false, len := 0 } else s

/-- A precise HSTATE trap (16 R369). -/
def State.handleTrap (s : State) (h : Nat) : State := s.trapMe 0xA (s.here.handle h).state.code (BitVec.ofNat 64 h)

/-- HSET: the row of R144 for its state; FREE is not ready while a consumer reads, and the transition to FULL, a release at tile scope, while an
earlier access of the strand is not performed there (06 R145, 09 R223, 16 R369). -/
def execHset (h : Fin 128) (t : HState) (o : Order) (s : State) : Out :=
  let e := s.here.handle h.val
  if e.bnd && t == .free && e.state == .draining && e.rd != 0 then .next s
  else if e.bnd && t == .full && e.state == .filling && e.ws && s.unperformed then .next s
  else issueMem s [] o fun s =>
    let put := fun (e : Handle) => (s.modMe Strand.next).putHandle s.cur.die s.cur.site h.val e
    if !e.bnd then s.handleTrap h.val
    else match t, e.state with
      | .filling, .free => put { e.release with state := .filling, ws := true }
      | .full, .filling => if e.ws then put { e with state := .full } else s.handleTrap h.val
      | .draining, .full => put { e with state := .draining }
      | .draining, .draining => s.modMe Strand.next
      | .free, .draining => put e.release
      | _, _ => s.handleTrap h.val

/-- HWAIT: it completes when the handle is in the named state; without a set slot the strand stands at it until the handle has been there; on an
unbound handle any state but FREE traps (16 R369, R370, 04 R81, R93, log 64). -/
def execHwait (h : Fin 128) (t : HState) (o : Order) (s : State) : Out :=
  let e := s.here.handle h.val
  let met := s.me.stand == some (h.val, t, true)
  if e.bnd && e.state != t && !met then
    (if o.set ≠ 0 then s.waitHandle h.val t false o
     else if s.me.ready [] o then .next (s.modMe fun x => { x with stand := some (h.val, t, false) })
     else .next s)
  else issue s [] o fun s =>
    if !e.bnd && t != .free && !met then s.handleTrap h.val else s.modMe fun x => { x.next with stand := none }

/-- The entry that HSTAT returns (06 R142). -/
def Handle.entry (e : Handle) : Word :=
  BitVec.ofNat 64 (flagCode e.bnd * 2 ^ 63 + e.state.code * 2 ^ 61 + flagCode e.ws * 2 ^ 60 + flagCode e.psn * 2 ^ 59 + e.rd % 16 * 2 ^ 55
    + e.swz.toNat * 2 ^ 50 + e.base % 2 ^ 21 * 2 ^ 22 + e.len % 2 ^ 22)
/-- HSTAT (16 R371). DESIGN CHOICE (log 101): the snapshot is the one at its issue (01 R20). -/
def execHstat (d : Reg) (h : Fin 128) (o : Order) (s : State) : Out :=
  issue s [d] o fun s => s.modMe fun t => (t.wr d (s.here.handle h.val).entry).next

end Sys2Proof.Machine
end

