-- ==== Sys2Proof/Machine/Streams.lean ====
section
/-! DEFINITION. Stream engines: their commands, the elements that they transfer, window mode, the forward port, and the turn of a
tile's engine command queue (03 R66, R67, 06 R154 to R163, 18 R410 to R416). -/
namespace Sys2Proof.Machine

/-! ### The pattern -/

/-- Whether words of a descriptor break R154. -/
def streamBad (x : Stream) : Bool :=
  let w := x.word 0
  let k := x.kind
  let nd := bits w 56 2
  decide (4 < bits w 58 3) || bits w 0 25 != 0 || bits (x.word 1) 57 7 != 0
    || (!readKind k && (bits w 45 11 != 0 || bits w 25 5 != 0))
    || (decide (1 < k) && x.hu) || (!x.hu && (x.hnd != 0 || x.swz != 0)) || (x.rel && !(k == 0 && x.hu))
    || (x.dec && !(k == 2 || k == 4)) || (x.dec && bits w 58 3 != 2) || swizzleReserved x.swz
    || ((List.range 4).any fun i => if i ≤ nd then bits (x.word (2 + i)) 32 32 == 0 else x.word (2 + i) != 0)
    || (decide (6 ≤ k) && (bits (x.word 1) 0 57 != 0 || (List.range 4).any fun i => bits (x.word (2 + i)) 0 32 != 0))

/-- The fields of the window word: VCK, KH, SV, DV (06 R159). -/
def windowFields (w : Word) : Nat × Nat × Nat × Nat :=
  (bits w.toNat 12 5, bits w.toNat 8 4, bits w.toNat 4 4, bits w.toNat 0 4)
/-- The span of a window (06 R159). -/
def windowSpan (w : Word) : Nat :=
  let (_, kh, _, dv) := windowFields w
  (kh - 1) * dv + 1
/-- The rows of windows of an image of `ih` rows (06 R159). -/
def windowRows (w : Word) (ih : Nat) : Nat :=
  let (_, _, sv, _) := windowFields w
  if ih < windowSpan w then 0 else (ih - windowSpan w) / sv + 1

/-- The number of elements of a run, or of window words (06 R155, R160). -/
def Stream.total (x : Stream) : Nat :=
  match x.window with
  | none => x.count 0 * x.count 1 * x.count 2 * x.count 3
  | some w => x.count 2 * x.count 3 * windowRows w (x.count 1) * x.count 0 * (windowFields w).2.1

/-- What a position of a run transfers (06 R155, R160): the four indices of the element, its tag, and whether it is read now or
held in the delay line. -/
structure Visit where
  i0 : Nat
  i1 : Nat
  i2 : Nat
  i3 : Nat
  tag : Nat
  fresh : Bool
  deriving DecidableEq, Repr

/-- The visit at position `n`. -/
def Stream.visit (x : Stream) (n : Nat) : Visit :=
  let c0 := x.count 0
  let vc := bits (x.word 0) 45 5
  match x.window with
  | none => ⟨n % c0, n / c0 % x.count 1, n / c0 / x.count 1 % x.count 2, n / c0 / x.count 1 / x.count 2, vc, true⟩
  | some w =>
    let (vck, kh, sv, dv) := windowFields w
    let oh := windowRows w (x.count 1)
    let k := n % kh
    let oy := n / kh / c0 % oh
    let img := n / kh / c0 / oh
    let y := oy * sv + k * dv
    let used := (List.range oy).any fun o => (List.range kh).any fun j => o * sv + j * dv == y
    ⟨n / kh % c0, y, img % x.count 2, img / x.count 2, if k = 0 then vc else vck, !used⟩

/-- The address of a visit, exact (06 R155). -/
def Stream.address (x : Stream) (v : Visit) : Int :=
  (bits (x.word 1) 0 57 : Nat) + v.i0 * x.stride 0 + v.i1 * x.stride 1 + v.i2 * x.stride 2 + v.i3 * x.stride 3

/-! ### Transfers -/

/-- Changes a stream of a tile. -/
def State.modStream (s : State) (d t e : Nat) (f : Stream → Stream) : State := s.modTile d t fun x => x.setStream e (f (x.stream e))

/-- A stream as a requester of memory. -/
def Tile.streamRequester (x : Tile) (d t e : Nat) (tag : Word) : Requester :=
  ⟨.stream d t e, d, t, x.part, x.gkey, x.gen, (x.stream e).peer, tag, 64⟩

/-- The check of an element's place: ALIGN, then PERM outside the scratchpad or the handle's extent (06 R155). -/
def Stream.placeFault (x : Stream) (limit : Nat) (a : Int) : Option Report :=
  let w := BitVec.ofInt 64 a
  if a % (x.esz : Int) ≠ 0 then some ⟨4, bits (x.word 0) 58 3, w⟩
  else if x.kind ≤ 1 ∧ (a < 0 ∨ (limit : Int) < a + x.esz) then some ⟨6, 0x13, w⟩
  else none

/-- The limit of a stream's scratchpad offsets. -/
def Tile.streamLimit (t : Tile) (x : Stream) : Nat := if x.hu then (t.handle x.hnd).len else 0x200000

/-- The next element that waits in the forward entry buffer (06 R154, log 19). -/
def Tile.forwardElement (t : Tile) (x : Stream) : Option (List PByte) :=
  match t.fwdIn with
  | [] => none
  | w :: _ =>
    let o := x.taken % (16 / x.esz) * x.esz
    some ((List.range x.esz).map fun i => (BitVec.ofNat 8 (bits w.bits.toNat (8 * (o + i)) 8), w.psn.getLsbD ((o + i) / 8)))
/-- Takes an element from the forward entry buffer. -/
def Tile.takeForward (t : Tile) (e : Nat) : Tile :=
  let x := t.stream e
  let t := if (x.taken + 1) % (16 / x.esz) = 0 then { t with fwdIn := t.fwdIn.tail } else t
  t.setStream e { x with taken := x.taken + 1 }

/-- Reads the element of a visit from its place (06 R155). -/
def State.readElement (s : State) (d t e : Nat) (v : Visit) : Io (List PByte) :=
  let y := s.tile d t
  let x := y.stream e
  let a := x.address v
  let w := BitVec.ofInt 64 a
  match x.placeFault (y.streamLimit x) a with
  | some r => .fault r
  | none =>
    match x.kind with
    | 0 =>
      let (y, s) := s.view d t true
      if x.hu then .ok s (y.handleRead y.part (y.handle x.hnd) a.toNat x.esz) else .ok s (y.engineSpad y.part a.toNat x.esz)
    | 2 => s.engineRead (y.streamRequester d t e w) .read 0 false w.toNat x.esz
    | 4 => s.engineRead (y.streamRequester d t e w) .read 0 true (windowBase + w.toNat) x.esz
    | _ => match y.forwardElement x with
      | some b => .ok (s.modTile d t fun z => z.takeForward e) b
      | none => .wait s

/-- The key of a pixel in the delay line. -/
def Stream.delayKey (x : Stream) (v : Visit) : Nat := (v.i1 * x.count 0 + v.i0) * x.esz

/-- A word of bytes with its tag; the bytes beyond them are zero (06 R156). -/
def packWord (bs : List PByte) (tag : Nat) : GWord :=
  { bits := BitVec.ofNat 128 (fromBytes (bs.map (·.1))), tag := BitVec.ofNat 5 tag,
    psn := BitVec.ofNat 2 (flagCode ((bs.take 8).any (·.2)) + 2 * flagCode ((bs.drop 8).any (·.2))), ended := false }

/-- Packs an element of a read run; a full word, the last word, and every window word go out (06 R156, R160). -/
def Stream.pushElement (x : Stream) (bs : List PByte) (tag : Nat) : Stream :=
  let w := packWord bs tag
  let n := x.packed + x.esz
  let pack := x.pack ||| (w.bits <<< (8 * x.packed))
  let psn := x.packPsn ||| (if 8 ≤ x.packed then w.psn <<< 1 else w.psn)
  let x := { x with pos := x.pos + 1, peer := [] }
  if n = 16 ∨ x.window.isSome ∨ x.total ≤ x.pos then
    { x with out := x.out ++ [x.outWord ⟨pack, w.tag, psn, false, false⟩], pack := 0, packPsn := 0, packed := 0 }
  else { x with pack := pack, packPsn := psn, packed := n }

/-- The four words of a decoded block (06 R161). -/
def blockWords (b : List PByte) (tag : Nat) : List GWord := (List.range 4).map fun i => packWord ((b.drop (16 * i)).take 16) tag

/-- The index of a visit's element in a stream of elements, which carries every row of every image (06 R154, R160). -/
def Stream.element (x : Stream) (v : Visit) : Nat := ((v.i3 * x.count 2 + v.i2) * x.count 1 + v.i1) * x.count 0 + v.i0
/-- The elements that a pattern's counts give (06 R154). -/
def Stream.elements (x : Stream) : Nat := x.count 0 * x.count 1 * x.count 2 * x.count 3
/-- Takes the next element of the forward entry port into the delay line, at its pixel of its image (06 R160, log 70). -/
def State.takeRow (s : State) (d t e : Nat) : State :=
  let y := s.tile d t
  let x := y.stream e
  match y.forwardElement x with
  | none => s
  | some b =>
    let key := x.taken % (x.count 0 * x.count 1) * x.esz
    (s.modTile d t fun z => z.takeForward e).modStream d t e fun x =>
      { x with delay := mputs x.delay key (b.map (·.1)), delayPsn := if b.any (·.2) then sput x.delayPsn key else sdel x.delayPsn key }
/-- A window pattern of kind 7 that has not taken every element of its counts (06 R154, R160, log 70). -/
def Stream.rowsLeft (x : Stream) : Bool := x.kind == 7 && x.window.isSome && decide (x.taken < x.elements)

/-- The next element of a read run (06 R155, R156, R160, R161). -/
def State.readStep (s : State) (d t e : Nat) : State :=
  let y := s.tile d t
  let x := y.stream e
  let v := x.visit x.pos
  let w := BitVec.ofInt 64 (x.address v)
  if x.dec then
    if x.cbBad then
      let (b, s) := s.freeBytes 64
      s.modStream d t e fun x => { x with pos := x.pos + 1, out := x.out ++ (blockWords (withPoison b true) v.tag).map x.outWord }
    else match x.placeFault 0 (x.address v) with
      | some r => s.streamFault d t e r w
      | none =>
        let win := x.kind == 4
        let read := fun (s0 : State) (a n : Nat) => s0.engineRead (y.streamRequester d t e w) .read 0 win (if win then windowBase + a else a) n
        match readBlock read s w.toNat with
        | .fault r => s.streamFault d t e r w
        | .wait s => s
        | .ok s (b, _, bad) =>
          s.modStream d t e fun x => { x with pos := x.pos + 1, peer := [], cbBad := bad, out := x.out ++ (blockWords b v.tag).map x.outWord }
  else if x.kind = 7 ∧ x.window.isSome ∧ x.taken ≤ x.element v then s.takeRow d t e
  else if v.fresh ∧ ¬(x.kind = 7 ∧ x.window.isSome) then
    match s.readElement d t e v with
    | .fault r => s.streamFault d t e r w
    | .wait s => s
    | .ok s b => s.modStream d t e fun x =>
        let x := if x.window.isSome then
            { x with delay := mputs x.delay (x.delayKey v) (b.map (·.1)),
                     delayPsn := if b.any (·.2) then sput x.delayPsn (x.delayKey v) else sdel x.delayPsn (x.delayKey v) }
          else x
        x.pushElement b v.tag
  else s.modStream d t e fun x =>
    x.pushElement (withPoison (mbytes x.delay (x.delayKey v) x.esz) (x.delayPsn.contains (x.delayKey v))) v.tag

/-- Puts a word into an input queue, which holds 4 (05 R111). -/
def Pe.put (p : Pe) (q : Nat) (w : Queued) : Pe := { p with inq := vset p.inq q (vget p.inq q ++ [w]) }

/-- Delivers the oldest word of a read run to the input queue of the pattern that read it, or to the island whose A source the engine is (06
R156, R158, 05 R134). -/
def State.deliver (s : State) (d t e : Nat) : State :=
  let y := s.tile d t
  let x := y.stream e
  match x.out with
  | [] => s
  | w :: rest =>
    let s' := s.modStream d t e fun x => { x with out := rest }
    if y.sourceOf e then
      if y.island.engineWords.length < (if y.island.half.isSome then 8 else 9) then
        s'.modTile d t fun y => { y with island := { y.island with engineWords := y.island.engineWords ++ [w.word] } }
      else s
    else
      if (vget (y.pe w.pe).inq w.q).length < 4 then s'.modTile d t fun y => y.modPe w.pe fun p => p.put w.q ⟨w.word, .none⟩ else s

/-- The sites of a consumer that a producer tile's forward words go to: the tile across the common edge, or, for a tile that
does not touch it, every tile that faces the producer (03 R67, log 19). -/
def facing (mine : List Nat) (site : Nat) (other : List Nat) : List Nat :=
  let near := fun (a b : Nat) => (siteX a == siteX b && (siteY a + 1 == siteY b || siteY b + 1 == siteY a))
    || (siteY a == siteY b && (siteX a + 1 == siteX b || siteX b + 1 == siteX a))
  let own := other.filter (near site)
  if own.isEmpty then other.filter fun o => mine.any fun m => near m o else own

/-- A kind 6 stream sends the word at its port through the bound forward port (03 R67). -/
def State.forwardStep (s : State) (d t e : Nat) : State :=
  let y := s.tile d t
  let x := y.stream e
  match x.port, y.task.bind fun r => (s.record d r).bind fun q => q.bound.bind fun c => ((s.record d c).filter fun c => c.state.holdsRegion).map fun c => (q, c) with
  | w :: rest, some (q, c) =>
    let to_ := facing q.sites t c.sites
    let (k, s') := s.pick (max to_.length 1)
    match lget to_ k with
    | none => s
    | some z =>
      if 8 ≤ (s.tile d z).fwdIn.length then s
      else
        let s := s'.modTile d z fun z => { z with fwdIn := z.fwdIn ++ [w.word] }
        (s.modStream d t e fun x => { x with port := rest, pos := min x.total (x.pos + 16 / x.esz) }).returnCredit d t w.src
  | _, _ => s

/-- Takes the word at the port: the bytes left of it are those that its first element has not taken (06 R156). -/
def State.takePort (s : State) (d t e : Nat) (w : Queued) (rest : List Queued) : State :=
  (s.modStream d t e fun x => { x with port := rest, pack := w.word.bits, packPsn := w.word.psn, packed := 16 }).returnCredit d t w.src

/-- The check of a write run's next element: a handle that is not bound goes before its extent (06 R144, R155). -/
def Tile.writePlace (y : Tile) (x : Stream) (a : Int) : Option Report :=
  if x.kind = 1 ∧ x.hu ∧ !(y.handle x.hnd).bnd then some ((y.handle x.hnd).stateFault x.hnd) else x.placeFault (y.streamLimit x) a

/-- Writes the next element of a write run at its place (06 R144, R155). -/
def State.writeElement (s : State) (d t e : Nat) (a : Int) (b : List PByte) : Io Unit :=
  let y := s.tile d t
  let x := y.stream e
  let w := BitVec.ofInt 64 a
  let q := y.streamRequester d t e w
  match y.writePlace x a with
  | some r => .fault r
  | none =>
    match x.kind with
    | 1 =>
      if x.hu then
        match (y.handle x.hnd).startWrite e x.hnd x.esz x.swz with
        | .fault r => .fault r
        | .wait => .wait s
        | .go => .ok (s.fillHandle d t e x.hnd y.part x.swz a.toNat b) ()
      else .ok (s.modTile d t fun z => z.engineSpadWrite (.engine e) s.coin z.part a.toNat b).coined ()
    | 3 => s.engineWrite q false w.toNat b
    | _ => s.engineWrite q true (windowBase + w.toNat) b

/-- The next element of a write run. A word leaves the port with its first element, so that a run that waits at a word's start stands at a
word boundary (06 R156, R157); what the grid stored before it is there for the stream (09 R220, log 87). DESIGN CHOICE (log 94): a word whose first
element faults has been taken from the port. -/
def State.writeStep (s : State) (d t e : Nat) : State :=
  let x := (s.tile d t).stream e
  let word : Option (QWord × BitVec 2 × Nat × Option (Queued × List Queued)) :=
    if x.packed ≠ 0 then some (x.pack, x.packPsn, 16 - x.packed, none)
    else match x.port with
      | [] => none
      | w :: rest => some (w.word.bits, w.word.psn, 0, some (w, rest))
  match word with
  | none => s
  | some (bits_, psn, o, taken) =>
    let b : List PByte := (List.range x.esz).map fun i => (BitVec.ofNat 8 (bits bits_.toNat (8 * (o + i)) 8), psn.getLsbD ((o + i) / 8))
    let a := x.address (x.visit x.pos)
    let take := fun (s : State) => match taken with
      | some (w, rest) => s.takePort d t e w rest
      | none => s
    let u := if taken.isSome then s.modTile d t fun y => y.settleRaces .grid else s
    match u.writeElement d t e a b with
    | .fault r => (take s).streamFault d t e r (BitVec.ofInt 64 a)
    | .wait s => s
    | .ok s _ => (take s).modStream d t e fun x =>
        { x with pos := x.pos + 1, peer := [], packed := if x.total ≤ x.pos + 1 then 0 else x.packed - x.esz }

/-! ### Stream events -/

/-- STREAM_ELEMENT: the engine delivers a word, or transfers its next element (06 R155, R156). -/
def execStreamElement (die site engine : Nat) (s : State) : Out :=
  let x := (s.tile die site).stream engine
  if x.out ≠ [] then .next (s.deliver die site engine)
  else if x.state != .run || x.wait then .next s
  else if x.total ≤ x.pos then .next (if x.rowsLeft then s.takeRow die site engine else s)
  else if x.kind = 6 then .next (s.forwardStep die site engine)
  else if readKind x.kind then (if x.kind = 0 ∧ x.hu ∧ !x.acquired then .next s else .next (s.readStep die site engine))
  else .next (s.writeStep die site engine)

/-- A stream that is at its start again (06 R157); POS stays as it counts the latest run (18 R414), and words that a full queue has kept back, a
fault token among them, still go out (06 R156 to R158). -/
def Stream.rewind (x : Stream) : Stream :=
  { x with state := .ready, pack := 0, packPsn := 0, packed := 0, delay := [], delayPsn := [], cbBad := false, wait := false, peer := [] }

/-- Discards what is left of a forward word that the run has begun (06 R156, log 19). -/
def Tile.dropForward (t : Tile) (e : Nat) : Tile :=
  let x := t.stream e
  if x.kind = 7 ∧ x.taken % (16 / x.esz) ≠ 0 then { t with fwdIn := t.fwdIn.tail } else t

/-- STREAM_RUN_END: the pattern is exhausted and its last word delivered or written (06 R157, 18 R412). -/
def execStreamRunEnd (die site engine : Nat) (s : State) : Out :=
  let x := (s.tile die site).stream engine
  if x.state != .run || x.wait || decide (x.pos < x.total) || x.rowsLeft || x.out != [] then .next s
  else
    let s := if x.acquired then (s.endConsumer die site x.hnd x.rel).modStream die site engine fun x => { x with acquired := false } else s
    let s := s.modTile die site fun t => (t.dropForward engine).settleRaces (.engine engine)
    .next ((s.modStream die site engine Stream.rewind).lowerSlot die site x.strand x.slot)

/-- ENGINE_CONSUMER_START: stream engine `job` below 8, or copy `job - 8`, starts to consume its source handle (06 R144, R147,
log 20). DESIGN CHOICE (log 95): a window run without window words reads nothing, so it is no consumer and its REL frees nothing. -/
def execEngineConsumerStart (die site job : Nat) (s : State) : Out :=
  if job < 8 then
    let x := (s.tile die site).stream job
    if x.state != .run || x.kind != 0 || !x.hu || x.acquired || decide (x.total ≤ x.pos) then .next s
    else match ((s.tile die site).handle x.hnd).startConsumer x.hnd x.swz with
      | .fault r => .next (s.streamFault die site job r (BitVec.ofInt 64 (x.address (x.visit 0))))
      | .wait => .next s
      | .go => .next ((s.beginConsumer die site x.hnd).modStream die site job fun x => { x with acquired := true })
  else match (s.tile die site).job (job - 8) with
    | some j => if j.desc.sk == 2 && !j.acquired && j.done == 0 then .next (s.acquireSource die site j) else .next s
    | none => .next s

/-- ENGINE_CONSUMER_END: a consumer that has read everything lets its handle go (06 R144, log 20). -/
def execEngineConsumerEnd (die site job : Nat) (s : State) : Out :=
  if job < 8 then
    let x := (s.tile die site).stream job
    if x.acquired && decide (x.total ≤ x.pos) then
      .next ((s.endConsumer die site x.hnd x.rel).modStream die site job fun x => { x with acquired := false })
    else .next s
  else match (s.tile die site).job (job - 8) with
    | some j => if j.desc.len ≤ j.done then .next (s.releaseSource die site j) else .next s
    | none => .next s

/-! ### The command queue -/

/-- SCFG reaches its engine: the descriptor is read, or the engine is IDLE and the strand takes ILL (18 R411, 06 R154). -/
def State.configureStream (s : State) (d t : Nat) (c : EngineCmd) : State :=
  let p := s.view d t true
  let x := p.1
  let s := p.2
  let a := c.arg.toNat
  let fresh : Stream := { Stream.init with port := (x.stream c.unit).port, out := (x.stream c.unit).out }
  let loaded := { fresh with state := .ready, desc := (List.range 6).map fun i => BitVec.ofNat 64 (x.spadRead x.part (a + 8 * i) 8) }
  let put := fun (y : Stream) => s.modTile d t fun x => x.setStream c.unit y
  if x.spadPoisoned x.part a 48 then (put fresh).endCommand d t c.strand c.slot (some ⟨8, 3, BitVec.ofNat 64 (x.firstPoison a 48)⟩)
  else if streamBad loaded then (put fresh).endCommand d t c.strand c.slot (some ⟨1, 6, c.arg⟩)
  else (put loaded).endCommand d t c.strand c.slot none

/-- The first SGO of kind 6 in a region sends its forward decrements; one whose target is on another die stays for TSIG or
retirement (03 R66). -/
def State.openForward (s : State) (d t : Nat) : State :=
  match (s.tile d t).task with
  | none => s
  | some r => match s.record d r with
    | none => s
    | some q =>
      if q.forwardOpen || q.noDecr then s
      else (s.modRecord d r fun q => { q with forwardOpen := true }).over (List.range q.nsucc) fun i s =>
        match lget (s.successors d q) i with
        | some e => if succForward e && succDev e == s.plinth.podId && succDie e == d then s.sendDecrement d r i true else s
        | none => s

/-- SGO reaches its engine: its run is a new writer of the handle it fills (18 R412, 06 R144). -/
def State.startStream (s : State) (d t : Nat) (c : EngineCmd) : State :=
  let s := s.modStream d t c.unit fun x =>
    { x.rewind with state := .run, pos := 0, taken := 0, strand := c.strand, slot := c.slot }
  let x := (s.tile d t).stream c.unit
  if x.kind = 6 then s.openForward d t
  else if x.kind = 1 ∧ x.hu then
    let e := (s.tile d t).handle x.hnd
    s.putHandle d t x.hnd { e with writers := sdel e.writers c.unit }
  else s

/-- Takes a stream's reads and walks out of flight (18 R413, 10 R251). -/
def State.cancelStream (s : State) (d t e : Nat) : State :=
  s.forget fun a => a.agent == Agent.stream d t e

/-- Whether a run stands within a word: one that it has packed or written a part of, or whose first element is being written (06 R157). -/
def Stream.midWord (x : Stream) : Bool := x.packed != 0 || (!readKind x.kind && (x.wait || x.peer.any (·.write)))

/-- SHALT reaches its engine: none while a run stands within a word (18 R413, 06 R157). DESIGN CHOICE (log 93): a PARKED engine stops within its word,
of which a read run drops the elements. -/
def State.haltStream (s : State) (d t : Nat) (c : EngineCmd) : Option State :=
  let x := (s.tile d t).stream c.unit
  if x.state == .run && x.midWord then none
  else if x.state == .run || x.state == .parked then
    let s := ((s.dropStreamHandle d t c.unit).cancelStream d t c.unit).modTile d t fun t => (t.dropForward c.unit).settleRaces (.engine c.unit)
    some (((s.modStream d t c.unit Stream.rewind).lowerSlot d t x.strand x.slot).lowerSlot d t c.strand c.slot)
  else some (s.lowerSlot d t c.strand c.slot)

/-- What the command at the head of the queue does when it starts; none while it must wait there (06 R162, R163). An engine reads the descriptor,
so a racing store may not be there yet (09 R230). -/
def State.startCommand (s : State) (d t : Nat) (c : EngineCmd) : Option State :=
  let x := s.tile d t
  match c.kind with
  | 0 | 1 =>
    if 128 ≤ x.jobs.length then none
    else match (s.view d t true).1.copyDesc c.arg.toNat (c.kind == 1) with
      | .error r => some ((s.view d t true).2.endCommand d t c.strand c.slot (some r))
      | .ok y => some ((s.view d t true).2.startCopy d t y c.strand c.slot false)
  | 2 =>
    if c.arg = 0 then some ((s.modTile d t fun x => x.disarm c.unit).endCommand d t c.strand c.slot none)
    else match (s.view d t true).1.copyDesc c.arg.toNat false with
      | .error r => some ((s.view d t true).2.endCommand d t c.strand c.slot (some r))
      | .ok y => some (((s.view d t true).2.modTile d t fun x => x.arm c.unit ⟨y, c.strand⟩).endCommand d t c.strand c.slot none)
  | 3 =>
    if 8 ≤ (x.queue c.unit).length then none
    else some ((s.modTile d t fun x => x.putToken c.unit ⟨c.arg, false, .none, none⟩).endCommand d t c.strand c.slot none)
  | 4 => some (s.configureStream d t c)
  | 5 => some ((s.modStream d t c.unit fun y => { y with window := some c.arg }).endCommand d t c.strand c.slot none)
  | 6 => some (s.startStream d t c)
  | _ => s.haltStream d t c

/-- The turn of a tile's engine command queue: the command at its head leaves it once it can start (06 R163). -/
def State.engineTurn (s : State) (d t : Nat) : State :=
  match (s.tile d t).cmdq with
  | [] => s
  | c :: rest => match s.startCommand d t c with
    | some s => s.modTile d t fun x => { x with cmdq := rest }
    | none => s

/-! ### Issue -/

/-- Whether a stream command that names engine `e` has not reached it yet (18 R410). -/
def State.streamQueued (s : State) (e : Nat) : Bool := s.here.cmdq.any fun c => decide (4 ≤ c.kind) && c.unit == e
/-- Whether engine `e` is in RUN or PARKED. -/
def State.streamBusy (s : State) (e : Nat) : Bool := (s.here.stream e).state == .run || (s.here.stream e).state == .parked

/-- SCFG (18 R411). -/
def execScfg (a : Reg) (e : Fin 8) (o : Order) (s : State) : Out :=
  if !s.engineRoom || s.streamQueued e.val || s.streamBusy e.val then .next s
  else issueCommand s [a] o fun s =>
    let v := s.me.rd a
    if 0x1FFFD1 ≤ v.toNat then s.illOperand (.scfg a e o)
    else if v.toNat % 16 ≠ 0 then s.trapMe 4 4 v
    else s.putCommand 4 e.val v o

/-- Whether SWIN must trap ILL (06 R159, 18 R415). -/
def Stream.windowBad (x : Stream) (w : Word) : Bool :=
  let (_, kh, sv, dv) := windowFields w
  x.state != .ready || !readKind x.kind || bits (x.word 0) 56 2 == 0 || kh == 0 || sv == 0 || decide (8 < sv) || dv == 0 || decide (8 < dv)
    || decide (65536 < windowSpan w * x.count 0 * x.esz) || bits w.toNat 17 47 != 0 || x.dec

/-- SWIN (18 R415). -/
def execSwin (a : Reg) (e : Fin 8) (o : Order) (s : State) : Out :=
  if !s.engineRoom || s.streamQueued e.val then .next s
  else issueCommand s [a] o fun s =>
    if (s.here.stream e.val).windowBad (s.me.rd a) then s.illOperand (.swin a e o) else s.putCommand 5 e.val (s.me.rd a) o

/-- SGO: ILL with EVAL the engine in IDLE or FAULT, not ready in RUN or PARKED (18 R412). -/
def execSgo (e : Fin 8) (o : Order) (s : State) : Out :=
  if !s.engineRoom || s.streamQueued e.val || s.streamBusy e.val then .next s
  else issueCommand s [] o fun s =>
    if (s.here.stream e.val).state == .idle || (s.here.stream e.val).state == .fault then s.trapMe 1 5 (BitVec.ofNat 64 e.val)
    else s.putCommand 6 e.val 0 o

/-- SHALT (18 R413). -/
def execShalt (e : Fin 8) (o : Order) (s : State) : Out :=
  if !s.engineRoom || s.streamQueued e.val then .next s else issueCommand s [] o fun s => s.putCommand 7 e.val 0 o

/-- The code of a stream state (18 R414). -/
def StreamState.code : StreamState → Nat
  | .idle => 0 | .ready => 1 | .run => 2 | .parked => 3 | .fault => 4
/-- The stream status word (18 R414). -/
def Stream.status (x : Stream) : Word :=
  BitVec.ofNat 64 (x.state.code * 2 ^ 61 + flagCode x.window.isSome * 2 ^ 60 + (if x.state = .idle then 0 else x.kind) * 2 ^ 57
    + (if x.state = .fault then x.cause % 256 else 0) * 2 ^ 40 + x.pos % 2 ^ 40)
/-- SSTAT (18 R414). DESIGN CHOICE (log 101): the snapshot is the one at its issue (01 R20). -/
def execSstat (d : Reg) (e : Fin 8) (o : Order) (s : State) : Out :=
  if s.streamQueued e.val then .next s
  else issue s [d] o fun s => s.modMe fun t => (t.wr d (s.here.stream e.val).status).next

end Sys2Proof.Machine
end

