-- ==== Sys2Proof/Machine/Grid.lean ====
section
/-! DEFINITION. The grid: checks of a configuration, operands, triggers, the shared frame of a firing, delayed results, routes and
the switch of planes (05 R109 to R133, 03 R72, 11 R260, 15 R319, 16 R354, R365). -/
namespace Sys2Proof.Machine

/-! ### Checks of a configuration -/

/-- Column of a PE. -/
def peCol (pe : Nat) : Nat := pe % 16
/-- Row of a PE. -/
def peRow (pe : Nat) : Nat := pe / 16
/-- A memory-port PE (05 R109). -/
def isMemoryPe (pe : Nat) : Bool := peCol pe == 0 || peCol pe == 15
/-- A control PE (05 R109). -/
def isControlPe (pe : Nat) : Bool := (peCol pe == 4 || peCol pe == 11) && peRow pe % 2 == 0
/-- A function PE (05 R109). -/
def isFunctionPe (pe : Nat) : Bool := (peCol pe == 4 || peCol pe == 11) && peRow pe % 2 == 1

/-- Whether a PE executes an opcode (05 R110). -/
def peExecutes (pe op : Nat) : Bool :=
  if 0x17 ≤ op ∧ op ≤ 0x1A then isFunctionPe pe
  else if op = 0x21 ∨ op = 0x22 ∨ op = 0x23 ∨ op = 0x28 ∨ op = 0x29 then isControlPe pe
  else if 0x24 ≤ op ∧ op ≤ 0x27 then isMemoryPe pe
  else true

/-- Whether an opcode reads operand a. -/
def readsA (op : Nat) (f : PeWord) : Bool := op != 0 && op != 0x2A && !(op == 0x29 && f.sa == 0)
/-- Whether an opcode reads operand b. -/
def readsB (op : Nat) (f : PeWord) : Bool :=
  (decide (3 ≤ op) && decide (op ≤ 9)) || (decide (0xC ≤ op) && decide (op ≤ 0x10)) || (decide (0x12 ≤ op) && decide (op ≤ 0x16))
    || (decide (0x1B ≤ op) && decide (op ≤ 0x20) && op != 0x1C) || op == 0x22 || (op == 0x23 && f.lt == 6) || op == 0x25 || op == 0x26
    || op == 0x29
/-- Whether an opcode takes a third operand from DST (16 R359, 18 R418). -/
def readsC (op : Nat) : Bool := op == 6 || op == 7 || op == 0xD
/-- Whether SA or SB names an input queue. -/
def isQueue (x : Fin 16) : Bool := decide (8 ≤ x.val) && decide (x.val < 12)
/-- Whether SA or SB names a constant register. -/
def isConst (x : Fin 16) : Bool := decide (12 ≤ x.val)

/-- Check 0x0D: an operand or destination that the opcode's entry refuses (05 R114, 15 R319 and the entries). -/
def entryRefuses (op : Nat) (f : PeWord) : Bool :=
  let d := f.dst.val
  let out := decide (8 ≤ d) && decide (d ≤ 12)
  (!readsA op f && f.sa != 0) || (!readsB op f && f.sb != 0)
    || (match op with
      | 0 | 0x2A => d != 15 || f.lt != 0
      | 6 | 7 | 0xD => d == 15
      | 0x15 | 0x1B => !isConst f.sb
      | 0x16 => !isQueue f.sa || !isQueue f.sb || decide (2 < f.lt.val)
      | 0x17 | 0x18 | 0x19 | 0x1A => decide (2 < f.lt.val)
      | 0x1E => !out
      | 0x1F => d != 12
      | 0x21 => f.lt != 3 || !isQueue f.sa || !f.deq.getLsbD (f.sa.val - 8) || !out
      | 0x22 => f.lt != 3 || decide (8 ≤ d)
      | 0x23 => !isConst f.sa || !(f.lt == 3 && (decide (d ≤ 13) || d == 14) || f.lt == 6 && d == 15)
      | 0x24 => d == 15
      | 0x25 => d != 14
      | 0x26 | 0x27 | 0x28 => f.lt != 6 || d == 15
      | 0x29 => f.lt != 3 || !isConst f.sb || decide (d < 8)
      | _ => false)

/-- The output queues that a destination names (05 R113). -/
def destQueues (d : Nat) : List Nat := if 8 ≤ d ∧ d < 12 then [d - 8] else if d = 12 then [0, 1] else []

/-- The lowest check that a slot's word fails, 0 if it passes (05 R114). -/
def slotCheck (pe : Nat) (x : Plane) (w : BitVec 64) : Nat :=
  let op := bits w.toNat 25 7
  let f := peFields w.toNat
  if op = 0x7F then (if w.toNat = emptySlot then 0 else 0xC)
  else if 0x2B ≤ op then 1
  else if 6 < f.lt.val then 2
  else if !peExecutes pe op then 3
  else if f.pval &&& ~~~f.pcare ≠ 0 ∨ (f.pcare.getLsbD 0 ∧ !f.pval.getLsbD 0) then 4
  else if !f.tte ∧ (f.tq ≠ 0 ∨ f.tval ≠ 0) then 5
  else if (List.range 4).any (fun k => !f.inrdy.getLsbD k && (f.sa.val == 8 + k || f.sb.val == 8 + k || f.deq.getLsbD k || (f.tte && f.tq.val == k)))
    then 6
  else if (destQueues f.dst.val).any (fun q => !f.ospc.getLsbD q)
      ∨ (List.range 4).any (fun q => f.ospc.getLsbD q && !routeValid (x.route q)) then 7
  else if f.dst = 14 ∧ (!isMemoryPe pe ∨ op ≠ 0x25) then 8
  else if (f.pact = 0 ∧ f.pidx ≠ 0) ∨ (f.pact ≠ 0 ∧ f.pidx = 0) then 9
  else if entryRefuses op f then 0xD
  else 0

/-- Whether a route record breaks R120 in a PE of a tile of a `w` by `h` region. -/
def routeBad (pe tx ty w h : Nat) (r : BitVec 64) : Bool :=
  let n := r.toNat
  let k := routeKind r
  let s := routeSlots r
  if !routeValid r then r != 0
  else
    bits n 0 26 != 0 || decide (5 < k)
      || (k != 1 && (routeTile r != (0, 0))) || (decide (1 < k) && (routePe r != 0 || routeQueue r != 0)) || (decide (k < 2) && routeIdx r != 0)
      || s == 0 || decide ((if k < 2 then 4 else 8) < s)
      || (k == 2 && decide (8 < routeIdx r)) || (k == 3 && decide (7 < routeIdx r)) || (k == 4 && decide (63 < routeIdx r))
      || (k == 5 && decide (3 < routeIdx r))
      || (k == 1 && (routeTile r == (tx, ty) || decide (w ≤ (routeTile r).1) || decide (h ≤ (routeTile r).2)))
      || ((k == 3 || k == 4) && !isMemoryPe pe)

/-- Whether a VC entry breaks R123. -/
def vcBad (e : Nat) : Bool :=
  let fmt := bits e 12 4
  let sen := flagOf e 11
  decide (10 < fmt) || bits e 6 2 == 3 || bits e 0 6 != 0 || (sen && (decide (fmt < 7) || fmt == 10)) || (!sen && bits e 8 3 != 0)

/-- EVAL of a grid fault (05 R115). -/
def gridEval (tx ty pe slot area check : Nat) : Word :=
  BitVec.ofNat 64 (tx * 2 ^ 36 + ty * 2 ^ 32 + peCol pe * 2 ^ 28 + peRow pe * 2 ^ 25 + slot * 2 ^ 20 + area * 2 ^ 18 + check)

/-- The first failure of a plane in the order of the image: area, index, check (05 R114, R115). -/
def planeCheck (pe tx ty w h : Nat) (x : Plane) : Option (Nat × Nat × Nat) :=
  match x.slots.find? (fun e => slotCheck pe x e.2 != 0) with
  | some e => some (0, e.1, slotCheck pe x e.2)
  | none => match x.vc.find? (fun e => vcBad e.2.toNat) with
    | some e => some (2, e.1, 0xB)
    | none => match (List.range 4).find? (fun q => routeBad pe tx ty w h (x.route q)) with
      | some q => some (3, q, 0xA)
      | none => none

/-- One PE's part of a configuration image, read from a source of numbers (05 R128). -/
def planeOf (read : Nat → Nat → Nat) (bad : Nat → Nat → Bool) (pe : Nat) : Plane :=
  let o := 416 * pe
  { slots := (List.range 32).filterMap fun i =>
      let w := read (o + 8 * i) 8
      if w = emptySlot then none else some (i, BitVec.ofNat 64 w)
    consts := Vector.ofFn fun i => BitVec.ofNat 128 (read (o + 256 + 16 * i.val) 16)
    constPsn := BitVec.ofNat 8 (((List.range 8).map fun i => if bad (o + 256 + 8 * i) 8 then 2 ^ i else 0).sum)
    vc := (List.range 32).filterMap fun i =>
      let e := read (o + 320 + 2 * i) 2
      if e = 0 then none else some (i, BitVec.ofNat 16 e)
    routes := (List.range 4).filterMap fun q =>
      let r := read (o + 384 + 8 * q) 8
      if r = 0 then none else some (q, BitVec.ofNat 64 r) }

/-- Where a byte of a PE's part stands: its area and index (05 R115, R128). -/
def imagePlace (o : Nat) : Nat × Nat :=
  if o < 256 then (0, o / 8) else if o < 320 then (1, (o - 256) / 16) else if o < 384 then (2, (o - 320) / 2) else (3, (o - 384) / 8)

/-- A PE whose shadow has taken its part of an image, with its report (05 R129): a poisoned part reports CFGUE. -/
def Pe.load (p : Pe) (read : Nat → Nat → Nat) (bad : Nat → Nat → Bool) (pe tx ty w h : Nat) : Pe :=
  let x := planeOf read bad pe
  let p := p.setShadow x
  match (List.range 416).find? (fun i => bad (416 * pe + i) 1) with
  | some i =>
    let (area, slot) := imagePlace i
    { p with loadCode := 0x100, loadEval := gridEval tx ty pe slot area 0 }
  | none => match planeCheck pe tx ty w h x with
    | some (area, slot, code) => { p with loadCode := code, loadEval := gridEval tx ty pe slot area code }
    | none => { p with loadCode := 0, loadEval := 0 }

/-- A tile whose shadow loads an image (05 R129). -/
def Tile.loadImage (t : Tile) (site : Nat) (read : Nat → Nat → Nat) (bad : Nat → Nat → Bool) : Tile :=
  { (List.range 128).foldl (fun t pe => t.modPe pe fun p =>
      p.load read bad pe (t.relX site) (t.relY site) t.regionW t.regionH) t with shadow := .loading }

/-! ### Operands -/

/-- Whether I`k` is empty for the plane in force: it holds nothing, or an end token stands at its head (16 R354). -/
def Pe.queueEmpty (p : Pe) (k : Nat) : Bool :=
  match vget p.inq k with
  | [] => true
  | w :: _ => w.word.ended
/-- The head of I`k`. -/
def Pe.head (p : Pe) (k : Nat) : GWord :=
  match vget p.inq k with
  | [] => default
  | w :: _ => w.word
/-- The VC entry that a tag selects (05 R122). -/
def Pe.vcEntry (p : Pe) (tag : BitVec 5) : Nat := (tgetD p.plane.vc tag.toNat 0).toNat
/-- The parts of a word under an entry (05 R123). -/
def vcParts (e : Nat) : Nat := 2 ^ bits e 6 2

/-- Whether a lane type reads a format in so many parts (05 R124). -/
def pairOk (fmt lt parts : Nat) : Bool :=
  (fmt == lt && parts == 1) || ((fmt == 7 || fmt == 8) && (lt == 1 || lt == 2) && parts == 2) || ((fmt == 7 || fmt == 8) && lt == 0 && parts == 4)
    || (fmt == 9 && (lt == 1 || lt == 2) && parts == 4) || (fmt == 5 && lt == 4 && parts == 2) || (fmt == 5 && lt == 3 && parts == 4)
    || (fmt == 10 && lt == 5 && parts == 2) || (fmt == 4 && lt == 3 && parts == 2)

/-- The poison of both halves of a result. -/
def bothHalves (psn : Bool) : BitVec 2 := if psn then 3 else 0

/-- The poison of the halves of a constant register (11 R260). -/
def Plane.constPoison (x : Plane) (k : Nat) : BitVec 2 := x.constPsn.extractLsb' (2 * k) 2

/-- An operand as read: the word, the poison, the tag of a queue's head, whether its pair is allowed, whether a zero scale applied. -/
structure Operand where
  word : QWord
  psn : BitVec 2
  tag : Option (BitVec 5)
  ok : Bool
  zsc : Bool

/-- Widens a part of a queue word under its VC entry (05 R124, 07 R169, R170). -/
def Pe.widen (p : Pe) (mode : Rounding) (lt part e : Nat) (w : QWord) : QWord × Bool :=
  let fmt := bits e 12 4
  if fmt = lt then (w, false)
  else
    let src := laneFormat fmt
    let dst := laneFormat lt
    let scale := (vget p.plane.consts (bits e 8 2)).toNat
    let ue := flagOf e 10
    let one := fun (i : Nat) =>
      let n := part * dst.lanes + i
      let c := bits w.toNat (src.width * n) src.width
      if !flagOf e 11 then ((convert src dst mode c).1, false)
      else if fmt = 9 ∧ ue then scaleElement src dst mode true (bits scale (8 * (n / 8)) 8) (some (bits scale 32 8)) c
      else scaleElement src dst mode ue (bits scale 0 8) none c
    let l := (List.range dst.lanes).map one
    (ofLanes dst (l.map (·.1)), l.any (·.2))

/-- Reads an operand under a lane type: a register, a part of a queue's head, or a constant (05 R113, R117, R124, 15 R319). A part that the
head's entry does not have, which the part counter may name after a commit, is a free value (05 R130, log 2). -/
def Pe.operand (p : Pe) (mode : Rounding) (lt : Nat) (sel : Fin 16) : Operand :=
  let n := sel.val
  if n < 8 then ⟨vget p.d n, vget p.dPsn n, none, true, false⟩
  else if 12 ≤ n then ⟨vget p.plane.consts (n - 12), p.plane.constPoison (n - 12), none, true, false⟩
  else
    let h := p.head (n - 8)
    let e := p.vcEntry h.tag
    let k := vget p.part (n - 8)
    let (w, z) := if k < vcParts e then p.widen mode lt k e h.bits else (Config.partBeyond k h.bits, false)
    let scaled := flagOf e 11 && (p.plane.constPoison (bits e 8 2)).getLsbD 0
    ⟨w, if bits e 12 4 = lt then h.psn else bothHalves (h.psn != 0 || scaled), some h.tag, pairOk (bits e 12 4) lt (vcParts e), z⟩

/-- A queue word read whole, without its entry (15 R351). -/
def Pe.wholeOperand (p : Pe) (sel : Fin 16) : Operand :=
  let h := p.head (sel.val - 8)
  ⟨h.bits, h.psn, some h.tag, true, false⟩

/-- An operand that an opcode does not read. -/
def Operand.unread : Operand := ⟨0, 0, none, true, false⟩

/-! ### Triggers -/

/-- Whether a d register or predicate that a word reads or writes is marked pending (05 R116, R119). -/
def Pe.pendingHit (p : Pe) (op : Nat) (f : PeWord) : Bool :=
  let regs := (if readsA op f ∧ f.sa.val < 8 then [f.sa.val] else []) ++ (if readsB op f ∧ f.sb.val < 8 then [f.sb.val] else [])
    ++ (if f.dst.val < 8 then [f.dst.val] else []) ++ (if readsC op ∧ 8 ≤ f.dst.val then [7] else [])
  p.delayed.any fun r => (decide (r.dst < 8) && regs.contains r.dst)
    || (r.pact != 0 && (f.pcare.getLsbD r.pidx || (f.pact != 0 && f.pidx.val == r.pidx)))

/-- The trigger of a slot's word but for its opcode condition (05 R116). -/
def Pe.trigger (p : Pe) (op : Nat) (f : PeWord) : Bool :=
  ((List.range 8).all fun i => !f.pcare.getLsbD i || predGet p.p i == f.pval.getLsbD i)
    && ((List.range 4).all fun k => !(f.inrdy.getLsbD k && p.queueEmpty k) && !(f.ospc.getLsbD k && decide (4 ≤ (vget p.outq k).length)))
    && (!f.tte || (!p.queueEmpty f.tq.val && (p.head f.tq.val).tag == f.tval)) && !p.pendingHit op f

/-- The opcode condition: ENDK needs room in every output queue with a route, BARN a released arrival (16 R354, 15 R331). -/
def Pe.opCondition (p : Pe) (op slot : Nat) : Bool :=
  if op = 0x2A then (List.range 4).all fun q => !routeValid (p.plane.route q) || decide ((vget p.outq q).length < 4)
  else if op = 0x29 then tgetD p.arrivals slot false
  else true

/-- Whether the grid of a tile runs: its task is RUNNING and no freeze has reached it. A predecessor whose strands have ended fires on
while its spliced successor holds the region with it, until its boundary is complete (02 R44, 03 R73, 05 R117, R133). -/
def State.gridRuns (s : State) (d site : Nat) : Bool :=
  let t := s.tile d site
  match t.task.bind (s.record d) with
  | none => false
  | some r => r.state == .running && (r.endReq == .none || (r.endReq == .done && match t.succ.bind (s.record d) with
      | some q => q.state.holdsRegion
      | none => false))

/-- Whether a PE of a tile may fire at all: the grid runs and is FIRING, a plane is active, the PE has not ended (01 R21, 05 R117,
R131, 16 R354, 13 R284). -/
def State.mayFire (s : State) (d site pe : Nat) : Bool :=
  let t := s.tile d site
  let p := t.pe pe
  s.gridRuns d site && t.firing && (t.planeOn || p.switched) && !p.ended && !(s.die d).withheld

/-- The slot that a PE fires: the lowest whose trigger holds (05 R117). -/
def Pe.firingSlot (p : Pe) : Option (Nat × BitVec 64) :=
  p.plane.slots.find? fun e =>
    let op := bits e.2.toNat 25 7
    op != 0x7F && p.trigger op (peFields e.2.toNat) && p.opCondition op e.1

/-! ### Firing -/

/-- What a firing gives: the result, the tag if the opcode sets it, whether SAT is set, the queues whose DEQ it suppresses, a
destination of its own, and the kind of a delayed result. -/
structure Fired where
  word : QWord
  psn : BitVec 2
  flag : Bool
  tag : Option (BitVec 5)
  sat : Bool
  keep : List Nat
  dst : Nat
  delay : Option Nat

/-- How a firing ends: a pairing failure, the consumption of poison, or its effect and what it does beside its result. -/
inductive Firing where
  | pairing
  | poison
  | done (r : Fired) (after : State → Nat → State)

/-- What a firing sees: the tile, the PE, the rounding mode, the operands, the third operand, and its slot. -/
structure Ctx where
  tile : Tile
  p : Pe
  mode : Rounding
  a : Operand
  b : Operand
  c : QWord
  cPsn : Bool
  f : PeWord
  slot : Nat

/-- The rounding mode of the plane that a PE reads (04 R104, 03 R72). -/
def Tile.mode (t : Tile) (p : Pe) : Rounding := Rounding.ofMode (if p.switched then t.rndNew else t.rndAct)

/-- The record that a PE's plane belongs to: a switched PE fires the spliced successor's plane (05 R115, 03 R72). -/
def Tile.planeTask (t : Tile) (p : Pe) : Option Nat := if (p.switched || t.bndDone) && t.succ.isSome then t.succ else t.task

/-- A fault that the grid finds at firing: the successor's own failure for a switched PE of a splice; otherwise the grid is HELD
and strand 0 takes the report (05 R115, R124, 11 R260). -/
def State.gridFault (s : State) (d site pe : Nat) (cause detail : Nat) (eval : Word) (pairing : Bool) : State :=
  let t := s.tile d site
  match (t.pe pe).switched || t.bndDone, t.succ with
  | true, some n => s.failTask d n ⟨cause, detail, eval⟩ ⟨0, t.relX site, t.relY site, 0⟩
  | _, _ => (s.modTile d site fun t => { t with firing := false, heldPf := pairing }).routeReport d site 0 ⟨cause, detail, eval⟩

/-- Writes a result into a d register, with the poison of its halves. -/
def Pe.setD (p : Pe) (n : Nat) (w : QWord) (psn : BitVec 2) : Pe := { p with d := vset p.d n w, dPsn := vset p.dPsn n psn }

/-- The predicate action (05 R113). -/
def Pe.act (p : Pe) (pact pidx : Nat) (flag : Bool) : Pe :=
  match pact with
  | 1 => { p with p := predSet p.p pidx true }
  | 2 => { p with p := predSet p.p pidx false }
  | 3 => { p with p := predSet p.p pidx flag }
  | _ => p

/-- Appends a place to an output queue under the route in force. -/
def Pe.enqueue (p : Pe) (q id : Nat) (w : Option GWord) : Pe :=
  { p with outq := vset p.outq q (vget p.outq q ++ [⟨id, p.plane.route q, w⟩]) }

/-- Delivers a result that is there (05 R113, R117). -/
def Pe.deliver (p : Pe) (dst : Nat) (w : GWord) : Pe :=
  if dst < 8 then p.setD dst w.bits w.psn else (destQueues dst).foldl (fun p q => p.enqueue q 0 (some w)) p

/-- Advances the part counter of an input queue; the head is dequeued, and its source given back, where the counter equals the parts of its
entry (05 R117). `whole` dequeues at once. -/
def Pe.advance (p : Pe) (k : Nat) (whole : Bool) : Pe × Option Source :=
  match vget p.inq k with
  | [] => (p, none)
  | h :: rest =>
    let n := vget p.part k + 1
    if whole ∨ n = vcParts (p.vcEntry h.word.tag) then
      ({ p with inq := vset p.inq k rest, part := vset p.part k 0 }, some h.src)
    else ({ p with part := vset p.part k n }, none)

/-- Applies a firing to its PE: the result, the predicate action, the dequeues (05 R117, R119). `whole` lists queues whose DEQ takes
the whole word. DESIGN CHOICE (log 91): R187 promises when an SRD sees a flag that a firing sets only in the cases that it lists; the model
shows it at once. -/
def State.applyFiring (s : State) (c : Ctx) (r : Fired) (whole : List Nat) : State × Nat :=
  let d := s.cur.die
  let site := s.cur.site
  let pe := s.cur.pe
  let tag := r.tag.getD ((c.a.tag.orElse fun _ => c.b.tag).getD 0)
  let w : GWord := ⟨r.word, tag, r.psn, false, false⟩
  let (id, s) := s.fresh
  let s := s.modTile d site fun t => ((t.orSat r.sat).orZsc (c.a.zsc || c.b.zsc)).modPe pe fun p =>
    match r.delay with
    | none => (p.deliver r.dst w).act c.f.pact.val c.f.pidx.val r.flag
    | some kind =>
      let p := (destQueues r.dst).foldl (fun p q => p.enqueue q id none) p
      { p with delayed := p.delayed ++ [⟨id, r.dst, w, r.flag, c.f.pact.val, c.f.pidx.val, kind⟩] }
  let s := s.over (List.range 4) fun k s =>
    if c.f.deq.getLsbD k && !r.keep.contains k then
      let (p, src) := ((s.tile d site).pe pe).advance k (whole.contains k)
      let s := s.modTile d site fun t => t.setPe pe p
      match src with
      | some x => s.returnCredit d site x
      | none => s
    else s
  (s.departPe d site pe, id)

/-- The context of a firing of the PE that has the move. -/
def State.firingCtx (s : State) (op : Nat) (f : PeWord) (whole : Bool) : Ctx :=
  let t := s.here
  let p := t.pe s.cur.pe
  let mode := t.mode p
  let third := if f.dst.val < 8 then f.dst.val else 7
  { tile := t, p := p, mode := mode, f := f, slot := s.cur.slot
    a := if readsA op f then p.operand mode f.lt.val f.sa else Operand.unread
    b := if readsB op f then (if whole then p.wholeOperand f.sb else p.operand mode f.lt.val f.sb) else Operand.unread
    c := vget p.d third, cPsn := vget p.dPsn third != 0 }

/-- The opcodes whose flag depends on no operand. -/
def constantFlag (op : Nat) : Bool := [0, 2, 0x1C, 0x1D, 0x1E, 0x23, 0x25, 0x29, 0x2A].contains op

/-- Whether PACT takes a flag that an opcode computes from a poisoned operand (11 R260): the flags of MAMO and MTAS come from their
status and the memory tile. -/
def Ctx.flagPoison (c : Ctx) (op : Nat) : Bool :=
  c.f.pact == 3 && (c.a.psn != 0 || c.b.psn != 0) && !constantFlag op && op != 0x26 && op != 0x27

/-- What keeps a firing from its effect: a pair that R124 does not list, or poison that it consumes (11 R260). -/
inductive Refused where | pairing | poison
  deriving DecidableEq, Repr

/-- Whether a firing fails its pairing: an operand's pair, or the opcode's own control word (05 R124). -/
def Ctx.badPair (c : Ctx) (g : Firing) : Bool :=
  !c.a.ok || !c.b.ok || (match g with
    | .pairing => true
    | .poison => false
    | .done _ _ => false)
/-- Whether a firing consumes poison (11 R260). -/
def Ctx.badPoison (c : Ctx) (op : Nat) (g : Firing) : Bool :=
  c.flagPoison op || (match g with
    | .pairing => false
    | .poison => true
    | .done r _ => c.a.ok && c.b.ok && c.f.pact == 3 && r.psn != 0 && !constantFlag op)

/-- The report of a firing that has no effect: the grid is HELD (05 R115, R124, 11 R260). -/
def State.refuseFiring (s : State) (r : Refused) : State :=
  let t := s.here
  let eval := gridEval (t.relX s.cur.site) (t.relY s.cur.site) s.cur.pe s.cur.slot 0
  match r with
  | .pairing => s.gridFault s.cur.die s.cur.site s.cur.pe 0xB 0x10 (eval 0x10) true
  | .poison => s.gridFault s.cur.die s.cur.site s.cur.pe 8 4 (eval 0) false

/-- The frame of every PE opcode: the slot fires when its trigger holds; a pairing failure or the consumption of poison holds the
grid and has no other effect; a flag that PACT takes consumes the poison of the operands (05 R116, R117, R124, 11 R260). DESIGN CHOICE (log 46): neither R124 nor R260
goes before the other, so a free choice says which a firing reports that fails its pairing and consumes poison. -/
def fire (op : Nat) (f : PeWord) (s : State) (go : Ctx → Firing) : Out :=
  let p := s.here.pe s.cur.pe
  if !s.mayFire s.cur.die s.cur.site s.cur.pe || !p.trigger op f || !p.opCondition op s.cur.slot then .next s
  else
    let c := s.firingCtx op f (op == 0x16)
    let g := go c
    if c.badPair g && c.badPoison op g then
      let (n, s) := s.pick 2
      .next (s.refuseFiring (if n = 0 then .pairing else .poison))
    else if c.badPair g then .next (s.refuseFiring .pairing)
    else if c.badPoison op g then .next (s.refuseFiring .poison)
    else match g with
      | .done r after =>
        let (s, id) := s.applyFiring c r (if op = 0x16 then [f.sb.val - 8] else [])
        .next (after s id)
      | .pairing | .poison => .next s

/-- A result delivered in the firing's own a-cycle, poisoned with the operands. -/
def Ctx.result (c : Ctx) (w : QWord) (flag : Bool) : Fired :=
  ⟨w, bothHalves (c.a.psn != 0 || c.b.psn != 0), flag, none, false, [], c.f.dst.val, none⟩
/-- A firing that only gives a result. -/
def Ctx.done (c : Ctx) (w : QWord) (flag : Bool) : Firing := .done (c.result w flag) fun s _ => s
/-- The format of the lanes of a firing. -/
def Ctx.fmt (c : Ctx) : Format := laneFormat c.f.lt.val

/-! ### Events of the grid -/

/-- Writes a delayed result: its register, or the place that its queue holds for it, then its predicate (05 R119). -/
def Pe.settle (p : Pe) (r : Delayed) : Pe :=
  let p := { p with delayed := p.delayed.filter fun x => x.id != r.id }
  let p := if r.dst < 8 then p.setD r.dst r.word.bits r.word.psn
    else (destQueues r.dst).foldl (fun p q => { p with outq := vset p.outq q ((vget p.outq q).map fun o =>
      if o.id = r.id ∧ o.word = none then { o with word := some r.word } else o) }) p
  p.act r.pact r.pidx r.flag

/-- Puts a route word into an input queue of a PE that has room. -/
def State.arrivePe (s : State) (d site pe q : Nat) (w : Queued) : Option State :=
  if (vget ((s.tile d site).pe pe).inq q).length < 4 then some (s.modTile d site fun t => t.modPe pe fun p => p.put q w) else none

/-- A route word reaches its destination if there is room (05 R120, R121, 06 R151, R156, 16 R366); an end token that reaches no PE is
discarded with its credit (16 R354). -/
def State.landWord (s : State) (d site : Nat) (x : InFlight) : Option State :=
  let src := Source.route site x.pe x.q
  let w : Queued := ⟨x.word, src⟩
  let t := s.tile d site
  let i := routeIdx x.route
  let k := routeKind x.route
  if k = 0 then s.arrivePe d site (routePe x.route) (routeQueue x.route) w
  else if k = 1 then
    let (tx, ty) := routeTile x.route
    s.arrivePe d (t.siteAt tx ty) (routePe x.route) (routeQueue x.route) w
  else if x.word.ended then some (s.returnCredit d site src)
  else if k = 2 then
    (if i < 9 ∧ (t.island.lanes.toList.getD i []).length < 8 then
      some (s.modTile d site fun t => { t with island := { t.island with lanes := vset t.island.lanes i (vget t.island.lanes i ++ [w]) } })
     else none)
  else if k = 3 then
    (if (t.stream i).port.length < 8 then some (s.modStream d site i fun x => { x with port := x.port ++ [w] }) else none)
  else if k = 4 then
    (if (t.queue i).length < 8 then
      some (s.modTile d site fun t => t.putToken i ⟨BitVec.ofNat 64 x.word.bits.toNat, x.word.psn.getLsbD 0, src, none⟩)
     else none)
  else if (t.port i).length < 8 then some (s.modTile d site fun t => t.setPort i (t.port i ++ [w])) else none

/-- A tile of a drained or frozen region: every word of kind 1 has entered its queue (16 R362). -/
def Tile.routesClear (t : Tile) (deep : Bool) : Bool := !deep || t.routes.all fun r => routeKind r.route != 1

/-- Whether a tile's grid is quiet: HELD, with no pending result (16 R362). -/
def Tile.gridQuiet (t : Tile) (deep : Bool) : Bool := !t.firing && t.pes.all (fun e => e.2.delayed.isEmpty) && t.routesClear deep

/-- Ends the GFRZ and GDRAIN commands of a tile's region that have what they wait for; the accesses of the firings before are then performed (16
R362, 09 R229). -/
def State.settleGrid (s : State) (d site : Nat) : State :=
  let t := s.tile d site
  match t.task with
  | none => s
  | some _ => s.over t.sites fun y s =>
      let due := (s.tile d y).gridCmds.filter fun c =>
        (c.kind == 2 || c.kind == 4) && c.sites.all fun z => (s.tile d z).gridQuiet (c.kind == 2)
      let s := s.over (due.flatMap (·.sites)) fun z s => s.modTile d z fun t => t.settleRaces .grid
      (s.over due fun c s => s.lowerSlot d y c.strand c.slot).modTile d y fun t => { t with gridCmds := t.gridCmds.filter fun c => !due.contains c }

/-- DELAYED_RESULT: delayed result `k` of the tile, which waits for nothing more, is delivered (05 R119). -/
def execDelayedResult (die site k : Nat) (s : State) : Out :=
  match (s.tile die site).pes.find? fun e => e.2.delayed.any fun r => r.id == k && r.kind == 0 with
  | none => .next s
  | some (pe, p) => match p.delayed.find? fun r => r.id == k with
    | none => .next s
    | some r => .next (((s.modTile die site fun t => t.modPe pe fun p => p.settle r).departPe die site pe).settleGrid die site)

/-- ROUTE_WORD_ARRIVAL: the `k`-th word in flight from the tile reaches its destination, behind the older words of its route (05
R121). -/
def execRouteWordArrival (die site k : Nat) (s : State) : Out :=
  let l := (s.tile die site).routes
  match lget l k with
  | none => .next s
  | some x =>
    if (l.take k).any fun y => y.pe == x.pe && y.q == x.q then .next s
    else match (s.modTile die site fun t => { t with routes := ldel t.routes k }).landWord die site x with
      | some s => .next (s.settleGrid die site)
      | none => .next s

/-! ### The barrier tree -/

/-- Releases the arrivals of a group that were registered in a phase (15 R331). -/
def Pe.releaseArrivals (p : Pe) (g phase : Nat) : Pe :=
  let hit := fun (slot : Nat) => tgetD p.arrivalGroup slot 0 == g && tgetD p.arrivalPhase slot 0 == phase
  { p with arrivals := p.arrivals.map fun a => (a.1, a.2 || hit a.1) }

/-- Registers an arrival of a BARN slot: the one that reaches the count of the arrival that opened the phase completes it and releases
every arrival of the phase (15 R331). -/
def State.barrierArrive (s : State) (d site pe slot rec_ : Nat) (g n : Nat) : State :=
  match s.record d rec_ with
  | none => s
  | some r =>
    let (count, phase, open_) := tgetD r.barrier g (0, 0, 0)
    let n := if count = 0 then max n 1 else open_
    let s := s.modTile d site fun t => t.modPe pe fun p =>
      { p with arrivals := tput p.arrivals slot false, arrivalPhase := tput p.arrivalPhase slot phase,
               arrivalGroup := tput p.arrivalGroup slot g }
    if count + 1 < n then s.modRecord d rec_ fun r => { r with barrier := tput r.barrier g (count + 1, phase, n) }
    else
      (s.modRecord d rec_ fun r => { r with barrier := tput r.barrier g (0, (phase + 1) % 2 ^ 32, 0) }).over r.sites fun y s =>
        s.modTile d y fun t =>
          let pes := t.pes.map fun e => if t.planeTask e.2 = some rec_ then (e.1, e.2.releaseArrivals g phase) else e
          { t with pes := pes }

/-- Registers the arrival of a BARN slot whose trigger's terms but its opcode condition hold and that holds no arrival (15 R331). -/
def State.registerArrival (s : State) (d site pe slot : Nat) : State :=
  let t := s.tile d site
  let p := t.pe pe
  match tget p.plane.slots slot, t.planeTask p with
  | some w, some r =>
    let f := peFields w.toNat
    if bits w.toNat 25 7 = 0x29 ∧ s.mayFire d site pe ∧ (tget p.arrivals slot).isNone ∧ p.trigger 0x29 f then
      let c := (vget p.plane.consts (f.sb.val - 12)).toNat
      s.barrierArrive d site pe slot r (bits c 0 3) (bits c 32 16)
    else s
  | _, _ => s
/-- The arrivals that a PE registers in an a-cycle, before it fires (15 R331). -/
def State.registerArrivals (s : State) (d site pe : Nat) : State :=
  s.over ((((s.tile d site).pe pe).plane.slots.filter fun e => bits e.2.toNat 25 7 == 0x29).map (·.1)) fun k s => s.registerArrival d site pe k
/-- BARN_ARRIVAL: a slot registers its arrival (15 R331). -/
def execBarnArrival (die site pe slot : Nat) (s : State) : Out := .next (s.registerArrival die site pe slot)

/-! ### The moving boundary -/

/-- The input queues of a PE that have a route in the planes that the region's PEs read now (03 R72). -/
def State.routedQueues (s : State) (d site pe : Nat) : BitVec 4 :=
  let t := s.tile d site
  t.sites.foldl (fun acc y =>
    let u := s.tile d y
    u.pes.foldl (fun acc e => (List.range 4).foldl (fun acc q =>
      let r := e.2.plane.route q
      let ends := routeValid r && routePe r == pe
        && ((routeKind r == 0 && y == site) || (routeKind r == 1 && t.siteAt (routeTile r).1 (routeTile r).2 == site))
      if ends then acc ||| BitVec.ofNat 4 (2 ^ routeQueue r) else acc) acc) acc) 0

/-- Arms a loaded tile: its boundary begins (16 R365, 03 R72). -/
def State.armTile (s : State) (d site : Nat) (mode : BitVec 3) : State :=
  let ins := (List.range 128).map fun pe => s.routedQueues d site pe
  s.modTile d site fun t =>
    let t := (List.range 128).foldl (fun t pe => t.modPe pe fun p => { p with switched := false, ins := (lget ins pe).getD 0 }) t
    { t with shadow := .armed, splicing := true, rndNew := mode }

/-- Whether a plane holds no slot and no route (03 R72). -/
def Plane.bare (x : Plane) : Bool := x.slots.isEmpty && x.routes.isEmpty

/-- Whether a PE of an armed tile may switch (03 R72). -/
def Pe.maySwitch (p : Pe) : Bool :=
  !p.switched && (p.ended || (p.ins != 0 && (List.range 4).all fun k => !p.ins.getLsbD k || (p.head k).ended) || p.plane.bare)

/-- A PE that has turned to its other plane: LGEN counters, arrivals and the ended state are cleared (03 R72, 16 R365, 15 R332). -/
def Pe.turn (p : Pe) : Pe := { p with onB := !p.onB, lgen := [], arrivals := [], arrivalPhase := [], arrivalGroup := [], ended := false }

/-- Takes the end tokens at the heads of a PE's queues and returns their credits (16 R354). -/
def State.takeEndTokens (s : State) (d site pe : Nat) : State :=
  s.over (List.range 4) fun k s =>
    match vget ((s.tile d site).pe pe).inq k with
    | w :: rest =>
      if w.word.ended then
        (s.modTile d site fun t => t.modPe pe fun p => { p with inq := vset p.inq k rest, part := vset p.part k 0 }).returnCredit d site w.src
      else s
    | [] => s

/-- A tile whose PEs have all switched: the old plane becomes its shadow, not loaded (16 R365, 03 R72). -/
def Tile.endBoundary (t : Tile) : Tile :=
  if t.splicing && (List.range 128).all (fun pe => (t.pe pe).switched) then
    { t with pes := t.pes.map fun e => (e.1, { e.2 with switched := false }), splicing := false, shadow := .notLoaded, planeOn := true,
             actB := !t.actB, rndAct := t.rndNew, bndDone := true }
  else t

/-- Marks the words for stream ports that a PE's predecessor plane has written, wherever they stand, as the PE switches to the successor's plane (03
R72, 06 R156). -/
def Tile.markOld (t : Tile) (site pe : Nat) : Tile :=
  let mark := fun (w : GWord) => { w with old := true }
  let mine := fun (x : Source) => match x with
    | .route y p _ => y == site && p == pe
    | .dport | .none => false
  let t := t.modPe pe fun p => { p with
    outq := p.outq.map fun l => l.map fun o => if routeKind o.route = 3 then { o with word := o.word.map mark } else o
    delayed := p.delayed.map fun r => { r with word := mark r.word } }
  { t with
    routes := t.routes.map fun x => if x.pe = pe ∧ routeKind x.route = 3 then { x with word := mark x.word } else x
    streams := t.streams.map fun e => (e.1, { e.2 with port := e.2.port.map fun w => if mine w.src then { w with word := mark w.word } else w }) }

/-- PE_PLANE_SWITCH: a PE of a tile in a boundary switches when R72 lets it (03 R72, 16 R365). -/
def execPePlaneSwitch (die site pe : Nat) (s : State) : Out :=
  let t := s.tile die site
  if !t.splicing || 128 ≤ pe || !(t.pe pe).maySwitch then .next s
  else
    let s := s.modTile die site fun t => if t.succ.isSome then t.markOld site pe else t
    let s := (s.takeEndTokens die site pe).modTile die site fun t => t.modPe pe fun p => { p.turn with switched := true }
    .next (s.modTile die site Tile.endBoundary)

end Sys2Proof.Machine
end

