-- ==== Sys2Proof/Machine/GridOps.lean ====
section
/-! DEFINITION. The PE opcodes (05 R110, R125 to R127; the grid forms of the reference entries). -/
namespace Sys2Proof.Machine

/-! ### Shared operations -/

/-- An operation on pairs of lanes whose flag is that lane 0 of the result is zero. -/
def firePair (op : Nat) (w : PeWord) (s : State) (g : Format → Rounding → Nat → Nat → Nat) : Out :=
  fire op w s fun c =>
    let r := zipLanes c.fmt (g c.fmt c.mode) c.a.word c.b.word
    c.done r (laneZero c.fmt (lane c.fmt r 0))

/-- A bitwise operation: the flag is that all 128 bits are 0 (17 R400). -/
def fireBits (op : Nat) (w : PeWord) (s : State) (g : QWord → QWord → QWord) : Out :=
  fire op w s fun c => c.done (g c.a.word c.b.word) (g c.a.word c.b.word == 0)

/-- FMA or FMS (16 R359). -/
def fireFused (op : Nat) (w : PeWord) (s : State) (neg : Bool) : Out :=
  fire op w s fun c =>
    let f := c.fmt
    let r := ofLanes f ((List.range f.lanes).map fun i => fmaLane f c.mode neg (lane f c.a.word i) (lane f c.b.word i) (lane f c.c i))
    .done { c.result r (laneZero f (lane f r 0)) with psn := bothHalves (c.a.psn != 0 || c.b.psn != 0 || c.cPsn) } fun s _ => s

/-- MIN or MAX: the flag is that lane 0 comes from b (17 R381). -/
def fireMinMax (op : Nat) (w : PeWord) (s : State) (max : Bool) : Out :=
  fire op w s fun c =>
    c.done (zipLanes c.fmt (minMaxLane c.fmt max) c.a.word c.b.word) (takesB c.fmt max (lane c.fmt c.a.word 0) (lane c.fmt c.b.word 0))

/-- ABS or NEG: SAT when a lane saturates. The flag is a sign bit: of the operand, or of the result. -/
def fireSign (op : Nat) (w : PeWord) (s : State) (g : Format → Nat → Nat × Bool) (ofResult : Bool) : Out :=
  fire op w s fun c =>
    let f := c.fmt
    let l := (List.range f.lanes).map fun i => g f (lane f c.a.word i)
    let r := ofLanes f (l.map (·.1))
    .done { c.result r ((lane f (if ofResult then r else c.a.word) 0).testBit (f.width - 1)) with sat := l.any (·.2) } fun s _ => s

/-- A shift: lane by lane, modulo the lane's width, on the bits of every lane type; the flag is that no bit of lane 0 is set (18 R421). -/
def fireShift (op : Nat) (w : PeWord) (s : State) (g : Nat → Nat → Nat → Nat) : Out :=
  fire op w s fun c =>
    let r := zipLanes c.fmt (fun a b => g c.fmt.width a (b % c.fmt.width)) c.a.word c.b.word
    c.done r (lane c.fmt r 0 == 0)

/-- A function opcode: delivered later; the flag is that lane 0 is infinite or NaN (16 R357). -/
def fireFunction (op : Nat) (w : PeWord) (s : State) (g : Format → Rounding → Nat → Nat) : Out :=
  fire op w s fun c =>
    let r := mapLanes c.fmt (g c.fmt c.mode) c.a.word
    let bad := match decodeVal c.fmt (lane c.fmt r 0) with
      | .nan _ _ _ => true
      | .inf _ => true
      | .fin _ _ _ => false
    .done { c.result r bad with delay := some 0 } fun s _ => s

/-- Reduces lanes by the pairwise tree (07 R186). -/
def reduceTree (g : Nat → Nat → Nat) : List Nat → List Nat
  | a :: b :: l => g a b :: reduceTree g l
  | l => l
/-- The stages of the tree. -/
def reduceLanes (g : Nat → Nat → Nat) : Nat → List Nat → Nat
  | 0, l => l.headD 0
  | n + 1, l => reduceLanes g n (reduceTree g l)

/-! ### Moves and arithmetic -/

/-- NOP (17 R399). -/
def execGridNop (w : PeWord) (s : State) : Out := fire 0 w s fun c => c.done 0 false
/-- MOVE: the flag is that all 128 bits are 0 (17 R385). -/
def execMove (w : PeWord) (s : State) : Out :=
  fire 1 w s fun c => .done { c.result c.a.word (c.a.word == 0) with psn := c.a.psn } fun s _ => s
/-- DUP (16 R353). -/
def execDup (w : PeWord) (s : State) : Out :=
  fire 2 w s fun c => c.done (ofLanes c.fmt ((List.range c.fmt.lanes).map fun i => lane c.fmt c.a.word (i / 2))) false
/-- ADD (15 R322). -/
def execGridAdd (w : PeWord) (s : State) : Out := firePair 3 w s addLane
/-- SUB (18 R428). -/
def execGridSub (w : PeWord) (s : State) : Out := firePair 4 w s subLane
/-- MUL (17 R386). -/
def execGridMul (w : PeWord) (s : State) : Out := firePair 5 w s mulLane
/-- FMA (16 R359). -/
def execFma (w : PeWord) (s : State) : Out := fireFused 6 w s false
/-- FMS (16 R359). -/
def execFms (w : PeWord) (s : State) : Out := fireFused 7 w s true
/-- MIN (17 R381). -/
def execGridMin (w : PeWord) (s : State) : Out := fireMinMax 8 w s false
/-- MAX (17 R381). -/
def execGridMax (w : PeWord) (s : State) : Out := fireMinMax 9 w s true
/-- ABS (15 R320). -/
def execAbs (w : PeWord) (s : State) : Out := fireSign 0xA w s absLane false
/-- NEG (17 R397). -/
def execNeg (w : PeWord) (s : State) : Out := fireSign 0xB w s negLane true
/-- CMP: the flag is that lane 0's code is 1 (15 R344). -/
def execGridCmp (w : PeWord) (s : State) : Out :=
  fire 0xC w s fun c => c.done (zipLanes c.fmt (cmpLane c.fmt) c.a.word c.b.word) (cmpLane c.fmt (lane c.fmt c.a.word 0) (lane c.fmt c.b.word 0) == 1)
/-- SEL: lane by lane under the mask that DST names; the flag is that lane 0 took a (18 R418). -/
def execGridSel (w : PeWord) (s : State) : Out :=
  fire 0xD w s fun c =>
    let f := c.fmt
    let r := ofLanes f ((List.range f.lanes).map fun i => if lane f c.c i ≠ 0 then lane f c.a.word i else lane f c.b.word i)
    .done { c.result r (lane f c.c 0 != 0) with psn := bothHalves (c.a.psn != 0 || c.b.psn != 0 || c.cPsn) } fun s _ => s
/-- AND (15 R326). -/
def execGridAnd (w : PeWord) (s : State) : Out := fireBits 0xE w s fun a b => a &&& b
/-- OR (17 R400). -/
def execGridOr (w : PeWord) (s : State) : Out := fireBits 0xF w s fun a b => a ||| b
/-- XOR (18 R443). -/
def execGridXor (w : PeWord) (s : State) : Out := fireBits 0x10 w s fun a b => a ^^^ b
/-- NOT (17 R400). -/
def execNot (w : PeWord) (s : State) : Out := fireBits 0x11 w s fun a _ => ~~~a
/-- SHL (18 R421). -/
def execGridShl (w : PeWord) (s : State) : Out := fireShift 0x12 w s fun _ a k => a * 2 ^ k
/-- SHR (18 R421). -/
def execGridShr (w : PeWord) (s : State) : Out := fireShift 0x13 w s fun _ a k => a / 2 ^ k
/-- SRA (18 R421). -/
def execGridSra (w : PeWord) (s : State) : Out := fireShift 0x14 w s fun n a k => ((BitVec.ofNat n a).sshiftRight k).toNat

/-! ### Conversions and functions -/

/-- CVT: the control word names the target and the part; a bad one is a pairing failure; the flag is SAT (15 R350). -/
def execCvt (w : PeWord) (s : State) : Out :=
  fire 0x15 w s fun c =>
    let ctl := bits c.b.word.toNat 0 32
    match Format.ofCode (bits ctl 0 4) with
    | none => .pairing
    | some t =>
      if bits ctl 6 26 ≠ 0 then .pairing
      else
        let n := min c.fmt.lanes t.lanes
        let one := fun (j : Nat) =>
          let i := bits ctl 4 2 * n + j
          if i < c.fmt.lanes then convert c.fmt t c.mode (lane c.fmt c.a.word i) else (0, false)
        let l := (List.range n).map one
        .done { c.result (ofLanes t (l.map (·.1))) (l.any (·.2)) with sat := l.any (·.2) } fun s _ => s
/-- CVTS: stochastic rounding with the lanes of the random word; the target is the format of its tag's entry (15 R351). -/
def execCvts (w : PeWord) (s : State) : Out :=
  fire 0x16 w s fun c =>
    let tf := bits (c.p.vcEntry (c.b.tag.getD 0)) 12 4
    if !(tf == 1 || tf == 2 || tf == 7 || tf == 8 || tf == 9) || tf == w.lt.val then .pairing
    else
      let t := laneFormat tf
      let one := fun (i : Nat) =>
        let r := if c.fmt.lanes = 4 then bits c.b.word.toNat (32 * i) 32 else bits c.b.word.toNat (16 * i) 16 * 2 ^ 16
        toFormat t (.stochastic r) (decodeVal c.fmt (lane c.fmt c.a.word i))
      let l := (List.range c.fmt.lanes).map one
      .done { c.result (ofLanes t (l.map (·.1))) (l.any (·.2)) with sat := l.any (·.2) } fun s _ => s
/-- EXP2 (16 R357). -/
def execExp2 (w : PeWord) (s : State) : Out := fireFunction 0x17 w s exp2Lane
/-- LOG2 (16 R357). -/
def execLog2 (w : PeWord) (s : State) : Out := fireFunction 0x18 w s log2Lane
/-- RCP (16 R357). -/
def execRcp (w : PeWord) (s : State) : Out := fireFunction 0x19 w s rcpLane
/-- RSQ (16 R357). -/
def execRsq (w : PeWord) (s : State) : Out := fireFunction 0x1A w s rsqLane

/-! ### Lanes, tags and choices -/

/-- RED: the flag is that lane 0 is zero (17 R407). -/
def execRed (w : PeWord) (s : State) : Out :=
  fire 0x1B w s fun c =>
    let ctl := bits c.b.word.toNat 0 32
    let f := c.fmt
    if 2 < ctl then .pairing
    else
      let g := if ctl = 0 then addLane f c.mode else minMaxLane f (ctl == 2)
      let r := reduceLanes g 4 ((List.range f.lanes).map fun i => lane f c.a.word i)
      c.done (ofLanes f [r]) (laneZero f r)
/-- BCST (15 R335). -/
def execBcst (w : PeWord) (s : State) : Out :=
  fire 0x1C w s fun c => c.done (ofLanes c.fmt ((List.range c.fmt.lanes).map fun _ => lane c.fmt c.a.word 0)) false
/-- SHUF (18 R422). -/
def execShuf (w : PeWord) (s : State) : Out :=
  fire 0x1D w s fun c =>
    c.done (ofLanes c.fmt ((List.range c.fmt.lanes).map fun i => lane c.fmt c.a.word (bits c.b.word.toNat (4 * i) 4 % c.fmt.lanes))) false
/-- TAG: a with the tag that b gives; a poisoned tag, which stands in the low half of b, is consumed (18 R429, 11 R260). -/
def execTag (w : PeWord) (s : State) : Out :=
  fire 0x1E w s fun c =>
    if c.b.psn.getLsbD 0 then .poison
    else .done { c.result c.a.word false with psn := c.a.psn, tag := some (BitVec.ofNat 5 c.b.word.toNat) } fun s _ => s
/-- STEER: O0 when lane 0 of b has a bit set, otherwise O1 (18 R425). -/
def execSteer (w : PeWord) (s : State) : Out :=
  fire 0x1F w s fun c =>
    let first := lane c.fmt c.b.word 0 != 0
    .done { c.result c.a.word first with dst := if first then 8 else 9 } fun s _ => s
/-- MERGE: the smaller of two heads; the queue not chosen keeps its head (17 R382). -/
def execMerge (w : PeWord) (s : State) : Out :=
  fire 0x20 w s fun c =>
    let two := isQueue w.sa && isQueue w.sb && w.sa != w.sb
    let same := isQueue w.sa && w.sa == w.sb
    let useB := !same && cmpLane c.fmt (lane c.fmt c.a.word 0) (lane c.fmt c.b.word 0) == 2
    let x := if useB then c.b else c.a
    .done { c.result x.word useB with tag := some (x.tag.getD 0), keep := if two then [(if useB then w.sa.val else w.sb.val) - 8] else [] }
      fun s _ => s

/-! ### Control nodes -/

/-- Changes the PE that has the move. -/
def State.modPeHere (s : State) (f : Pe → Pe) : State := s.modHere fun t => t.modPe s.cur.pe f

/-- LGEN: the loop generator; a poisoned bound is consumed (05 R125, 16 R375, 11 R260). DESIGN CHOICE (log 90): a bound word of count 0 that is
read while k is not 0, because another slot has discarded the word before it, emits start + k·stride and k with NONE. -/
def execLgen (w : PeWord) (s : State) : Out :=
  fire 0x21 w s fun c =>
    let k := tgetD c.p.lgen c.slot 0
    let l := fun i => lane .i32 c.a.word i
    let none_ := l 1 == 0
    let next := (k + 1) % 2 ^ 32
    let last := !none_ && next == l 1
    let ends := none_ || last
    let flags := flagCode (k == 0 && !none_) + 2 * flagCode last + 4 * flagCode none_
    if c.a.psn != 0 then .poison
    else .done { c.result (ofLanes .i32 [l 0 + k * l 2, k, flags, 0]) ends with keep := if ends then [] else [w.sa.val - 8] } fun s _ =>
      s.modPeHere fun p => { p with lgen := if ends then tdel p.lgen c.slot else tput p.lgen c.slot next }
/-- CNT: a poisoned operand, which stands in its low half, is consumed (05 R126, 15 R345, 11 R260). -/
def execCnt (w : PeWord) (s : State) : Out :=
  fire 0x22 w s fun c =>
    let old := vget c.p.d w.dst.val
    let v := wrapLane .i32 ((lane .i32 old 0 : Int) + lane .i32 c.a.word 0 - lane .i32 c.b.word 0)
    if c.a.psn.getLsbD 0 || c.b.psn.getLsbD 0 then .poison
    else .done { c.result (BitVec.ofNat 128 (setBits old.toNat 0 32 v)) (v == 0) with psn := vget c.p.dPsn w.dst.val } fun s _ => s
/-- RAND: the block of the PE's counter, delivered later; the counter rises (17 R406). -/
def execRand (w : PeWord) (s : State) : Out :=
  fire 0x23 w s fun c => .done { c.result (philox c.p.rand c.a.word) false with delay := some 0 } fun s _ =>
    s.modPeHere fun p => { p with rand := p.rand + 1 }
/-- RAND's seeding form: the counter takes b (17 R406). -/
def execRandSeed (w : PeWord) (s : State) : Out :=
  fire 0x23 w s fun c => .done (c.result 0 false) fun s _ => s.modPeHere fun p => { p with rand := c.b.word }
/-- BARN: emits the released arrival of its slot and clears it (15 R331). -/
def execBarn (w : PeWord) (s : State) : Out :=
  fire 0x29 w s fun c =>
    let phase := tgetD c.p.arrivalPhase c.slot 0
    let data := if w.sa = 0 then 0 else lane .i32 c.a.word 0
    .done (c.result (ofLanes .i32 [lane .i32 c.b.word 0 % 8, phase, data, 0]) true) fun s _ =>
      s.modPeHere fun p =>
        { p with
          arrivals := tdel p.arrivals c.slot
          arrivalPhase := tdel p.arrivalPhase c.slot
          arrivalGroup := tdel p.arrivalGroup c.slot }

/-! ### The end of a kernel -/

/-- The first failed PE of a list of tiles, in the order of R115. -/
def State.configFault (s : State) (d : Nat) (sites : List Nat) : Option Pe :=
  sites.findSome? fun y => ((s.tile d y).pes.find? fun e => e.2.loadCode != 0).map (·.2)
/-- Where a fault of the grid struck, from its EVAL (05 R115, 11 R256). -/
def gridPlace (e : Word) : FaultAt := ⟨0, bits e.toNat 36 4, bits e.toNat 32 4, 0⟩

/-- A spliced successor that is RUNNABLE enters RUNNING: its planes are armed at round to nearest even, or it fails CFGILL (03 R72, 05
R132). -/
def State.startSuccessor (s : State) (d n : Nat) : State :=
  match s.record d n with
  | none => s
  | some r =>
    if r.state != .runnable then s
    else match s.configFault d (r.sites.filter fun y => (s.tile d y).shadow != .notLoaded) with
      | some p => s.failTask d n ⟨if p.loadCode = 0x100 then 0xC else 0xB, p.loadCode % 256, p.loadEval⟩ (gridPlace p.loadEval)
      | none =>
        (s.modRecord d n fun r => { r with state := .running }).over r.sites fun y s =>
          (s.armTile d y 0).modTile d y fun t => { t with bndDone := false }

/-- ENDK: end tokens on every routed output queue; the PE fires nothing more of its plane, and a spliced successor that waits enters
RUNNING (16 R354, 03 R72). -/
def execEndk (w : PeWord) (s : State) : Out :=
  fire 0x2A w s fun c => .done (c.result 0 true) fun s _ =>
    let s := s.modPeHere fun p =>
      let p := (List.range 4).foldl (fun p q => if routeValid (p.plane.route q) then p.enqueue q 0 (some ⟨0, 0, 0, true, false⟩) else p) p
      { p with ended := true }
    let s := s.departPe s.cur.die s.cur.site s.cur.pe
    if c.p.switched then s
    else match c.tile.succ with
      | some n => s.startSuccessor s.cur.die n
      | none => s

/-! ### Memory -/

/-- The scratchpad offset of MLD and MST (17 R383). -/
def gridOffset (w : QWord) : Nat := bits w.toNat 4 17 * 16

/-- MLD: the 16 bytes are read at the firing and delivered later; a poisoned address, which stands in the low half, is consumed (17 R383, 11
R260). -/
def execMld (w : PeWord) (s : State) : Out :=
  fire 0x24 w s fun c =>
    let p := s.view s.cur.die s.cur.site false
    let t := p.1
    let o := gridOffset c.a.word
    let v := BitVec.ofNat 128 (t.spadRead t.part o 16)
    if c.a.psn.getLsbD 0 then .poison
    else .done { c.result v (v == 0) with
      psn := BitVec.ofNat 2 (flagCode (t.spadPoisoned t.part o 8) + 2 * flagCode (t.spadPoisoned t.part (o + 8) 8)), delay := some 0 }
      fun s _ => { s with freeCtr := s.freeCtr + t.races.length }.modHere fun x => { x with races := t.races }.observe (· == Racer.grid) o 16
/-- MST: the 16 bytes of b are written at the firing (17 R383). -/
def execMst (w : PeWord) (s : State) : Out :=
  fire 0x25 w s fun c =>
    let o := gridOffset c.a.word
    let b := toBytes c.b.word.toNat 16
    if c.a.psn.getLsbD 0 then .poison
    else .done { c.result 0 true with psn := 0 } fun s _ => (s.modHere fun t =>
      (t.raceWrite .grid s.coin t.part o (b.take 8) (c.b.psn.getLsbD 0)).raceWrite .grid s.coin t.part (o + 8) (b.drop 8)
        (c.b.psn.getLsbD 1)).coined

/-- Puts a window operation of a delayed result in flight (17 R379). -/
def State.gridWindow (s : State) (c : Ctx) (id va bytes : Nat) (o : AtomicOp) (data : Word) (psn : Bool) : State :=
  let a : Access :=
    { id := s.nextId, agent := .pe s.cur.die s.cur.site s.cur.pe id, kind := .window (opAtomic o), phase := .window, va := va, bytes := bytes,
      part := c.tile.part, gkey := c.tile.gkey, gen := c.tile.gen, data := data, data2 := if psn then 1 else 0, dst := 0, dst2 := 0,
      signed := false, ord := .rlx, scp := .dev, slot := 0, pa := 0, kidx := 0, cacheable := false, sent := false, mark := 0, plain := false,
      noAcq := false, txn := 0, ringTxn := 0, port := 0 }
  ({ s with nextId := s.nextId + 1 }.addAccess a).push a

/-- The status that MAMO and MTAS judge before their pipeline step (17 R378, R379, log 100). -/
def State.windowStatus (s : State) (part : BitVec 4) (va n : Nat) (malformed : Bool) : Nat :=
  let off := va - windowBase
  if malformed then 4
  else if !inWindow va then 3
  else if s.windowSize ≤ off then 2
  else if tget s.windowOwner (off / 0x200000) != some part then 3
  else if va % n ≠ 0 then 1
  else 0

/-- MAMO or MTAS: a status other than 0 is the result; otherwise the memory tile performs the operation (17 R378, R379). A poisoned address
is consumed; a poisoned control word is an operand whose poison the result and what is written carry (11 R260). -/
def fireAtomic (op : Nat) (w : PeWord) (s : State) (bytes : QWord → Nat) (malformed : QWord → Bool) (o : QWord → AtomicOp) (data : Ctx → Word)
    (kind : Nat) (failFlag : Bool) : Out :=
  fire op w s fun c =>
    let a := c.a.word
    let va := bits a.toNat 0 64
    let st := s.windowStatus c.tile.part va (bytes a) (malformed a)
    let ctl := c.a.psn.getLsbD 1
    if c.a.psn.getLsbD 0 then .poison
    else if st ≠ 0 then .done { c.result (BitVec.ofNat 128 (st * 2 ^ 64)) failFlag with psn := bothHalves ctl, delay := some 0 } fun s _ => s
    else .done { c.result 0 false with psn := bothHalves ctl, delay := some kind } fun s id =>
      s.gridWindow c id va (bytes a) (o a) (data c) (c.b.psn.getLsbD 0 || ctl)

/-- MAMO (17 R379). -/
def execMamo (w : PeWord) (s : State) : Out :=
  fireAtomic 0x26 w s (fun a => if flagOf a.toNat 67 then 8 else 4) (fun a => bits a.toNat 68 60 != 0 || bits a.toNat 64 3 == 7)
    (fun a => (AtomicOp.ofCode (bits a.toNat 64 3)).getD .add) (fun c => BitVec.ofNat 64 c.b.word.toNat) 3 true
/-- MTAS (17 R379). -/
def execMtas (w : PeWord) (s : State) : Out :=
  fireAtomic 0x27 w s (fun _ => 8) (fun a => bits a.toNat 70 58 != 0) (fun _ => .or)
    (fun c => BitVec.ofNat 64 (2 ^ bits c.a.word.toNat 64 6)) 4 false

/-- XLTN: a translation whose word is delivered later; a poisoned address, which stands in the low half, is consumed (18 R442, 11 R260). -/
def execXltn (w : PeWord) (s : State) : Out :=
  fire 0x28 w s fun c =>
    if c.a.psn.getLsbD 0 then .poison
    else .done { c.result 0 false with delay := some 5 } fun s id =>
      let a : Access :=
        { id := s.nextId, agent := .pe s.cur.die s.cur.site s.cur.pe id, kind := .xlt, phase := .translate, va := bits c.a.word.toNat 0 64,
          bytes := 1, part := c.tile.part, gkey := c.tile.gkey, gen := c.tile.gen, data := 0, data2 := 4, dst := 0, dst2 := 0,
          signed := false, ord := .rlx, scp := .tile, slot := 0, pa := 0, kidx := 0, cacheable := false, sent := false, mark := 0,
          plain := true, noAcq := false, txn := 0, ringTxn := 0, port := 0 }
      ({ s with nextId := s.nextId + 1 }.addAccess a).startXlt a

end Sys2Proof.Machine
end

