-- ==== Sys2Proof/Machine/GridCommands.lean ====
section
/-! DEFINITION. The grid commands of a strand, and the end of a configuration load (05 R128 to R132, 16 R360 to R367). -/
namespace Sys2Proof.Machine

/-! ### Shared operations -/

/-- The size of a configuration image (05 R128). -/
def imageBytes : Nat := 53248

/-- A word that the spec leaves open (log 2). -/
def State.freeWord (s : State) : Word × State := (BitVec.ofNat 64 (Config.choice s.freeCtr), { s with freeCtr := s.freeCtr + 1 })

/-- Whether the splice entry of the tile's task has been sent (03 R70). -/
def State.splicePending (s : State) : Bool :=
  match s.here.task with
  | some n => match s.record s.cur.die n with
    | some r => r.splSent
    | none => false
  | none => false

/-- Runs a command on the tiles that a selector names; a bad selector is ILL (14 R296). -/
def State.onTiles (s : State) (i : Instr) (sel : TileSel) (go : List Nat → State) : State :=
  match s.here.select (selAll sel) (s.me.selValue sel) with
  | some l => go l
  | none => s.illOperand i

/-- Whether a tile of a list loads a shadow or is in a boundary (05 R132, 16 R360, R364). -/
def State.gridBusy (s : State) (d : Nat) (sites : List Nat) : Bool :=
  sites.any fun y => (s.tile d y).shadow == .loading || (s.tile d y).splicing

/-- The tiles of a selector, none for a bad one. -/
def State.selected (s : State) (sel : TileSel) : List Nat := (s.here.select (selAll sel) (s.me.selValue sel)).getD []

/-- GLOAD or GSPLICE: the image is read as an engine reads, into the shadows of the selected tiles (16 R364, 09 R230). The trap after a splice entry has been sent goes
before any wait (03 R70, 05 R132). -/
def loadImages (s : State) (i : Instr) (a : Reg) (sel : TileSel) (o : Order) (kind : Nat) : Out :=
  if !s.splicePending && s.gridBusy s.cur.die (s.selected sel) then .next s
  else issueMem s (a :: selRegs sel) o fun s =>
    let v := s.me.rd a
    let (w, s') := s.freeWord
    if s.splicePending then s'.trapMe 6 0x12 w
    else if 0x200000 < v.toNat + imageBytes then s.illOperand i
    else if v.toNat % 64 ≠ 0 then s.trapMe 4 6 v
    else s.onTiles i sel fun sites =>
      let (src, s) := s.view s.cur.die s.cur.site true
      let read := fun (off n : Nat) => src.spadRead src.part (v.toNat + off) n
      let bad := fun (off n : Nat) => src.spadPoisoned src.part (v.toNat + off) n
      let s := (s.modMe fun t => (t.raise o.set.val).next).over sites fun y s => s.modTile s.cur.die y fun t => t.loadImage y read bad
      s.modHere fun t => { t with gridCmds := t.gridCmds ++ [⟨kind, s.cur.strand, o.set.val, sites⟩] }

/-- The task of a tile fails CFGUE; the fault struck in the tile of the PE that EVAL locates (11 R256, R263). -/
def State.failGrid (s : State) (d y : Nat) (eval : Word) : State :=
  match (s.tile d y).task with
  | some n => s.failTask d n ⟨0xC, 0, eval⟩ (gridPlace eval)
  | none => s
/-- Ends a GLOAD or GSPLICE whose tiles have all reported: CFGUE fails the task, CFGILL traps a GSPLICE, otherwise its tiles are armed
(05 R129, 16 R365). -/
def State.endLoad (s : State) (d y : Nat) (c : GridCmd) : State :=
  let s := s.lowerSlot d y c.strand c.slot
  let bad := c.sites.flatMap fun z => (((s.tile d z).pes.filter fun e => e.2.loadCode != 0).map (·.2))
  match bad.find? fun p => p.loadCode == 0x100 with
  | some p => s.failGrid d y p.loadEval
  | none =>
    if c.kind = 0 then s
    else match bad with
      | p :: _ => s.report d y c.strand ⟨0xB, p.loadCode, p.loadEval⟩
      | [] => s.over c.sites fun z s => s.armTile d z (s.tile d z).rnd

/-- CONFIG_LOAD_COMPLETE: every PE of a tile that loads has reported; the commands that waited for it end (05 R129). -/
def execConfigLoadComplete (die site : Nat) (s : State) : Out :=
  let t := s.tile die site
  if t.shadow != .loading then .next s
  else
    let s := s.modTile die site fun t => { t with shadow := if t.pes.any fun e => e.2.loadCode != 0 then .failed else .loaded }
    .next (s.over t.sites fun y s =>
      let due := (s.tile die y).gridCmds.filter fun c => decide (c.kind ≤ 1) && c.sites.all fun z => (s.tile die z).shadow != .loading
      (s.modTile die y fun t => { t with gridCmds := t.gridCmds.filter fun c => !due.contains c }).over due fun c s => s.endLoad die y c)

/-! ### Commit -/

/-- A route record of the planes that a commit would leave in force: where it stands and the queue it ends at; `fresh` that its plane is
being committed. -/
structure RouteEnd where
  tx : Nat
  ty : Nat
  pe : Nat
  q : Nat
  toSite : Nat
  toPe : Nat
  toQueue : Nat
  fresh : Bool
  deriving DecidableEq, Repr

/-- Whether a tile's shadow is being committed: it has been loaded since the last commit (05 R130). -/
def Tile.commits (t : Tile) : Bool := t.shadow == .loaded || t.shadow == .failed

/-- The input-queue routes of a tile under the plane that a commit would leave in force, in the order of R115. -/
def Tile.routeEnds (t : Tile) (site : Nat) : List RouteEnd :=
  t.pes.flatMap fun e => (List.range 4).filterMap fun q =>
    let r := (if t.commits then e.2.shadow else e.2.plane).route q
    let to_ := if routeKind r = 0 then site else t.siteAt (routeTile r).1 (routeTile r).2
    if routeValid r && decide (routeKind r ≤ 1) then some ⟨t.relX site, t.relY site, e.1, q, to_, routePe r, routeQueue r, t.commits⟩
    else none

/-- Whether two records end at one queue. -/
def RouteEnd.meets (a b : RouteEnd) : Bool := a.toSite == b.toSite && a.toPe == b.toPe && a.toQueue == b.toQueue

/-- Whether the inbound path of a command port, or the island's D port, ends at an input queue (16 R366, 17 R389). -/
def Tile.otherEnd (t : Tile) (pe q : Nat) : Bool :=
  let c := t.island.config.toNat
  (q == 3 && pe % 16 == 0 && pe / 16 % 2 == 1)
    || (t.island.configured && flagOf c 9 && pe == peNumber (bits c 10 4) (bits c 14 3) && q == bits c 17 2)

/-- Check 0x0E across the region: the record of a plane being committed that it names, if it fails: the later of two such records that
end at one queue, or the one that meets a route of a plane that stays or an inbound path (05 R114, R115). -/
def State.routeClash (s : State) (d : Nat) (sites : List Nat) : Option RouteEnd :=
  let all := sites.flatMap fun y => (s.tile d y).routeEnds y
  let fresh := all.filter RouteEnd.fresh
  ((List.range fresh.length).filterMap fun i => (lget fresh i).map fun r => (i, r)).findSome? fun x =>
    let before := ((fresh.take x.1).filter x.2.meets).length
    let total := (fresh.filter x.2.meets).length
    let other := decide ((fresh.filter x.2.meets).length < (all.filter x.2.meets).length) || (s.tile d x.2.toSite).otherEnd x.2.toPe x.2.toQueue
    if before = 1 ∨ (total = 1 ∧ other) then some x.2 else none

/-- The rank of a location in the order in which failures are reported: TY, TX, ROW, COL, AREA, SLOT (05 R115). -/
def gridRank (e : Word) : Nat :=
  let n := e.toNat
  ((((bits n 32 4 * 16 + bits n 36 4) * 8 + bits n 25 3) * 16 + bits n 28 4) * 4 + bits n 18 2) * 32 + bits n 20 5

/-- Removes the end tokens of a PE's queues and returns their credits (16 R354). -/
def State.stripEndTokens (s : State) (d y pe : Nat) : State :=
  let p := (s.tile d y).pe pe
  let gone := ((List.range 4).flatMap fun k => (vget p.inq k).filter fun w => w.word.ended).map (·.src)
  let keepIn := fun (l : List Queued) => l.filter fun w => !w.word.ended
  let keepOut := fun (l : List OutPlace) => l.filter fun o => match o.word with
    | some w => !w.ended
    | none => true
  (s.modTile d y fun t => t.modPe pe fun p => { p with inq := p.inq.map keepIn, outq := p.outq.map keepOut }).over gone fun x s =>
    s.returnCredit d y x

/-- Swaps the planes of a loaded tile at a commit (05 R130). -/
def State.swapTile (s : State) (d y : Nat) : State :=
  (s.over (List.range 128) fun pe s => s.stripEndTokens d y pe).modTile d y fun t =>
    { t with pes := t.pes.map fun e => (e.1, e.2.turn), actB := !t.actB, planeOn := true, shadow := .notLoaded, rndAct := t.rnd }

/-- The shadow of a record that fails check 0x0E has failed: until it is loaded again every commit finds the failure (05 R130). -/
def State.markClash (s : State) (d : Nat) (sites : List Nat) : State :=
  match s.routeClash d sites with
  | some r =>
    match sites.find? fun y => (s.tile d y).relX y == r.tx && (s.tile d y).relY y == r.ty with
    | some y => s.modTile d y fun t =>
        { t.modPe r.pe fun p => if p.loadCode = 0 then { p with loadCode := 0xE, loadEval := gridEval r.tx r.ty r.pe r.q 3 0xE } else p with
          shadow := .failed }
    | none => s
  | none => s
/-- What the check phase of a commit finds once check 0x0E is made: the failed shadow that comes first in the order of R115 (05 R130). -/
def State.commitFault (s : State) (d : Nat) (sites : List Nat) : Option (Nat × Word) :=
  let bad := sites.flatMap fun y => if (s.tile d y).shadow = .failed then ((s.tile d y).pes.filter fun e => e.2.loadCode != 0).map (·.2) else []
  (bad.foldl (fun (b : Option Pe) p => match b with
    | some q => some (if gridRank p.loadEval < gridRank q.loadEval then p else q)
    | none => some p) none).map fun p => (p.loadCode, p.loadEval)

/-- The two phases of a commit. A shadow that an uncorrectable error struck fails the task CFGUE, and nothing swaps (05 R130, 11 R263, 16
R360). DESIGN CHOICE (log 65): R130 lets the tiles swap in different a-cycles; the model swaps them in one step. -/
def State.commit (s : State) : State :=
  let d := s.cur.die
  let sites := s.here.sites
  let due := sites.filter fun y => (s.tile d y).commits
  if due.isEmpty then s
  else match due.findSome? fun y => ((s.tile d y).pes.find? fun e => e.2.loadCode == 0x100).map (·.2) with
    | some p => s.failGrid d s.cur.site p.loadEval
    | none =>
      let s := s.markClash d sites
      match s.commitFault d sites with
      | some (code, eval) => s.report d s.cur.site s.cur.strand ⟨0xB, code, eval⟩
      | none => s.over due fun y s => s.swapTile d y

/-! ### Meanings -/

/-- GLOAD (16 R364). -/
def execGload (a : Reg) (t : TileSel) (o : Order) (s : State) : Out := loadImages s (.gload a t o) a t o 0
/-- GSPLICE (16 R364, R365). -/
def execGsplice (a : Reg) (t : TileSel) (o : Order) (s : State) : Out := loadImages s (.gsplice a t o) a t o 1
/-- GCOMMIT: PERM after a splice entry has been sent; not ready while a load or a boundary of the region is in progress (05 R132, 16
R360). -/
def execGcommit (o : Order) (s : State) : Out :=
  if !s.splicePending && s.gridBusy s.cur.die s.here.sites then .next s
  else issue s [] o fun s =>
    let (w, s') := s.freeWord
    if s.splicePending then s'.trapMe 6 0x12 w else (s.modMe Strand.next).commit
/-- GRUN (16 R362). -/
def execGrun (t : TileSel) (o : Order) (s : State) : Out :=
  issue s (selRegs t) o fun s => s.onTiles (.grun t o) t fun sites =>
    (s.modMe Strand.next).over sites fun y s => s.modTile s.cur.die y fun t => { t with firing := true, heldPf := false }

/-- GFRZ or GDRAIN: the tiles are HELD; the command ends when they are quiet (16 R362). -/
def freezeGrid (s : State) (i : Instr) (sel : TileSel) (o : Order) (kind : Nat) : Out :=
  issue s (selRegs sel) o fun s => s.onTiles i sel fun sites =>
    let s := (s.modMe fun t => (t.raise o.set.val).next).over sites fun y s => s.modTile s.cur.die y fun t => { t with firing := false }
    (s.modHere fun t => { t with gridCmds := t.gridCmds ++ [⟨kind, s.cur.strand, o.set.val, sites⟩] }).settleGrid s.cur.die s.cur.site
/-- GFRZ (16 R362). -/
def execGfrz (t : TileSel) (o : Order) (s : State) : Out := freezeGrid s (.gfrz t o) t o 4
/-- GDRAIN (16 R362). -/
def execGdrain (t : TileSel) (o : Order) (s : State) : Out := freezeGrid s (.gdrain t o) t o 2

/-- The PE of a command port's inbound path (16 R366). -/
def portPe (n : Nat) : Nat := peNumber 0 (2 * n + 1)
/-- GSEND: not ready while the queue is full (16 R366). -/
def execGsend (a b : Reg) (n : Fin 4) (o : Order) (s : State) : Out :=
  if 4 ≤ (vget (s.here.pe (portPe n.val)).inq 3).length then .next s
  else issueMem s [a, b] o fun s =>
    let w : GWord := ⟨BitVec.ofNat 128 ((s.me.rd a).toNat + (s.me.rd b).toNat * 2 ^ 64), 31, 0, false, false⟩
    (s.modMe Strand.next).modHere fun t => t.modPe (portPe n.val) fun p => p.put 3 ⟨w, .none⟩
/-- GRECV: not ready while the buffer is empty; a poisoned half is reported and not written (16 R366, 11 R260). -/
def execGrecv (d : Reg) (h : Bool) (n : Fin 4) (o : Order) (s : State) : Out :=
  match s.here.port n.val with
  | [] => .next s
  | w :: rest => issueMem s [d] o fun s =>
    let psn := w.word.psn.getLsbD (if h then 1 else 0)
    let v := BitVec.ofNat 64 (bits w.word.bits.toNat (if h then 64 else 0) 64)
    let s := s.modMe fun t => (if psn then t else t.wr d v).next
    let s := s.modHere fun t => t.settleRaces .grid
    let s := if psn then s.report s.cur.die s.cur.site s.cur.strand ⟨8, 1, BitVec.ofNat 64 n.val⟩ else s
    if h then (s.modHere fun t => t.setPort n.val rest).returnCredit s.cur.die s.cur.site w.src else s
/-- GCONST: a constant register of the selected PEs takes 16 bytes of the scratchpad, read as an engine reads (16 R361, 09 R230). -/
def execGconst (a b : Reg) (o : Order) (s : State) : Out :=
  issueMem s [a, b] o fun s =>
    let v := (s.me.rd a).toNat
    let x := (s.me.rd b).toNat
    let all := flagOf x 18
    if 0x1FFFF1 ≤ v ∨ bits x 19 45 ≠ 0 ∨ (all ∧ bits x 0 8 ≠ 0) ∨ (!all ∧ !s.here.inRegion (bits x 0 4) (bits x 4 4)) then
      s.illOperand (.gconst a b o)
    else if v % 16 ≠ 0 then s.trapMe 4 4 (s.me.rd a)
    else
      let (t, s) := s.view s.cur.die s.cur.site true
      let w := BitVec.ofNat 128 (t.spadRead t.part v 16)
      let psn := BitVec.ofNat 8 (flagCode (t.spadPoisoned t.part v 8) + 2 * flagCode (t.spadPoisoned t.part (v + 8) 8))
      let k := bits x 15 2
      let put := fun (y : Plane) =>
        { y with consts := vset y.consts k w, constPsn := (y.constPsn &&& ~~~(3#8 <<< (2 * k))) ||| (psn <<< (2 * k)) }
      let sites := if all then t.sites else [t.siteAt (bits x 0 4) (bits x 4 4)]
      (s.modMe Strand.next).over sites fun y s => s.modTile s.cur.die y fun t => t.modPe (peNumber (bits x 8 4) (bits x 12 3)) fun p =>
        if flagOf x 17 then p.setShadow (put p.shadow) else p.setPlane (put p.plane)

/-- Whether a PE's shadow suffered CFGUE, at its load or after it (05 R129, 11 R263). -/
def Tile.shadowLost (t : Tile) : Bool := t.pes.any fun e => e.2.loadCode == 0x100

/-- SLS: the shadow's load state (16 R367). -/
def Tile.shadowCode (t : Tile) : Nat :=
  match t.shadow with
  | .notLoaded => 0 | .loading => 0 | .loaded => 1 | .armed => 1
  | .failed => if t.shadowLost then 3 else 2
/-- The grid status word (16 R367). -/
def Tile.gridStatus (t : Tile) : Word :=
  let swn := if t.splicing then (t.pes.filter fun e => e.2.switched).length else 0
  BitVec.ofNat 64 (swn * 2 ^ 8 + flagCode t.heldPf * 128 + flagCode t.splicing * 64 + t.shadowCode * 16 + flagCode t.planeOn * 8
    + flagCode t.actB * 4 + flagCode t.firing)
/-- GSTAT (16 R367). DESIGN CHOICE (log 101): the snapshot is the one at its issue (01 R20). -/
def execGstat (d b : Reg) (o : Order) (s : State) : Out :=
  issue s [d, b] o fun s =>
    match s.here.select false (s.me.rd b) with
    | some (y :: _) => s.modMe fun t => (t.wr d (s.tile s.cur.die y).gridStatus).next
    | _ => s.illOperand (.gstat d b o)

end Sys2Proof.Machine
end

