-- ==== Sys2Proof/Machine/Island.lean ====
section
/-! DEFINITION. The matrix island: its commands, the fill of the latches, beats, rows, checks and D words (05 R134 to R141, 07 R183 to
R185, 17 R387 to R396). -/
namespace Sys2Proof.Machine

/-! ### Configuration -/

/-- FMT of a configuration word (17 R388). -/
def mxFmt (c : Word) : Nat := bits c.toNat 0 4
/-- BS of a configuration word. -/
def mxScaled (c : Word) : Bool := flagOf c.toNat 4
/-- ASRC and ASE of a configuration word. -/
def mxSource (c : Word) : Nat := bits c.toNat 5 4
/-- DEN of a configuration word. -/
def mxRouted (c : Word) : Bool := flagOf c.toNat 9
/-- DSLOTS of a configuration word. -/
def mxSlots (c : Word) : Nat := bits c.toNat 24 4
/-- The PE that the D port is routed to. -/
def mxPe (c : Word) : Nat := peNumber (bits c.toNat 10 4) (bits c.toNat 14 3)
/-- The input queue that the D port is routed to. -/
def mxQueue (c : Word) : Nat := bits c.toNat 17 2
/-- The format of A and B (17 R388). -/
def mxFormat (c : Word) : Format :=
  match mxFmt c with
  | 0 => .e4m3 | 1 => .e5m2 | 2 => .e2m1 | 3 => .i8 | 4 => .bf16 | _ => .f16
/-- Whether a row takes two beats (05 R135). -/
def mxWide (c : Word) : Bool := 4 ≤ mxFmt c

/-- Whether a configuration word must trap ILL; `taken` says that the queue it names is the far end of a route (17 R388, R389). -/
def mxConfigBad (taken : Bool) (c : Word) : Bool :=
  bits c.toNat 28 36 != 0 || decide (5 < mxFmt c) || (mxScaled c && mxFmt c == 3) || (!flagOf c.toNat 5 && bits c.toNat 6 3 != 0)
    || (if mxRouted c then mxSlots c == 0 || decide (4 < mxSlots c) || taken else bits c.toNat 10 18 != 0)

/-- The configuration that checks at issue are judged by: that of the latest MXCFG that has issued (17 R387). -/
def Island.judged (x : Island) : Option Word :=
  match (x.cmds.filter fun c => c.kind == 0).getLast? with
  | some c => some c.arg
  | none => if x.configured then some x.config else none

/-- Bytes of a row of B (17 R391). -/
def mxRowBytes (c : Word) : Nat := 16 * (mxFormat c).width
/-- The extent that MXLDB reads (17 R391). -/
def mxExtent (c : Word) : Nat := 128 * mxRowBytes c + (if mxScaled c then 512 else 0)

/-- The fields of a row-range word: FIRST, COUNT, OFMT (17 R392). -/
def rowRange (w : Word) : Nat × Nat × Nat := (bits w.toNat 0 9, bits w.toNat 16 10, bits w.toNat 28 4)
/-- Whether a row-range word must trap ILL (17 R392). -/
def rowRangeBad (zero : Bool) (w : Word) : Bool :=
  let (first, count, ofmt) := rowRange w
  bits w.toNat 32 32 != 0 || bits w.toNat 26 2 != 0 || bits w.toNat 9 7 != 0 || decide (6 < ofmt) || count == 0
    || decide (512 < first + count) || (zero && ofmt != 0)

/-- The output format of MXRD, none for RAW (17 R392). -/
def outFormat : Nat → Option Format
  | 0 => some .f32 | 1 => some .bf16 | 2 => some .f16 | 3 => some .e4m3 | 4 => some .e5m2 | 5 => some .i32 | _ => none
/-- The bytes of an output element (17 R393). -/
def outBytes (ofmt : Nat) : Nat :=
  match outFormat ofmt with
  | some f => f.width / 8
  | none => 8

/-- Whether MXRD must trap ILL under a configuration (17 R392, R393). -/
def mxReadBad (c : Word) (a b : Word) (stoch : Bool) : Bool :=
  let (_, count, ofmt) := rowRange b
  rowRangeBad false b || (if mxFmt c = 3 then decide (ofmt < 5) else ofmt == 5) || (stoch && decide (5 ≤ ofmt))
    || decide (0x200000 < a.toNat + count * 128 * (outBytes ofmt + if stoch then 4 else 0))

/-! ### Issue -/

/-- Sends an island command to the island (17 R387). -/
def State.putIsland (s : State) (c : IslandCmd) : State :=
  (s.modMe fun t => ((t.raise c.slot).mark c.dst).next).modHere fun t =>
    { t with island := { t.island with cmds := t.island.cmds ++ [c] } }

/-- A command of the strand that has the move. -/
def State.islandCmd (s : State) (kind : Nat) (o : Order) (a b : Word) : IslandCmd :=
  ⟨kind, s.cur.strand, o.set.val, a, b, 0, s.here.rnd, false, false⟩

/-- Whether an input queue of the tile's PEs is the far end of a route of the tile's active plane or of a command port (17 R389). -/
def State.queueTaken (s : State) (pe q : Nat) : Bool :=
  (s.here.pes.any fun e => (List.range 4).any fun k =>
    let r := e.2.plane.route k
    routeValid r && routeKind r == 0 && routePe r == pe && routeQueue r == q) || (q == 3 && pe % 16 == 0 && pe / 16 % 2 == 1)

/-- MXCFG (17 R388, R389). -/
def execMxcfg (a : Reg) (o : Order) (s : State) : Out :=
  issue s [a] o fun s =>
    let v := s.me.rd a
    if mxConfigBad (s.queueTaken (mxPe v) (mxQueue v)) v then s.illOperand (.mxcfg a o) else s.putIsland (s.islandCmd 0 o v 0)

/-- MXLDB (17 R391). -/
def execMxldb (a : Reg) (o : Order) (s : State) : Out :=
  issueMem s [a] o fun s =>
    let v := s.me.rd a
    match s.here.island.judged with
    | none => s.illOperand (.mxldb a o)
    | some c =>
      if v.toNat % 64 ≠ 0 then s.trapMe 4 6 v
      else if 0x200000 < v.toNat + mxExtent c then s.illOperand (.mxldb a o)
      else s.putIsland (s.islandCmd 1 o v 0)

/-- MXROT (17 R394). -/
def execMxrot (o : Order) (s : State) : Out :=
  issueMem s [] o fun s =>
    match s.here.island.judged with
    | none => s.illOperand (.mxrot o)
    | some _ => s.putIsland (s.islandCmd 2 o (BitVec.ofNat 64 (encode (.mxrot o))) 0)

/-- MXZERO (17 R396). -/
def execMxzero (a : Reg) (o : Order) (s : State) : Out :=
  issue s [a] o fun s =>
    if rowRangeBad true (s.me.rd a) then s.illOperand (.mxzero a o) else s.putIsland (s.islandCmd 3 o (s.me.rd a) 0)

/-- MXRD (17 R393). -/
def execMxrd (a b : Reg) (st : Bool) (o : Order) (s : State) : Out :=
  issueCommand s [a, b] o fun s =>
    let v := s.me.rd a
    match s.here.island.judged with
    | none => s.illOperand (.mxrd a b st o)
    | some c =>
      if v.toNat % 64 ≠ 0 then s.trapMe 4 6 v
      else if mxReadBad c v (s.me.rd b) st then s.illOperand (.mxrd a b st o)
      else s.putIsland { s.islandCmd 4 o v (s.me.rd b) with stoch := st }

/-- MXCHK (17 R390). -/
def execMxchk (d : Reg) (o : Order) (s : State) : Out :=
  issue s [d] o fun s => s.putIsland { s.islandCmd 5 o 0 0 with dst := d }

/-! ### The latches -/

/-- The ring index of a tile of a region `w` wide (02 R40). -/
def ringIndex (w x y : Nat) : Nat := y * w + if y % 2 = 0 then x else w - 1 - x
/-- The tile at a ring index. -/
def ringTile (w n : Nat) : Nat × Nat := (if n / w % 2 = 0 then n % w else w - 1 - n % w, n / w)
/-- The site of the next tile on the ring (02 R40). -/
def Tile.ringNext (t : Tile) (site : Nat) : Nat :=
  let n := (ringIndex t.regionW (t.relX site) (t.relY site) + 1) % (t.regionW * t.regionH)
  let (x, y) := ringTile t.regionW n
  t.siteAt x y

/-- Whether a value is an infinity of a sign. -/
def Val.isInf (neg : Bool) : Val → Bool
  | .inf s => s == neg
  | .fin _ _ _ => false
  | .nan _ _ _ => false
/-- An exact sum with the island's special cases: a NaN term, or infinities of both signs, give the default NaN (07 R183). DESIGN CHOICE
(log 66): the sum starts from +0, so a sum whose terms are all −0 is +0; R183 gives that zero no sign. -/
def islandSum (l : List Val) : Val :=
  if l.any Val.isNan || (l.any (Val.isInf false) && l.any (Val.isInf true)) then Val.default
  else l.foldl (addVal .nearest) (.fin false 0 0)
/-- round_acc48 (07 R183). -/
def roundAcc (v : Val) : BitVec 48 := BitVec.ofNat 48 (toFormat .acc48 .nearest v).1

/-- Element B[i][j] of a latch (17 R391, 07 R166). -/
def Latch.elem (l : Latch) (c : Word) (i j : Nat) : Val :=
  let f := mxFormat c
  let o := i * mxRowBytes c * 8 + j * f.width
  decodeVal f (bits (mread l.b (o / 8) (max 1 (f.width / 8))) (o % 8) f.width)
/-- Scale sb[g][j] of a latch as a value, 2^(sb − 127); 1 without scaling (05 R139). -/
def Latch.scale (l : Latch) (c : Word) (g j : Nat) : Val :=
  if mxScaled c then decodeVal .e8m0 (mget l.scales (128 * g + j)).toNat else .fin false 1 0

/-- An accumulator code as a value: an integer in an INT8 island (07 R183, R184). -/
def accVal (int : Bool) (b : BitVec 48) : Val := if int then Val.ofInt b.toInt 0 else decodeVal .acc48 b.toNat
/-- A sum as an accumulator code: exact in an INT8 island (05 R138, R139). -/
def accCode (int : Bool) (v : Val) : BitVec 48 :=
  if int then (match v with
    | .fin s m e => BitVec.ofInt 48 (signed s m * 2 ^ e.toNat)
    | .inf _ => 0
    | .nan _ _ _ => 0)
  else roundAcc v

/-- The checksum column (05 R139). -/
def Latch.checksums (l : Latch) (c : Word) : List (BitVec 48) :=
  (List.range 128).map fun i =>
    accCode (mxFmt c == 3) (islandSum ((List.range 128).map fun j => mulVal (l.elem c i j) (l.scale c (i / 32) j)))

/-- A latch that reads B and its scales from the scratchpad (17 R391). -/
def Tile.readLatch (t : Tile) (c : Word) (a : Nat) : Latch :=
  let n := 128 * mxRowBytes c
  let l : Latch :=
    { state := 1, b := mputs [] 0 (t.spadBytes t.part a n), scales := if mxScaled c then mputs [] 0 (t.spadBytes t.part (a + n) 512) else [],
      checks := [], psn := t.spadPoisoned t.part a (mxExtent c) }
  { l with checks := l.checksums c }

/-- Changes the island of a tile. -/
def State.modIsland (s : State) (d y : Nat) (f : Island → Island) : State := s.modTile d y fun t => { t with island := f t.island }
/-- Removes a command from a tile's island and releases its slot (04 R93). -/
def State.endIsland (s : State) (d y : Nat) (c : IslandCmd) : State :=
  (s.modIsland d y fun x => { x with cmds := x.cmds.erase c }).lowerSlot d y c.strand c.slot

/-- The latch commands that have reached the island: those ahead of any MXCFG (17 R387). -/
def Island.latchCmds (x : Island) : List IslandCmd := (x.cmds.takeWhile fun c => c.kind != 0).filter fun c => c.kind == 1 || c.kind == 2
/-- The oldest waiting MXLDB, if it may start (17 R391). -/
def Island.loadReady (x : Island) : Option IslandCmd :=
  if x.back.state = 0 then x.latchCmds.find? fun c => c.kind == 1 && !c.fill else none
/-- The oldest waiting MXROT, if it may start: no other runs, the own front is VALID, the next back latch EMPTY (17 R394). -/
def Island.rotReady (x far : Island) : Option IslandCmd :=
  if x.front.state = 0 ∨ far.back.state ≠ 0 ∨ x.cmds.any (fun c => c.kind == 2 && c.fill) then none
  else x.latchCmds.find? fun c => c.kind == 2

/-- Marks the oldest command of a list that equals `c` as filling. -/
def markFilling (c : IslandCmd) : List IslandCmd → List IslandCmd
  | [] => []
  | e :: t => if e = c then { e with fill := true } :: t else e :: markFilling c t
/-- Marks a command as filling: of two equal ones, the older (05 R137, 17 R391). -/
def Island.filling (x : Island) (c : IslandCmd) : Island := { x with cmds := markFilling c x.cmds }

/-- LATCH_FILL_START: an MXLDB or an MXROT of the tile finds its latch EMPTY; where both may start, either does (05 R137, 17 R391,
R394, R395). The island of an armature site is held idle (01 R14). -/
def execLatchFillStart (die site : Nat) (s : State) : Out :=
  let t := s.tile die site
  let x := t.island
  let next := t.ringNext site
  let far := (s.tile die next).island
  let (pick, s1) := s.pick 2
  let load := x.loadReady
  let rot := x.rotReady far
  if t.firmware.isSome then .next s
  else match load, rot, pick with
  | some c, none, _ | some c, some _, 0 =>
    let s := if rot.isSome then s1 else s
    let (v, s) := s.view die site true
    .next (s.modIsland die site fun x => { x.filling c with back := v.readLatch x.config c.arg.toNat })
  | load, some c, _ =>
    let s := if load.isSome then s1 else s
    if !far.configured || mxFmt far.config != mxFmt x.config || mxScaled far.config != mxScaled x.config then
      .next ((s.endIsland die site c).report die site c.strand ⟨1, 5, c.arg⟩)
    else
      .next ((s.modIsland die site fun x => x.filling c).modIsland die next fun y => { y with back := { x.front with state := 1 } })
  | none, none, _ => .next s

/-- Whether the predecessor's MXROT fills the back latch of `site`. -/
def State.rotInto (s : State) (d site : Nat) : Option (Nat × IslandCmd) :=
  (s.tile d site).sites.findSome? fun y =>
    if (s.tile d y).ringNext y = site then ((s.tile d y).island.cmds.find? fun c => c.kind == 2 && c.fill).map fun c => (y, c) else none

/-- LATCH_FILL_COMPLETE: the back latch of the tile becomes FULL and the command that filled it ends (05 R137, 17 R391, R394). -/
def execLatchFillComplete (die site : Nat) (s : State) : Out :=
  let x := (s.tile die site).island
  if x.back.state ≠ 1 ∨ (s.tile die site).firmware.isSome then .next s
  else
    let s := s.modIsland die site fun x => { x with back := { x.back with state := 2 } }
    match x.cmds.find? fun c => c.kind == 1 && c.fill with
    | some c => .next (s.endIsland die site c)
    | none => match s.rotInto die site with
      | some (y, c) => .next (s.endIsland die y c)
      | none => .next s

/-! ### Commands at a row boundary -/

/-- Whether the first beat of a row has been taken from the grid lanes. -/
def Island.laneHalf (x : Island) : Bool := x.half.isSome && !flagOf x.config.toNat 5
/-- The beats that stand complete in the grid lanes; the first of them is a row's second beat where its first has been taken (05 R134,
R135). -/
def Island.laneBeats (x : Island) : Nat :=
  let lens := (x.lanes.toList.take 8).map List.length
  let tags := (vget x.lanes 8).length
  let full := lens.foldl min 8
  if !mxWide x.config then min full tags else min full (2 * tags + flagCode x.laneHalf)
/-- How many of them start a row. -/
def Island.laneTags (x : Island) : Nat :=
  if !mxWide x.config then x.laneBeats else if x.laneHalf then x.laneBeats / 2 else (x.laneBeats + 1) / 2
/-- The words of a stream engine that the next beat takes: nine at the start of a row, eight otherwise (05 R134). -/
def Island.beatWords (x : Island) : Nat := if x.half.isNone then 9 else 8
/-- Whether the words of a stream engine form a complete beat (05 R134). -/
def Island.engineBeat (x : Island) : Bool := decide (x.beatWords ≤ x.engineWords.length)

/-- Discards the lane words that have formed no complete beat; their credits return (05 R134). -/
def State.dropLanes (s : State) (d y : Nat) : State :=
  let x := (s.tile d y).island
  let kept := fun (i : Nat) => if i < 8 then x.laneBeats else x.laneTags
  let gone := (List.range 9).flatMap fun i => (vget x.lanes i).drop (kept i)
  (s.modIsland d y fun x => { x with lanes := Vector.ofFn fun i => (vget x.lanes i.val).take (kept i.val) }).over gone fun w s =>
    s.returnCredit d y w.src

/-- MXCFG performed: the latches become EMPTY where FMT or BS changes; the words of incomplete beats are discarded where the source changes
or a first beat is discarded, and that first beat where either changes. DEDUCED (log 67): a beat that stands complete keeps its words
(17 R389, 05 R134). -/
def State.setIslandConfig (s : State) (d y : Nat) (c : Word) : State :=
  let x := (s.tile d y).island
  let format := x.configured && (mxFmt c != mxFmt x.config || mxScaled c != mxScaled x.config)
  let source := x.configured && mxSource c != mxSource x.config
  let drop := source || (format && x.half.isSome)
  let whole := decide ((if x.half.isSome && flagOf x.config.toNat 5 then 8 else 9) ≤ x.engineWords.length)
  let s := if drop then (s.dropLanes d y).modIsland d y fun x => { x with engineWords := if whole then x.engineWords else [] } else s
  s.modIsland d y fun x =>
    { x with configured := true, config := c,
             front := if format then Latch.empty else x.front, back := if format then Latch.empty else x.back,
             half := if format || source then none else x.half }

/-- The key of an accumulator value. -/
def accKey (row j : Nat) : Nat := row * 128 + j
/-- An accumulator value; an unlisted one is zero (07 R184). -/
def Island.accAt (x : Island) (row j : Nat) : BitVec 48 := tgetD x.acc (accKey row j) 0
/-- Writes an accumulator value. -/
def Island.accPut (x : Island) (row j : Nat) (v : BitVec 48) : Island :=
  { x with acc := if v = 0 then tdel x.acc (accKey row j) else tput x.acc (accKey row j) v }

/-- MXZERO performed (17 R396). -/
def Island.zeroRows (x : Island) (w : Word) : Island :=
  let (first, count, _) := rowRange w
  { x with acc := x.acc.filter fun e => decide (e.1 < first * 128) || decide ((first + count) * 128 ≤ e.1),
           accPsn := x.accPsn.filter fun r => decide (r < first) || decide (first + count ≤ r) }

/-- An output element of MXRD: its bytes' number, and whether SAT is set (17 R393). -/
def outElement (c : Word) (ofmt : Nat) (r : Rounding) (v : BitVec 48) : Nat × Bool :=
  match outFormat ofmt with
  | none => (((if mxFmt c = 3 then v.signExtend 64 else v.zeroExtend 64) : Word).toNat, false)
  | some .i32 => settleInt .i32 v.toInt
  | some f => convert .acc48 f r v.toNat

/-- The bytes of element `j` of row `first + i` that an MXRD writes, and whether SAT is set, with the random words as the island finds them in
`v` (17 R393, 09 R230). -/
def Tile.outBytesOf (t v : Tile) (q : IslandCmd) (i j : Nat) : List Byte × Bool :=
  let (first, count, ofmt) := rowRange q.arg2
  let w := outBytes ofmt
  let rnd := q.arg.toNat + count * 128 * w + 4 * (128 * i + j)
  let r := if q.stoch then Rounding.stochastic (v.spadRead v.part rnd 4) else Rounding.ofMode q.mode
  let (n, sat) := outElement t.island.config ofmt r (t.island.accAt (first + i) j)
  (toBytes n w, sat)
/-- Writes the `i`-th row of an MXRD, poisoned where its accumulator row is (17 R393, 11 R260). -/
def Tile.readOutRow (v t : Tile) (coin : Nat → Nat) (q : IslandCmd) (i : Nat) : Tile :=
  let (first, _, ofmt) := rowRange q.arg2
  let l := (List.range 128).map fun j => t.outBytesOf v q i j
  (t.engineSpadWrite .island coin t.part (q.arg.toNat + i * 128 * outBytes ofmt)
    (withPoison (l.flatMap (·.1)) (t.island.accPsn.contains (first + i)))).orSat (l.any (·.2))
/-- MXRD performed, with the random words as the island finds them in `v` (17 R393, 09 R230). -/
def Tile.readOut (t v : Tile) (coin : Nat → Nat) (q : IslandCmd) : Tile :=
  ((List.range (rowRange q.arg2).2.1).foldl (fun t i => v.readOutRow t coin q i) t).settleRaces .island

/-- The island status word (17 R390). -/
def Island.status (x : Island) : Word :=
  BitVec.ofNat 64 (x.nrr % 65536 * 2 ^ 48 + x.nps % 65536 * 2 ^ 32 + x.lastp * 2 ^ 23 + (if x.configured then mxFmt x.config else 15) * 16
    + x.back.state * 4 + flagCode (x.front.state != 0) * 2 + flagCode (x.cmds.any fun c => c.kind == 2 && c.fill))

/-- Whether an MXCFG has nothing left to wait for (17 R389). -/
def Island.configReady (x : Island) : Bool := x.latchCmds.isEmpty && x.back.state != 1 && x.dused == 0

/-- The command that the island performs at this row boundary, if one is due (17 R387). -/
def Island.dueCmd (x : Island) : Option IslandCmd :=
  match x.cmds.find? fun c => c.kind != 1 && c.kind != 2 with
  | none => none
  | some c => if c.kind = 0 ∧ !x.configReady then none else some c

/-- Performs a command at a row boundary (17 R387 to R396). -/
def State.performIsland (s : State) (d y : Nat) (c : IslandCmd) : State :=
  let s := match c.kind with
    | 0 => s.setIslandConfig d y c.arg
    | 3 => s.modIsland d y fun x => x.zeroRows c.arg
    | 4 =>
      let (v, s) := s.view d y true
      (s.modTile d y fun t => t.readOut v s.coin c).coined
    | _ => s.modTile d y fun t => t.setStrand c.strand (((t.strand c.strand).wr c.dst t.island.status).unmark c.dst)
  s.endIsland d y c

/-! ### Beats -/

/-- Whether the next beat comes from the words of a stream engine: the engine is the source, or its beat was complete before the source
changed (05 R134, log 67). -/
def Island.engineFirst (x : Island) : Bool := flagOf x.config.toNat 5 || x.engineBeat

/-- The words of the next beat, tag word first where it starts a row, or none while it is incomplete (05 R134, R135). -/
def Island.nextBeat (x : Island) : Option (List GWord) :=
  if x.engineFirst then (if x.engineBeat then some (x.engineWords.take x.beatWords) else none)
  else
    let lanes := (if x.half.isNone then [8] else []) ++ List.range 8
    if lanes.any fun i => (vget x.lanes i).isEmpty then none
    else some (lanes.filterMap fun i => ((vget x.lanes i).head?).map (·.word))

/-- Takes the words of the next beat; their credits return (05 R121). -/
def State.takeBeat (s : State) (d y : Nat) : State :=
  let x := (s.tile d y).island
  if x.engineFirst then s.modIsland d y fun x => { x with engineWords := x.engineWords.drop x.beatWords }
  else
    let n := if x.half.isNone then 9 else 8
    let gone := (x.lanes.toList.take n).filterMap List.head?
    let keep := fun (i : Nat) => if i < n then (vget x.lanes i).tail else vget x.lanes i
    (s.modIsland d y fun x => { x with lanes := Vector.ofFn fun i => keep i.val }).over gone fun w s => s.returnCredit d y w.src

/-- A row to be applied: its elements, accumulator row, scale bytes and poison (05 R135). -/
structure Row where
  a : List Val
  t : Nat
  sca : List Nat
  psn : Bool

/-- The row whose tag field stands at `tagAt` and its scales at `scaleAt` of the tag word, with its lane words. -/
def islandRow (c : Word) (tag : GWord) (tagAt scaleAt : Nat) (lanes : List GWord) : Row :=
  let f := mxFormat c
  { a := lanes.flatMap fun w => (List.range f.lanes).map fun i => decodeVal f (lane f w.bits i)
    t := bits tag.bits.toNat tagAt 9
    sca := (List.range 4).map fun g => bits tag.bits.toNat (scaleAt + 8 * g) 8
    psn := tag.psn != 0 || lanes.any fun w => w.psn != 0 }

/-- The rows that a complete row's words hold: two in E2M1, one otherwise (05 R135). -/
def islandRows (c : Word) (tag : GWord) (lanes : List GWord) : List Row :=
  if mxFmt c = 2 then [islandRow c tag 0 32 (lanes.take 4), islandRow c tag 16 64 (lanes.drop 4)] else [islandRow c tag 0 32 lanes]

/-- The group sum sg[g][j] of a row (05 R138). -/
def groupSum (c : Word) (l : Latch) (r : Row) (g j : Nat) : BitVec 48 :=
  let terms := (List.range 32).map fun k => mulVal ((lget r.a (32 * g + k)).getD (.fin false 0 0)) (l.elem c (32 * g + k) j)
  let s := islandSum terms
  if mxScaled c then
    let scale := mulVal (decodeVal .e8m0 ((lget r.sca g).getD 0)) (l.scale c g j)
    accCode false (islandSum [mulVal s scale])
  else accCode (mxFmt c == 3) s

/-- One addition into the accumulator: saturating to 48 bits in an INT8 island (05 R138, 07 R184). -/
def accAdd (int : Bool) (v x : BitVec 48) : BitVec 48 × Bool :=
  if int then
    let n := v.toInt + x.toInt
    if n < -(2 ^ 47) then (BitVec.ofInt 48 (-(2 ^ 47)), true)
    else if 2 ^ 47 - 1 < n then (BitVec.ofInt 48 (2 ^ 47 - 1), true)
    else (BitVec.ofInt 48 n, false)
  else (roundAcc (islandSum [decodeVal .acc48 v.toNat, decodeVal .acc48 x.toNat]), false)

/-- The group sums of a row: group g of column j at place 4 j + g (05 R138). -/
def rowSums (c : Word) (l : Latch) (r : Row) : List (BitVec 48) := (List.range 512).map fun n => groupSum c l r (n % 4) (n / 4)

/-- Applies a row's group sums to its accumulator row, group 0 first in each column, and says whether an addition saturated (05 R138,
07 R185). -/
def Island.applyRow (x : Island) (int : Bool) (t : Nat) (sums : List (BitVec 48)) : Island × Bool :=
  (List.range 512).foldl (fun acc n =>
    let (v, sat) := accAdd int (acc.1.accAt t (n / 4)) ((lget sums n).getD 0)
    (acc.1.accPut t (n / 4) v, acc.2 || sat)) (x, false)

/-- Whether a code is infinite or NaN. -/
def accSpecial (b : BitVec 48) : Bool := bits b.toNat 39 8 == 255
/-- The unbiased exponent of an ACC48 code. -/
def accExponent (b : BitVec 48) : Int := max (bits b.toNat 39 8) 1 - 127
/-- The magnitude of a value that is no NaN. -/
def Val.abs : Val → Val
  | .nan s m w => .nan s m w
  | .inf _ => .inf false
  | .fin _ m e => .fin false m e

/-- The checksum side C of a row (05 R139). -/
def rowCheck (c : Word) (l : Latch) (r : Row) : Val :=
  islandSum ((List.range 128).map fun i =>
    let scale := if mxScaled c then decodeVal .e8m0 ((lget r.sca (i / 32)).getD 0) else .fin false 1 0
    mulVal (mulVal ((lget r.a i).getD (.fin false 0 0)) scale) (accVal (mxFmt c == 3) ((lget l.checks i).getD 0)))

/-- Whether a row passes its check (05 R139). -/
def rowPasses (c : Word) (l : Latch) (r : Row) (sums : List (BitVec 48)) : Bool :=
  let int := mxFmt c == 3
  let diff := (addVal .nearest (islandSum (sums.map (accVal int))) (rowCheck c l r).negate).abs
  if int then !Val.lt (.fin false 0 0) diff
  else (sums.any accSpecial || l.checks.any accSpecial)
    || !Val.lt (.fin false 1 ((sums.foldl (fun m b => max m (accExponent b)) (-126)) - 30)) diff

/-- Applies a completed row: the check, its rerun and its poison, and the D word. A row that a poisoned word or latch reaches is applied
whatever its checks find, and poisons its accumulator row without MXE. `upset` counts the applications, 0 to 2, whose check
a soft error makes fail (05 R136, R139, R140, 11 R260, 17 R391). -/
def State.islandApply (s : State) (d y : Nat) (r : Row) (upset : Nat) : State :=
  let t := s.tile d y
  let x := t.island
  let c := x.config
  let sums := rowSums c x.front r
  let (x', sat) := x.applyRow (mxFmt c == 3) r.t sums
  let checked := mxFmt c == 3 || !(sums.any accSpecial || x.front.checks.any accSpecial)
  let pass := rowPasses c x.front r sums
  let fail1 := !pass || (checked && decide (1 ≤ upset))
  let fail2 := !pass || (checked && decide (2 ≤ upset))
  let bad := r.psn || x.front.psn
  let second := fail1 && fail2 && !bad
  let poison := bad || second
  let x1 := if second then { x with nps := x.nps + 1, lastp := r.t }
    else if fail1 && !fail2 then { x' with nrr := x'.nrr + 1 } else x'
  let x2 := if poison then { x1 with accPsn := sput x1.accPsn r.t } else x1
  let code := if poison then 2 else if fail1 then 1 else 0
  let word : GWord := ⟨BitVec.ofNat 128 (r.t + code * 2 ^ 32), BitVec.ofNat 5 (bits c.toNat 19 5), 0, false, false⟩
  let s := s.modTile d y fun t => { t with island := { x2 with dused := if mxRouted c then x2.dused + 1 else x2.dused } }.orSat sat
  let s := if mxRouted c then s.modTile d y fun t => t.modPe (mxPe c) fun p => p.put (mxQueue c) ⟨word, .dport⟩ else s
  if second then s.routeReport d y 0 ⟨0xE, 0, BitVec.ofNat 64 r.t⟩ else s

/-- Swaps the back latch to the front (05 R137). -/
def Island.swap (x : Island) : Island := { x with front := x.back, back := Latch.empty }

/-- Whether the island takes a beat that starts with this tag word, or none (05 R136, R137, 17 R395). -/
def Tile.takesBeat (t : Tile) (tag : Option GWord) : Bool :=
  let x := t.island
  let c := x.config
  let rows := if mxFmt c = 2 then 2 else if mxWide c && tag.isSome then 0 else 1
  let swap := match tag with
    | some w => w.bits.getLsbD 9
    | none => false
  let room := !mxRouted c || (decide (x.dused + rows ≤ mxSlots c) && decide ((vget (t.pe (mxPe c)).inq (mxQueue c)).length + rows ≤ 4))
  room && if swap then x.back.state == 2 && !x.cmds.any fun q => q.kind == 2 && q.fill else x.front.state != 0

/-- ISLAND_BEAT: at a row boundary the island performs the command that is due; otherwise it takes a complete beat, swaps where SWB says
so, and applies the rows that the beat completes (05 R134 to R140, 17 R387). In a throttled a-cycle it takes no beat (01 R21), and the island of an
armature site is held idle (01 R14). -/
def execIslandBeat (die site : Nat) (upset : Nat) (s : State) : Out :=
  let t := s.tile die site
  let x := t.island
  if t.firmware.isSome then .next s
  else match x.dueCmd with
  | some c => .next (s.performIsland die site c)
  | none =>
    if !x.configured || (s.die die).withheld then .next s
    else match x.nextBeat with
      | none => .next s
      | some ws =>
        let tag := if x.half.isNone then ws.head? else none
        if !t.takesBeat tag then .next s
        else
          let s := s.takeBeat die site
          let s := if tag.any fun w => w.bits.getLsbD 9 then s.modIsland die site Island.swap else s
          match x.half, mxWide x.config, ws with
          | none, true, _ => .next (s.modIsland die site fun x => { x with half := some ws })
          | none, false, w :: lanes =>
            .next ((s.over ((islandRows x.config w lanes).zip [upset % 3, upset / 3 % 3]) fun r s => s.islandApply die site r.1 r.2))
          | some (w :: first), _, lanes =>
            .next ((s.modIsland die site fun x => { x with half := none }).islandApply die site (islandRow x.config w 0 32 (first ++ lanes))
              (upset % 3))
          | _, _, _ => .next s

end Sys2Proof.Machine
end

