-- ==== Sys2Proof/Machine/Messages.lean ====
section
/-! DEFINITION. Decrement messages at a dispatcher: windows, decrements, aborts, acknowledgements, resends (02 R30, R31, R49, 03
R66, R68, R75 to R77). -/
namespace Sys2Proof.Machine

/-- Counts a dropped decrement (02 R49). -/
def State.countDecr (s : State) (d n : Nat) : State := s.modDie d fun f => { f with dropDecr := f.dropDecr + n }

/-- Applies a decrement to its record: a reservation counts it, a DORMANT task of the named instance loses one dependence,
any other is dropped and counted (02 R30, R49). A forward decrement leaves its producer region (03 R68). DESIGN CHOICE (log 81): of several
forward decrements, whose producers R68 does not rank, the one applied last leaves its region. -/
def State.applyDecrement (s : State) (d : Nat) (m : DecrMsg) (forward : Bool) : State :=
  match s.record d m.record with
  | none => s.countDecr d 1
  | some r =>
    if r.inst ≠ m.tinst then s.countDecr d 1
    else
      let prod := if forward && (r.fwd || r.reserved) then some (m.pbx, m.pby, m.pw, m.ph) else r.producer
      if r.reserved then s.setRecord d m.record { r with dcnt := min (r.dcnt + 1) 65535, producer := prod }
      else if r.state != .dormant then s.countDecr d 1
      else
        let s := s.setRecord d m.record { r with dcnt := r.dcnt - 1, producer := prod }
        if r.dcnt - 1 = 0 then s.enterReady d m.record false else s

/-- An abort of an instance: a reservation is marked; the tasks of a live one fail under its policy (02 R30, R31). -/
def State.abortInstance (s : State) (inst : Nat) : State :=
  match tget s.insts inst with
  | none => s
  | some i =>
    if i.reserved.isSome then s.over i.records fun x s => s.modRecord x.1 x.2 fun r => { r with abortMark := true }
    else
      let (s, l) := s.instanceFails inst 0x10 false
      s.failAll l

/-- Acknowledges a message (03 R77). -/
def State.acknowledge (s : State) (d : Nat) (m : DecrMsg) : State :=
  s.transmit d m.sdev m.sdie .ack ⟨s.plinth.podId, d, 0, m.seq, 0, 0, 0, 0, 0⟩

/-- R77: a message passes its source's window, is applied once, and is acknowledged in every case; a drop counts as duplicate or as stale. -/
def State.receive (s : State) (d : Nat) (m : DecrMsg) (apply : State → State) : State :=
  let key := destKey m.sdev m.sdie
  let (hi, map) := tgetD (s.die d).windows key (0, 0)
  let diff := seqDiff m.seq hi
  let put := fun (s : State) (w : Nat × BitVec 64) => s.modDie d fun f => { f with windows := tput f.windows key w }
  (if 0 < diff then apply (put s (m.seq, (map <<< diff.toNat) ||| 1))
   else if -64 < diff && !map.getLsbD (-diff).toNat then apply (put s (hi, map ||| (1#64 <<< (-diff).toNat)))
   else if -64 < diff then s.modDie d fun f => { f with dropDup := f.dropDup + 1 }
   else s.modDie d fun f => { f with dropStale := f.dropStale + 1 }).acknowledge d m

/-- DECREMENT (03 R77, 02 R49). -/
def execDecrement (die : Nat) (m : DecrMsg) (s : State) : Out :=
  .next (s.receive die m fun s => s.applyDecrement die m false)
/-- FORWARD_DECREMENT (03 R77, R68). -/
def execForwardDecrement (die : Nat) (m : DecrMsg) (s : State) : Out :=
  .next (s.receive die m fun s => s.applyDecrement die m true)
/-- ABORT_MESSAGE (02 R31, 03 R77). -/
def execAbortMessage (die : Nat) (m : DecrMsg) (s : State) : Out :=
  .next (s.receive die m fun s => s.abortInstance m.tinst)

/-- ACKNOWLEDGEMENT: releases the kept copy; the sends that waited for it go out (03 R76, R77). -/
def execAcknowledgement (die : Nat) (m : DecrMsg) (s : State) : Out :=
  let mine := s.keptTo die m.sdev m.sdie
  match mine.find? fun k => k.msg.seq == m.seq with
  | none => .next s
  | some k =>
    let s := s.modDie die fun f => { f with kept := f.kept.erase k }
    let left := s.keptTo die m.sdev m.sdie
    .next (s.over (left.filter fun w => inWindowOf left w.msg.seq && !inWindowOf mine w.msg.seq) fun w s => s.transmit die w.dev w.die w.kind w.msg)

/-- The reason for which a decrement message is dropped: 1 reserved bits, 2 a reserved KIND, a field out of range (03 R75, 11 R259). -/
def dropReason (w1 : Word) : Nat := if bits w1.toNat 49 15 ≠ 0 ∨ bits w1.toNat 0 18 ≠ 0 then 1 else 2
/-- MALFORMED_DECREMENT_MESSAGE: dropped and logged with the header of the packet that brought it (03 R75, 11 R259). -/
def execMalformedDecrementMessage (p : Packet) (_ w1 : Word) (s : State) : Out := .next (s.logDrop p.dst opcDecr 0 p (dropReason w1))

/-- DECREMENT_RESEND: the `k`-th kept message goes out again, unless it still waits for an older one (03 R76, R77, log 4). -/
def execDecrementResend (die k : Nat) (s : State) : Out :=
  match lget (s.die die).kept k with
  | some m =>
    if inWindowOf (s.keptTo die m.dev m.die) m.msg.seq then .next (s.transmit die m.dev m.die m.kind m.msg) else .next s
  | none => .next s

/-- Reports a kept message as LINKLOST (03 R76, 12 R274). -/
def State.linkLost (s : State) (d : Nat) (k : Kept) : State :=
  s.raiseEvent 3 d (BitVec.ofNat 64 (k.dev + k.die * 2 ^ 10)) (BitVec.ofNat 64 k.msg.seq)

/-- LINKLOST: a message that stays unacknowledged is reported; resending goes on (03 R76, log 4). -/
def execLinklost (die k : Nat) (s : State) : Out :=
  match lget (s.die die).kept k with
  | some m => .next (s.linkLost die m)
  | none => .next s

/-- Runs the message of one 16-byte slot of a dispatcher window; a slot of zeros is empty (03 R75). No packet header comes with it, so a
malformed one is logged under a header of zeros (log 26). -/
def State.windowSlot (s : State) (die : Nat) (w0 w1 : Word) : State :=
  if w0 == 0 && w1 == 0 then s
  else match decodeDecr { Packet.zero with dst := die, ndf := 1 } w0 w1 with
    | .decrement d m => s.receive d m fun s => s.applyDecrement d m false
    | .forwardDecrement d m => s.receive d m fun s => s.applyDecrement d m true
    | .abortMessage d m => s.receive d m fun s => s.abortInstance m.tinst
    | .acknowledgement d m => match execAcknowledgement d m s with
      | .next s => s
      | .fault _ => s
      | .refused _ => s
    | _ => s.logDrop die opcDecr 0 { Packet.zero with dst := die, ndf := 1 } (dropReason w1)

end Sys2Proof.Machine
end

