-- ==== Sys2Proof/Machine/Instances.lean ====
section
/-! DEFINITION. Maquettes and graph instances: the checks of a maquette, argument tables, instantiation and reservation (02 R26 to R36, 14
R301 to R306, 16 R363). -/
namespace Sys2Proof.Machine

/-! ### The maquette -/

/-- Doubleword at byte offset `o` of a maquette (14 R301). -/
def Maquette.word (m : Maquette) (o : Nat) : Nat := mread m.bytes o 8
/-- PART of a maquette. -/
def Maquette.part (m : Maquette) : Nat := bits (m.word 0) 44 4
/-- GKEY of a maquette. -/
def Maquette.gkey (m : Maquette) : Nat := bits (m.word 0) 36 8
/-- POLICY of a maquette. -/
def Maquette.policy (m : Maquette) : Nat := bits (m.word 0) 34 2
/-- NTASK of a maquette. -/
def Maquette.ntask (m : Maquette) : Nat := bits (m.word 0) 21 13
/-- NSLOT of a maquette. -/
def Maquette.nslot (m : Maquette) : Nat := bits (m.word 0) 14 7
/-- Slot entry `i` (14 R302). -/
def Maquette.slot (m : Maquette) (i : Nat) : Nat := m.word (64 + 8 * i)
/-- Where the task templates begin (14 R301). -/
def Maquette.taskOff (m : Maquette) : Nat := (64 + 8 * m.nslot + 63) / 64 * 64
/-- Doubleword `n` of template `i` (14 R303). -/
def Maquette.field (m : Maquette) (i n : Nat) : Nat := m.word (m.taskOff + 128 * i + 8 * n)
/-- TDIE of template `i`. -/
def Maquette.die (m : Maquette) (i : Nat) : Nat := bits (m.field i 1) 32 4
/-- Whether REF bit `b` of template `i` is set. -/
def Maquette.isRef (m : Maquette) (i b : Nat) : Bool := flagOf (m.field i 2) (56 + b)
/-- NSUCC of template `i`. -/
def Maquette.nsucc (m : Maquette) (i : Nat) : Nat := bits (m.field i 4) 0 16
/-- Where the successor list of template `i` begins. -/
def Maquette.listOff (m : Maquette) (i : Nat) : Nat := bits (m.field i 4) 16 20 * 8
/-- Template successor entry `k` of template `i` (14 R304). -/
def Maquette.succ (m : Maquette) (i k : Nat) : Nat := m.word (m.listOff i + 8 * k)
/-- NOPS of template `i`. -/
def Maquette.nops (m : Maquette) (i : Nat) : Nat := bits (m.field i 1) 16 3

/-- Whether word 1 of an operand descriptor breaks R35 in a W by H region, or holds a reserved swizzle code (06 R146, 14 R306). -/
def operandBad (w h b : Nat) : Bool :=
  let len := bits b 0 22
  let off := bits b 22 21
  (!flagOf b 55 && (decide (w ≤ bits b 60 4) || decide (h ≤ bits b 56 4))) || off % 64 != 0 || len % 64 != 0 || decide (len < 64)
    || decide (2097152 < len) || decide (2097152 < off + len) || swizzleReserved (BitVec.ofNat 5 (bits b 43 5))
/-- Whether two operand descriptors name one handle in one tile (02 R35). -/
def operandsClash (a b : Nat) : Bool :=
  bits a 48 7 == bits b 48 7 && (flagOf a 55 || flagOf b 55 || bits a 56 8 == bits b 56 8)

/-- Whether a reference word breaks its map (14 R302). -/
def Maquette.refBad (m : Maquette) (w : Nat) : Bool := decide (m.nslot ≤ bits w 58 6) || flagOf w 57

/-- Whether template `i` breaks R34, R303 or R306. -/
def Maquette.taskBad (m : Maquette) (i : Nat) : Bool :=
  let f := m.field i
  let w := bits (f 1) 23 4
  let h := bits (f 1) 19 4
  let widths := (List.range 6).map fun k => bits (f 2) (7 * k) 7
  let addr := fun (bit v : Nat) => if m.isRef i bit then m.refBad v else decide (2 ^ 57 ≤ v)
  let value := fun (bit v : Nat) => m.isRef i bit && m.refBad v
  let ops := (List.range (m.nops i)).map fun k => f (9 + 2 * k)
  w == 0 || decide (12 < w) || h == 0 || decide (11 < h) || decide (4 < m.nops i) || widths.any (fun x => decide (64 < x))
    || decide (64 < widths.sum) || decide (4096 < m.nsucc i)
    || addr 0 (f 0) || bits (f 1) 52 12 != 0 || decide (7 < m.die i) || bits (f 1) 0 16 != 0 || bits (f 2) 42 14 != 0 || flagOf (f 2) 63
    || bits (f 4) 36 28 != 0 || f 5 != 0 || value 1 (f 6) || value 2 (f 7)
    || (List.range (m.nops i)).any (fun k => addr (3 + k) (f (8 + 2 * k)) || (!m.isRef i (3 + k) && f (8 + 2 * k) % 64 != 0))
    || ops.any (operandBad w h)
    || (List.range ops.length).any (fun k => (List.range k).any fun j => operandsClash ((lget ops j).getD 0) ((lget ops k).getD 0))
    || decide (m.len < m.listOff i + 8 * m.nsucc i)

/-- Whether a template successor entry breaks R304. -/
def Maquette.succBad (m : Maquette) (e : Nat) : Bool :=
  bits e 0 34 != 0 || bits e 51 6 != 0
    || (if flagOf e 63 then bits e 34 17 != 0 else bits e 57 6 != 0 || decide (m.ntask ≤ bits e 36 15))

/-- Whether LDMQ must refuse a maquette of `len` bytes (14 R306). -/
def Maquette.bad (m : Maquette) : Bool :=
  bits (m.word 0) 48 16 != 0x4D51 || bits (m.word 0) 0 14 != 0 || decide (1 < m.policy) || bits (m.word 8) 32 32 != 0
    || (List.range 6).any (fun k => m.word (16 + 8 * k) != 0) || bits (m.word 8) 0 32 != m.len
    || m.ntask == 0 || decide (4096 < m.ntask) || decide (64 < m.nslot) || decide (8388608 < m.len)
    || decide (m.len < m.taskOff + 128 * m.ntask)
    || (List.range m.nslot).any (fun k => bits (m.slot k) 0 56 != 0 || (if flagOf (m.slot k) 63 then decide (63 < bits (m.slot k) 56 7)
        else decide (15 < bits (m.slot k) 56 7)))
    || (List.range m.ntask).any (fun i => m.taskBad i || (List.range (m.nsucc i)).any fun k => m.succBad (m.succ i k))

/-- The argument table entries that a maquette names (14 R302, R304, R305). -/
def Maquette.args (m : Maquette) : List Nat :=
  (((List.range m.nslot).filterMap fun k => if flagOf (m.slot k) 63 then some (bits (m.slot k) 56 7) else none)
    ++ (List.range m.ntask).flatMap fun i => (List.range (m.nsucc i)).filterMap fun k =>
        if flagOf (m.succ i k) 63 then some (bits (m.succ i k) 57 6) else none).eraseDups

/-! ### Resources -/

/-- A free choice among the elements of a list (log 2). -/
def State.pickFrom {α : Type} (s : State) (l : List α) : Option (α × State) :=
  let (k, s) := s.pick (max l.length 1)
  (lget l k).map fun x => (x, s)

/-- The bytes of a die's graph memory in use: maquettes and successor lists (01, 02 R36). -/
def FDie.graphUsed (f : FDie) : Nat := (f.maquettes.map fun e => e.2.len).sum + (f.succs.map fun e => 8 * e.2.length).sum

/-- A free run of `n` records of a die, wherever the dispatcher takes it (02 R30, log 2). -/
def State.freeRun (s : State) (d n : Nat) : Option (Nat × State) :=
  s.pickFrom ((List.range (32769 - n)).filter fun b => (List.range n).all fun k => (tget (s.die d).records (b + k)).isNone)

/-- A free place for a successor list in a die's graph memory (02 R36, log 2). -/
def State.freeList (s : State) (d n : Nat) : Option (Nat × State) :=
  let taken := (s.die d).succs.map fun e => (e.1, max e.2.length 1)
  s.pickFrom ((List.range (2 ^ 20 + 1 - max n 1)).filter fun p => taken.all fun t => decide (p + max n 1 ≤ t.1) || decide (t.1 + t.2 ≤ p))

/-- Whether a message addressed to an instance has been neither applied nor dropped (02 R30). -/
def State.addressed (s : State) (inst : Nat) : Bool :=
  (s.dies.toList.any fun f => f.kept.any fun k => k.dev == s.plinth.podId && k.msg.tinst == inst)
    || s.net.any fun n => n.opc == opcDecr && bits n.w0.toNat 32 16 == inst && bits n.w0.toNat 48 3 != 3

/-- The next instance number: the first free one above the last taken, in rotation from 65,535 to 1 (02 R30). -/
def State.nextInst (s : State) : Option Nat :=
  ((List.range 65535).map fun k => (s.lastInst + k) % 65535 + 1).find? fun n => (tget s.insts n).isNone && !s.addressed n

/-- The dies that a maquette names, in rising order. -/
def Maquette.dies (m : Maquette) : List Nat := (List.range 8).filter fun d => (List.range m.ntask).any fun i => m.die i == d
/-- How many tasks a maquette places on a die. -/
def Maquette.count (m : Maquette) (d : Nat) : Nat := ((List.range m.ntask).filter fun i => m.die i == d).length

/-- Takes a run of records on each die of a list (02 R30). -/
def State.takeRuns (s : State) (m : Maquette) : List Nat → Option (List (Nat × Nat × Nat) × State)
  | [] => some ([], s)
  | d :: rest => match s.freeRun d (m.count d) with
    | none => none
    | some (b, s) => match s.takeRuns m rest with
      | none => none
      | some (l, s) => some ((d, b, m.count d) :: l, s)

/-- The key of a buffer pool (02 R28). -/
def poolKey (part i : Nat) : Nat := part * 16 + i

/-- Binds the slots of a maquette: their addresses, and the pool blocks taken (02 R28). -/
def State.bindSlots (s : State) (m : Maquette) (args : Tbl Word) : List Nat → Option (List Nat × List (Nat × Nat) × State)
  | [] => some ([], [], s)
  | k :: rest =>
    let e := m.slot k
    let i := bits e 56 7
    let bound : Option (Nat × List (Nat × Nat) × State) :=
      if flagOf e 63 then some ((tgetD args i 0).toNat, [], s)
      else
        let key := poolKey m.part i
        let p := tgetD s.pools key ⟨0, []⟩
        (s.pickFrom p.free).map fun x => (x.1, [(key, x.1)], { x.2 with pools := tput x.2.pools key { p with free := p.free.erase x.1 } })
    match bound with
    | none => none
    | some (a, b, s) => match s.bindSlots m args rest with
      | none => none
      | some (l, bs, s) => some (a :: l, b ++ bs, s)

/-! ### Records -/

/-- A record with every field zero, DORMANT. -/
def Record.blank : Record := default

/-- A field of a template with its reference replaced; none where the address does not fit in 57 bits (14 R303). -/
def Maquette.bound (m : Maquette) (slots : List Nat) (i bit v : Nat) : Option Nat :=
  if m.isRef i bit then
    let a := (lget slots (bits v 58 6)).getD 0 + bits v 0 57
    if 2 ^ 57 ≤ a then none else some a
  else some v

/-- The record of template `i` (02 R33, 14 R303); none for BADREC. -/
def Maquette.record (m : Maquette) (slots : List Nat) (inst i slptr : Nat) : Option Record :=
  let f := m.field i
  let ops := (List.range (m.nops i)).map fun k => (m.bound slots i (3 + k) (f (8 + 2 * k)), f (9 + 2 * k))
  match m.bound slots i 0 (f 0), m.bound slots i 1 (f 6), m.bound slots i 2 (f 7) with
  | some k, some a0, some a1 =>
    if ops.any fun o => match o.1 with
        | some a => a % 64 != 0
        | none => true
    then none
    else some { Record.blank with
      kaddr := k, part := BitVec.ofNat 4 m.part, gkey := BitVec.ofNat 8 m.gkey, dcnt := bits (f 1) 36 16, prio := bits (f 1) 29 3,
      spl := flagOf (f 1) 28, fwd := flagOf (f 1) 27, w := bits (f 1) 23 4, h := bits (f 1) 19 4, nops := m.nops i,
      wids := bits (f 2) 0 42, user := BitVec.ofNat 64 (f 3), slptr := slptr, nsucc := m.nsucc i, inst := inst,
      arg0 := BitVec.ofNat 64 a0, arg1 := BitVec.ofNat 64 a1,
      opds := ops.map fun o => (BitVec.ofNat 64 (o.1.getD 0), BitVec.ofNat 64 o.2) }
  | _, _, _ => none

/-- The place of task `i` in the runs of its instance: its die and record index (02 R30). -/
def Maquette.placeOf (m : Maquette) (runs : List (Nat × Nat × Nat)) (i : Nat) : Nat × Nat :=
  let d := m.die i
  let base := ((runs.find? fun r => r.1 == d).map (·.2.1)).getD 0
  (d, base + ((List.range i).filter fun j => m.die j == d).length)

/-- The successor list of task `i` (02 R36, 14 R304). -/
def Maquette.succList (m : Maquette) (runs : List (Nat × Nat × Nat)) (args : Tbl Word) (pod inst i : Nat) : List Word :=
  (List.range (m.nsucc i)).map fun k =>
    let e := m.succ i k
    if flagOf e 63 then tgetD args (bits e 57 6) 0 &&& ~~~(1#64 <<< 33)
    else
      let (d, r) := m.placeOf runs (bits e 36 15)
      BitVec.ofNat 64 (pod * 2 ^ 54 + d * 2 ^ 51 + r * 2 ^ 36 + bits e 34 2 * 2 ^ 34 + inst * 2 ^ 16)

/-- Writes the records and successor lists of an instance; none for BADREC, or with `some none` NOREC (02 R27, R36). -/
def State.writeRecords (s : State) (m : Maquette) (slots : List Nat) (runs : List (Nat × Nat × Nat)) (args : Tbl Word) (inst : Nat) :
    List Nat → Except Nat State
  | [] => .ok s
  | i :: rest =>
    let (d, n) := m.placeOf runs i
    let list := m.succList runs args s.plinth.podId inst i
    if 8388608 < (s.die d).graphUsed + 8 * list.length then .error 1
    else match s.freeList d list.length with
      | none => .error 1
      | some (p, s) => match m.record slots inst i p with
        | none => .error 4
        | some r =>
          let old := tget (s.die d).records n
          let early := (old.map Record.dcnt).getD 0
          let r := { r with dcnt := r.dcnt - early, producer := old.bind Record.producer, abortMark := (old.map Record.abortMark).getD false }
          let s := s.countDecr d (early - bits (m.field i 1) 36 16)
          State.writeRecords (s.modDie d fun f => { f with records := tput f.records n r, succs := tput f.succs p list }) m slots runs args inst rest

/-! ### Instantiation -/

/-- The maquette that a handle names; none for a reserved bit, an unknown number, or a poisoned maquette (16 R363). -/
def State.maquetteOf (s : State) (h : Word) : Option Maquette :=
  if bits h.toNat 19 45 ≠ 0 then none
  else match tget (s.die (bits h.toNat 16 3)).maquettes (bits h.toNat 0 16) with
    | some m => if m.psn then none else some m
    | none => none

/-- Forgets the status of a retired instance whose number is reused (18 R438). -/
def State.forgetStatus (s : State) (inst : Nat) : State :=
  { s with dies := s.dies.map fun (f : FDie) => { f with instStatus := f.instStatus.filter fun e => e.1 != inst : FDie } }

/-- Makes an instance live: its tasks with DCNT = 0 enter READY; an abort that met the reservation fails them all (02 R27, R30, R47). -/
def State.enliven (s : State) (inst : Nat) (i : Inst) : State :=
  let s := { s with insts := tput s.insts inst i, lastInst := if i.reserved.isSome then s.lastInst else inst }
  let s := s.forgetStatus inst
  let marked := i.records.any fun x => match s.record x.1 x.2 with
    | some r => r.abortMark
    | none => false
  let s := { s with insts := tput s.insts inst { i with reserved := none } }
  if marked then s.killInstance inst
  else s.over i.records fun x s => match s.record x.1 x.2 with
    | some r => if r.dcnt = 0 then s.enterReady x.1 x.2 false else s
    | none => s

/-- Instantiates a maquette, filling a reservation if it names one: the status of R27, the instance number and the state, which
is the old one unless the status is OK (02 R27 to R30). -/
def State.instantiate (s : State) (m : Maquette) (args : Tbl Word) (byDie resv : Option Nat) : Nat × Nat × State :=
  if m.dies.any fun d => !s.online d then (3, 0, s)
  else
    let held := resv.bind fun n => (tget s.insts n).map fun i => (n, i.runs)
    let got : Option (Nat × List (Nat × Nat × Nat) × State) := match held with
      | some (n, runs) => some (n, runs, s)
      | none => s.nextInst.bind fun n => (s.takeRuns m m.dies).map fun x => (n, x.1, x.2)
    match got with
    | none => (if s.nextInst.isNone then 6 else 1, 0, s)
    | some (n, runs, s1) => match s1.bindSlots m args (List.range m.nslot) with
      | none => (2, 0, s)
      | some (slots, blocks, s2) => match s2.writeRecords m slots runs args n (List.range m.ntask) with
        | .error e => (e, 0, s)
        | .ok s3 =>
          (0, n, s3.enliven n ⟨m.policy, BitVec.ofNat 4 m.part, runs, blocks, byDie, false, 0, if held.isSome then some 0 else none⟩)

/-- Reserves an instance number and a run of records on each die of a maquette; none for NOROOM (02 R30). -/
def State.reserve (s : State) (handle : Nat) (m : Maquette) : Option (Nat × List (Nat × Nat × Nat) × State) :=
  match s.nextInst, s.takeRuns m m.dies with
  | some n, some (runs, s) =>
    let i : Inst := ⟨m.policy, BitVec.ofNat 4 m.part, runs, [], none, false, 0, some handle⟩
    let s := { s with insts := tput s.insts n i, lastInst := n : State }.forgetStatus n
    some (n, runs, s.over i.records fun x s => s.setRecord x.1 x.2
      { Record.blank with reserved := true, inst := n, part := i.part, gkey := BitVec.ofNat 8 m.gkey })
  | _, _ => none

/-- Releases a reservation and its record runs (02 R30). -/
def State.releaseReservation (s : State) (n : Nat) (i : Inst) : State :=
  { s.over i.records (fun x s => s.modDie x.1 fun f => { f with records := tdel f.records x.2 }) with insts := tdel s.insts n }

end Sys2Proof.Machine
end

