-- ==== Sys2Proof/Machine/TaskOps.lean ====
section
/-! DEFINITION. The dispatcher instructions of a strand: TDONE, TSIG, GINST, TSTAT, TFAIL (02 R44, 03 R70, 16 R363, 18 R430, R433, R436
to R438). -/
namespace Sys2Proof.Machine

/-! ### Reads that never raise a page request by themselves -/

/-- What a read of 8 to 64 bytes finds: bytes, a wait for a peer or a line, a page that is not present, or a fault. -/
inductive Now where
  | ok (s : State) (b : List PByte)
  | wait (s : State)
  | absent
  | fault

/-- Reads through a translation that is cached, or that a quiet walk of the dispatcher finds (03 R70, 14 R305, log 12). -/
def State.readNow (s : State) (q : Requester) (need : Need) (code va n : Nat) : Now :=
  match q.peer.find? fun p => p.write && p.va == va with
  | some p => if p.error then .fault else .absent
  | none => match s.engineRead q need (code + 32) false va n with
    | .ok s b => .ok s b
    | .wait s => .wait s
    | .fault _ => .fault

/-- The dispatcher as a reader for a record, in a partition and graph key. -/
def Record.reader (d n : Nat) (part : BitVec 4) (gkey : BitVec 8) (peer : List PeerPiece) : Requester :=
  ⟨.dispatcher d n, d, 144, part, gkey, 0, peer, 0, 64⟩
/-- Whether the dispatcher has a read for a record in flight. -/
def State.reading (s : State) (d n : Nat) : Bool := s.access.any fun a => a.agent == .dispatcher d n
/-- Forgets the answers that a record holds to the dispatcher's reads. -/
def State.endReading (s : State) (d n : Nat) : State := s.modRecord d n fun r => { r with peer := [] }

/-! ### Kernel images -/

/-- The fields of a kernel image header (14 R299). -/
structure ImageHeader where
  magic : Nat
  cfgn : Nat
  codeLen : Nat
  codeOff : Nat
  cfgOff : Nat
  clean : Bool
  deriving DecidableEq, Repr

/-- The header in 64 bytes (14 R299). -/
def imageHeader (b : List Byte) : ImageHeader :=
  let w := fun i => fromBytes ((b.drop (8 * i)).take 8)
  ⟨bits (w 0) 48 16, bits (w 0) 44 4, bits (w 1) 32 32, bits (w 1) 0 32, bits (w 2) 0 32,
    bits (w 0) 0 44 == 0 && bits (w 2) 32 32 == 0 && (List.range 5).all fun i => w (3 + i) == 0⟩

/-- Whether a header breaks R299 (14 R300). -/
def ImageHeader.bad (h : ImageHeader) : Bool :=
  h.magic != 0x4B4E || !h.clean || h.codeLen % 4 != 0 || decide (h.codeLen < 4) || decide (131072 < h.codeLen) || h.codeOff % 64 != 0
    || decide (h.codeOff < 64) || h.cfgOff % 64 != 0 || (h.cfgn == 0 && h.cfgOff != 0)
    || (h.cfgn != 0 && decide (h.codeOff < h.cfgOff + imageSize * h.cfgn) && decide (h.cfgOff < h.codeOff + h.codeLen))
where imageSize : Nat := 53248

/-! ### Signals -/

/-- Whether every earlier access of a strand has been performed at device scope, and the remote writes that its die had taken before at system
scope (09 R223, R225, R227, R236, 16 R363, 18 R436). -/
def State.released (s : State) (a : Access) : Bool :=
  s.rwbDrained a && !s.access.any fun b => b.agent == a.agent && decide (b.id < a.id) && b.kind != .xlt && b.kind != .pref

/-- What TSIG finds of a splice entry: it may be sent, is held, or its image is still being read (03 R70). -/
inductive Splice where
  | send (s : State)
  | hold (s : State)
  | wait (s : State)

/-- Judges the conditions of R70 for a splice entry of task `n` in a tile (03 R70). -/
def State.judgeSplice (s : State) (d site n : Nat) (r : Record) (e : Word) : Splice :=
  match s.record d (succRec e) with
  | none => .hold s
  | some x =>
    if succDev e ≠ s.plinth.podId ∨ succDie e ≠ d ∨ x.inst ≠ succInst e ∨ x.reserved ∨ !x.spl ∨ x.w ≠ r.w ∨ x.h ≠ r.h ∨ x.part ≠ r.part
        ∨ x.gkey ≠ r.gkey ∨ 65536 < (s.tile d site).codeLen ∨ r.succRec.isSome ∨ r.state ≠ .running ∨ x.kaddr % 64 ≠ 0 then .hold s
    else match s.readNow (Record.reader d n x.part x.gkey r.peer) .image 3 x.kaddr 64 with
      | .wait s => .wait s
      | .absent | .fault => .hold (s.endReading d n)
      | .ok s b =>
        let h := imageHeader (b.map (·.1))
        if b.any (·.2) || h.bad || h.cfgn == 0 || decide (65536 < h.codeLen) then .hold (s.endReading d n) else .send (s.endReading d n)

/-- The dispatcher acts on entry `i` of task `n` (18 R436); none while it reads the successor's image. A list that an
error has struck aborts the instance (11 R262). -/
def State.signal (s : State) (d site n i : Nat) : State × Bool :=
  match s.record d n with
  | none => (s, true)
  | some r => match lget (s.successors d r) i with
    | none => (s, true)
    | some e =>
      if r.succPsn then (s.abortWith d n ⟨8, 0, 0⟩, true)
      else if succSent e ∨ r.noDecr then (s, true)
      else if succSplice e then
        match s.judgeSplice d site n r e with
        | .wait s => (s, false)
        | .hold s => (s, true)
        | .send s => ((s.sendDecrement d n i false).modRecord d n fun r => { r with splSent := true, succRec := some (succRec e) }, true)
      else (s.sendDecrement d n i false, true)

/-- Ends a TSIG whose release has taken effect and whose entry the dispatcher can act on (18 R436, log 22). -/
def State.trySignal (s : State) (a : Access) : State :=
  match a.agent with
  | .strand d t _ =>
    match (s.tile d t).task with
    | none => s.endAccess a
    | some r =>
      if !s.released a || s.reading d r then s
      else
        let (s, done) := s.signal d t r a.data.toNat
        if done then s.finish a else s
  | _ => s

/-- A pending dispatcher operation of the strand that has the move: `code` 16 TSIG, 24 GINST; `pa` holds the argument table's address and
`data` the index or the handle (log 22). -/
def State.dispatchAccess (s : State) (code : Nat) (va data : Word) (slot : Nat) (dst : Reg) : Access :=
  { s.newAccess .xlt va 1 slot with phase := .drained, data := data, data2 := BitVec.ofNat 64 code, pa := va.toNat, dst := dst }

/-- TSIG: an index at or beyond NSUCC traps ILL with EVAL the index (18 R436). -/
def execTsig (a : Reg) (o : Order) (s : State) : Out :=
  issue s [a] o fun s =>
    match s.here.task.bind (s.record s.cur.die) with
    | none => s.modMe Strand.next
    | some r =>
      if r.nsucc ≤ (s.me.rd a).toNat then s.trapMe 1 5 (s.me.rd a)
      else
        let x := s.dispatchAccess 16 0 (s.me.rd a) o.set.val 0
        (s.launch x).trySignal x

/-! ### Instantiation -/

/-- Reads the entries of an argument table (14 R305). -/
def State.readArgs (s : State) (q : Requester) (base : Nat) : List Nat → Tbl Word → Now × Tbl Word × Nat
  | [], t => (.ok s [], t, 0)
  | k :: rest, t =>
    let va := base + 8 * k
    if va % 8 ≠ 0 then (.fault, t, va)
    else match s.readNow q .read 0 va 8 with
      | .ok s b => if b.any (·.2) then (.fault, t, va) else s.readArgs q base rest (tput t k (BitVec.ofNat 64 (fromBytes (b.map (·.1)))))
      | .wait s => (.wait s, t, va)
      | .absent => (.absent, t, va)
      | .fault => (.fault, t, va)

/-- The result word of GINST (16 R363). -/
def ginstWord (status inst : Nat) : Word := BitVec.ofNat 64 (inst * 2 ^ 48 + status)

/-- Performs a GINST whose release has taken effect: BADREC for the handle, DENIED for the partition, then the argument table, then
R27 (16 R363, 14 R305, log 22). -/
def State.tryGinst (s : State) (a : Access) : State :=
  match a.agent with
  | .strand d t _ => match (s.tile d t).task with
    | none => s.endAccess a
    | some r =>
      if a.phase != .drained || !s.released a || s.reading d r then s
      else match s.maquetteOf a.data with
        | none => s.reply a (ginstWord 4 0)
        | some m =>
          if m.part ≠ a.part.toNat then s.reply a (ginstWord 5 0)
          else
            let q := Record.reader d r a.part a.gkey (((s.record d r).map Record.peer).getD [])
            match s.readArgs q a.pa m.args [] with
            | (.wait s, _, _) => s
            | (.absent, _, va) =>
              (State.modAccess (s.endReading d r) a.id fun b => { b with phase := .walk, va := va }).pageRequest d { a with phase := .walk, va := va }
            | (.fault, _, _) => (s.endReading d r).reply a (ginstWord 4 0)
            | (.ok s _, args, _) =>
              let (status, inst, s) := (s.endReading d r).instantiate m args (some d) none
              s.reply a (ginstWord status inst)
  | _ => s

/-- GINST: it waits for acquires (16 R363, 09 R223). -/
def execGinst (d a b : Reg) (s : State) : Out :=
  issueMem s [d, a, b] Order.none fun s =>
    let x := s.dispatchAccess 24 (s.me.rd b) (s.me.rd a) 0 d
    (s.launch x).tryGinst x

/-- The turn of a tile's engines: the command queue, then the oldest TSIG and GINST of each strand (06 R163, log 22). -/
def State.tileTurn (s : State) (d t : Nat) : State :=
  let mine := s.access.filter fun a => a.agent.place == (d, t) && (a.isSignal || a.isGinst)
  (s.engineTurn d t).over mine fun a s => if a.isSignal then s.trySignal a else s.tryGinst a

/-! ### The end of a task -/

/-- TDONE: the task ends unless a request reached the dispatcher first; the strand issues nothing further (18 R430, 02 R51). -/
def execTdone (s : State) : Out :=
  issue s [] Order.none fun s =>
    let s := s.modMe fun t => { t with stall := true }
    match s.here.task with
    | none => s
    | some n => match s.record s.cur.die n with
      | none => s
      | some r => if r.endReq == .none then s.modRecord s.cur.die n fun r => { r with endReq := .done } else s

/-- TFAIL: the task fails with the code unless its end or a freeze reached the dispatcher first (18 R433, 02 R51). -/
def execTfail (c : BitVec 8) (s : State) : Out :=
  issue s [] Order.none fun s =>
    let ended : Bool := match s.here.task.bind (s.record s.cur.die) with
      | some r => r.endReq != .none
      | none => true
    if ended then s.modMe fun t => { t with stall := true }
    else s.failAt s.cur.die s.cur.site s.cur.strand ⟨c.toNat, 0, 0⟩

/-! ### Status -/

/-- Whether a TSTAT selector must trap ILL (18 R438). -/
def tstatBad (v : Word) : Bool :=
  let k := bits v.toNat 62 2
  decide (1 < k) || bits v.toNat 36 26 != 0 || bits v.toNat 4 16 != 0 || (k == 0 && bits v.toNat 20 16 != 0) || (k == 1 && bits v.toNat 0 4 != 0)

/-- The instance status word: LIVE for a live instance that GINST created on this die for this partition, the kept status of a retired
one, otherwise UNKNOWN (18 R438). -/
def State.instStatusWord (s : State) (d : Nat) (part : BitVec 4) (inst : Nat) : Word :=
  let live := match tget s.insts inst with
    | some i => i.byDie == some d && i.part == part && i.reserved.isNone
    | none => false
  let (st, cause) := if live then (0, 0)
    else match (s.die d).instStatus.find? fun e => e.1 == inst && e.2.1 == part with
      | some e => (e.2.2.1, e.2.2.2)
      | none => (3, 0)
  BitVec.ofNat 64 (inst * 2 ^ 48 + cause * 2 ^ 8 + st)

/-- TSTAT (18 R438). DESIGN CHOICE (log 101): the snapshot is the one at its issue (01 R20). -/
def execTstat (d a : Reg) (s : State) : Out :=
  issue s [d, a] Order.none fun s =>
    let v := s.me.rd a
    if tstatBad v then s.illOperand (.tstat d a)
    else
      let w := if bits v.toNat 62 2 = 0 then
          (match s.here.task.bind (s.record s.cur.die) with
            | some r => r.word (bits v.toNat 0 4)
            | none => 0)
        else s.instStatusWord s.cur.die s.here.part (bits v.toNat 20 16)
      s.modMe fun t => (t.wr d w).next

end Sys2Proof.Machine
end

