-- ==== Sys2Proof/Machine/Staging.lean ====
section
/-! DEFINITION. Staging, the load of code and configuration, the start and the retirement of a task (02 R43, R44, R48, 03 R63, R71 to R73,
04 R95, 14 R299, R300). -/
namespace Sys2Proof.Machine

/-! ### Staging -/

/-- The tile whose copy engines carry a staging copy. -/
def Record.stageHost (r : Record) (b : Word) : Nat := ((r.operandSites b).head?).getD 0

/-- The copy of an operand descriptor (02 R35, 03 R63). -/
def stageDesc (a b : Word) : CopyDesc :=
  { descAddr := 0, saddr := bits a.toNat 0 57, daddr := bits b.toNat 22 21, sk := 0, dk := 0, sx := 0, sy := 0,
    dx := if flagOf b.toNat 55 then 0 else bits b.toNat 60 4, dy := if flagOf b.toNat 55 then 0 else bits b.toNat 56 4, all := flagOf b.toNat 55,
    sh := 0, dh := operandHandle b, dswz := BitVec.ofNat 5 (bits b.toNat 43 5), sswz := 0, rel := false, len := bits b.toNat 0 22, cb8 := false }

/-- Issues the staging copies of a task (03 R63). -/
def State.stage (s : State) (d n : Nat) (r : Record) : State :=
  s.over r.opds fun o s =>
    let (id, s) := s.fresh
    s.modTile d (r.stageHost o.2) fun t =>
      { t with jobs := t.jobs ++ [⟨id, stageDesc o.1 o.2, 0, 0, some n, false, 0, 0, false, false, [], false, none⟩] }

/-- STAGING_ACCEPTED: the copy engines take every staging command, or the restore begins; a reserved swizzle code faults ILL (02 R48, 03
R63, 06 R146). DESIGN CHOICE (log 56): EVAL of that fault is 0. -/
def execStagingAccepted (die rec : Nat) (s : State) : Out :=
  match s.record die rec with
  | none => .next s
  | some r =>
    if r.state != .placed then .next s
    else
      let go := s.setRecord die rec { r with state := .staging, peer := [] }
      if r.restore then .next go
      else if r.opds.any fun o => decide (128 < (s.tile die (r.stageHost o.2)).jobs.length + r.opds.length) then .next s
      else match r.opds.find? fun o => swizzleReserved (BitVec.ofNat 5 (bits o.2.toNat 43 5)) with
        | some _ => .next (go.failTask die rec ⟨1, 6, 0⟩ FaultAt.none)
        | none => .next (go.stage die rec r)

/-! ### Code and configuration -/

/-- Reads `n` pieces of 64 bytes from an address, translated and checked as a kernel image (10 R244, 14 R300). -/
def readPieces (s : State) (q : Requester) (a : Nat) : Nat → Io (List PByte)
  | 0 => .ok s []
  | n + 1 => match s.engineRead q .image 3 false a 64 with
    | .ok s b => match readPieces s q (a + 64) n with
      | .ok s r => .ok s (b ++ r)
      | .wait s => .wait s
      | .fault r => .fault r
    | .wait s => .wait s
    | .fault r => .fault r

/-- Reads a kernel image's header and sections: the header, the code bytes, the bytes of configuration image 0 if `cfg` asks for them
(02 R43, 03 R71). The header's faults end the read. -/
def readImage (s : State) (q : Requester) (kaddr : Nat) (cfg : Bool) : Io (ImageHeader × List PByte × List PByte) :=
  if kaddr % 64 ≠ 0 then .fault ⟨1, 6, BitVec.ofNat 64 kaddr⟩
  else match readPieces s q kaddr 1 with
    | .wait s => .wait s
    | .fault r => .fault r
    | .ok s b =>
      let h := imageHeader (b.map (·.1))
      if b.any (·.2) then .fault ⟨8, 3, BitVec.ofNat 64 (kaddr + b.findIdx (·.2))⟩
      else if h.bad then .fault ⟨1, 6, BitVec.ofNat 64 kaddr⟩
      else match readPieces s q (kaddr + h.codeOff) ((h.codeLen + 63) / 64) with
        | .wait s => .wait s
        | .fault r => .fault r
        | .ok s code =>
          let code := code.take h.codeLen
          if code.any (·.2) then .fault ⟨8, 3, BitVec.ofNat 64 (kaddr + h.codeOff + code.findIdx (·.2))⟩
          else if !cfg then .ok s (h, code, [])
          else match readPieces s q (kaddr + h.cfgOff) 832 with
            | .wait s => .wait s
            | .fault r => .fault r
            | .ok s image => .ok s (h, code, image)

/-- The words of a code section with their start bits: the word after an LI's first word is no start word (04 R95). -/
def codeWords (start : Bool) : List Byte → List IWord
  | a :: b :: c :: d :: rest =>
    let w := BitVec.ofNat 32 (fromBytes [a, b, c, d])
    ⟨w, start, false⟩ :: codeWords (!(start && bits w.toNat 25 7 == 0x22)) rest
  | _ => []

/-- Writes words of instruction memory from index `i` on. -/
def putWords (m : Tbl IWord) (i : Nat) : List IWord → Tbl IWord
  | [] => m
  | w :: rest => putWords (tput m i w) (i + 1) rest

/-- Loads a code section into a tile: at offset 0, or in the half that the predecessor's section does not occupy (02 R43, 03 R71). -/
def Tile.loadCode (t : Tile) (spliced : Bool) (code : List Byte) : Tile :=
  let ws := codeWords true code
  if spliced then { t with imem := putWords t.imem (if t.half then 0 else 16384) ws, codeLen2 := code.length }
  else { t with imem := putWords [] 0 ws, half := false, codeLen := code.length }

/-- Loads a configuration image into a tile's shadow plane (03 R71, 05 R129, R132). -/
def Tile.loadConfig (t : Tile) (site : Nat) (image : List PByte) : Tile :=
  let m := mputs [] 0 (image.map (·.1))
  let t := t.loadImage site (fun o n => mread m o n) fun o n => ((image.drop o).take n).any (·.2)
  { t with shadow := if t.pes.any fun e => e.2.loadCode != 0 then .failed else .loaded }

/-- Loads the code, and a spliced successor's configuration section, of a task in STAGING (02 R43, 03 R63, R71). DESIGN CHOICE (log 97): a GSPLICE
boundary of the predecessor that is not complete does not delay the load of the shadow plane. -/
def State.loadTask (s : State) (d n : Nat) (r : Record) : State :=
  if s.reading d n then s
  else match readImage s (Record.reader d n r.part r.gkey r.peer) r.kaddr r.pred.isSome with
    | .wait s => s
    | .fault c => s.failTask d n c FaultAt.none
    | .ok s (_, code, image) =>
      (s.over r.sites fun y s => s.modTile d y fun t =>
        let t := t.loadCode r.pred.isSome (code.map (·.1))
        if r.pred.isSome then t.loadConfig y image else t).modRecord d n fun r => { r with codeResident := true, peer := [] }

/-- Whether every staging copy of a task has filled its handle (03 R63). -/
def State.staged (s : State) (d n : Nat) (r : Record) : Bool :=
  r.sites.all fun y => (s.tile d y).jobs.all fun j => j.staging != some n

/-- TASK_RUNNABLE: the code is loaded if it is not resident; once it is and every staging handle is FULL, the task is RUNNABLE, and a
spliced successor whose predecessor has fired ENDK enters RUNNING (02 R48, 03 R63, R72). -/
def execTaskRunnable (die rec : Nat) (s : State) : Out :=
  match s.record die rec with
  | none => .next s
  | some r =>
    if r.state != .staging || r.restore then .next s
    else
      let s := if r.codeResident then s else s.loadTask die rec r
      match s.record die rec with
      | none => .next s
      | some r =>
        if r.state != .staging || !r.codeResident || !s.staged die rec r then .next s
        else
          let s := s.setRecord die rec { r with state := .runnable, frz := false }
          let ended := r.pred.isSome && r.sites.any fun y => (s.tile die y).pes.any fun e => e.2.ended
          .next (if ended then s.startSuccessor die rec else s)

/-! ### Start -/

/-- A tile whose task starts (02 R43). -/
def Tile.start (t : Tile) (site n : Nat) (r : Record) : Tile :=
  { t with strands := Vector.ofFn fun k => startStrand r n (t.relY site) (t.relX site) k.val, l1 := [], zsc := false, sat := false, rnd := 0 }

/-! ### Retirement -/

/-- Whether an access still has to be performed before its region retires: a write, other than one that waits at a memory tile (02 R44,
log 25). -/
def Access.holdsRetirement (a : Access) : Bool :=
  a.writes && (match a.kind with
    | .window _ => a.phase != .waiter && a.phase != .retry
    | _ => true)

/-- Whether a tile's copies, stream writes and island commands have all completed (02 R44, log 25). -/
def Tile.enginesDone (t : Tile) : Bool :=
  t.jobs.all (fun j => j.staging.isSome) && t.cmdq.all (fun c => decide (1 < c.kind))
    && t.templates.all (fun e => (t.queue e.1).isEmpty)
    && t.streams.all (fun e => !(!readKind e.2.kind && (e.2.state == .run || e.2.state == .parked) && (!e.2.port.isEmpty || e.2.packed != 0)))
    && t.island.dueCmd.isNone

/-- Whether a region's writes have all completed, and the remote-write entries that its die had when it began to retire have drained: the
retirement is a cumulative release (02 R44, 09 R225, R236). -/
def State.writesDone (s : State) (d : Nat) (r : Record) : Bool :=
  r.sites.all (fun y => (s.tile d y).enginesDone)
    && s.access.all (fun a => !(a.agent.place.1 == d && r.sites.contains a.agent.place.2 && a.holdsRetirement))
    && (s.die d).rwb.all fun e => decide (r.rwbMark.getD (s.die d).rwbSeq ≤ e.seq)

/-- Sends the decrements that a retiring task still owes; none under DRAIN after a failure (02 R31, R44). -/
def State.sendSuccessors (s : State) (d n : Nat) (r : Record) : State :=
  if r.noDecr then s else s.over (List.range r.nsucc) fun i s => s.sendDecrement d n i false

/-- TASK_RETIREMENT: a task that has ended retires once its region's writes have completed; a predecessor waits for its boundary and
hands its tiles over (02 R44, 03 R73, R74). A successor list that an error has struck aborts the instance (11 R262). -/
def execTaskRetirement (die rec : Nat) (s : State) : Out :=
  match s.record die rec with
  | none => .next s
  | some r =>
    let running := match r.succRec.bind (s.record die) with
      | some x => x.pred == some rec
      | none => false
    let taken := match r.succRec with
      | some q => s.boundaryDone die rec q
      | none => false
    if r.state != .running || r.pred.isSome || r.endReq != .done || (running && !taken) then .next s
    else if !s.writesDone die r then .next (s.setRecord die rec { r with rwbMark := some (r.rwbMark.getD (s.die die).rwbSeq) })
    else if r.succPsn && r.nsucc != 0 then .next (s.abortWith die rec ⟨8, 0, 0⟩)
    else
      let s := s.sendSuccessors die rec r
      let s := s.closePlace die rec 7 0
      let s := match r.succRec with
        | some q => if taken then s.handOver die rec q else s.vacateRegion die r.sites
        | none => s.vacateRegion die r.sites
      let s := s.modRecord die rec fun r => { r with state := .done, endReq := .none, codeResident := false }
      .next (s.retireInstance r.inst)

end Sys2Proof.Machine
end

