-- ==== Sys2Proof/Machine/Freeze.lean ====
section
/-! DEFINITION. Withdrawal, freeze and restore of a task (02 R50, R51, 03 R69, R74, 05 R133, R141, 06 R164, 11 R264 to R267). -/
namespace Sys2Proof.Machine

/-! ### Withdrawal -/

/-- Withdraws a task that has not started: its staging is cancelled, a spliced successor leaves its predecessor's region, and the task is
READY again at the head of its queue (02 R50, 03 R74). -/
def State.withdraw (s : State) (d n : Nat) : State :=
  match s.record d n with
  | none => s
  | some r =>
    let s := (s.closePlace d n 1 0).dropReads d n
    let s := if r.pred.isSome then s.dropSpliced d n r else s.vacateRegion d r.sites
    (s.modRecord d n fun r => { r with state := .ready, codeResident := false, pred := none, endReq := .none }).joinQueue d n true

/-! ### The request -/

/-- The tasks that freeze with a task: its splice partner, and the producers and consumers of its forward groups (03 R69, R74). -/
def State.linked (s : State) (d n : Nat) : List Nat :=
  match s.record d n with
  | none => []
  | some r =>
    let holds := fun (k : Nat) => match s.record d k with
      | some x => x.state.holdsRegion
      | none => false
    let succ := r.succRec.toList.filter fun q => match s.record d q with
      | some x => x.pred == some n
      | none => false
    let producers := ((s.die d).records.filter fun e => e.2.bound == some n).map (·.1)
    (r.bound.toList ++ r.pred.toList ++ succ ++ producers).filter holds

/-- The closure of a set of tasks under `linked`. -/
def State.freezeGroup (s : State) (d : Nat) : Nat → List Nat → List Nat
  | 0, l => l
  | k + 1, l => s.freezeGroup d k (l ++ l.flatMap (s.linked d)).eraseDups

/-- Whether a task of the group keeps an image: it runs, or it is being restored (11 R264, R267). -/
def Record.freezes (r : Record) : Bool := r.state == .running || (r.state.holdsRegion && r.restore)

/-- Whether a partition's pool holds slots for those tasks of a list that keep an image; the slots of a restore in progress will be
free by then (11 R264, R267). -/
def State.roomFor (s : State) (tasks : List (Nat × Nat)) (part : BitVec 4) : Bool :=
  let mine := (tasks.filterMap fun t => s.record t.1 t.2).filter fun r => r.part == part && r.freezes
  let need := (mine.map Record.area).sum
  let free := (s.freezePool.filter fun f => f.part == part && !f.used).length
  decide (need ≤ free + (mine.map fun r => (r.image.filterMap (·.slot)).length).sum)

/-- Whether every partition's pool holds the slots that a list of tasks needs. -/
def State.freezeRoom (s : State) (tasks : List (Nat × Nat)) : Bool :=
  (List.range 16).all fun p => s.roomFor tasks (BitVec.ofNat 4 p)

/-- Starts the freeze of one task of a group: a RUNNING one stops, a restore goes on first, a task that has not started is withdrawn
(02 R50, R51, 11 R264, R267). -/
def State.beginFreeze (s : State) (d n : Nat) : State :=
  match s.record d n with
  | none => s
  | some r =>
    if r.freezes then (if r.endReq == .none then s.setRecord d n { r with endReq := .freeze } else s)
    else if r.state.holdsRegion then s.withdraw d n
    else s

/-- Requests the freeze of a task and of what freezes with it: the status of a refusal or of a freeze that ends at once, or none while
the freeze goes on (12 R273, 11 R264, R267). -/
def State.requestFreeze (s : State) (d n : Nat) : State × Option Nat :=
  match s.record d n with
  | none => (s, some 6)
  | some r =>
    let group := s.freezeGroup d 144 [n]
    let ended := fun (k : Nat) => match s.record d k with
      | some x => x.endReq == .done
      | none => false
    let splice := r.pred.toList.any ended
    if r.reserved then (s, some 6)
    else if r.state.final || r.endReq == .done || splice then (s, some 2)
    else if !r.state.holdsRegion then (s, some 0)
    else if !s.freezeRoom (group.map fun k => (d, k)) then (s, some 3)
    else
      let s := s.over group fun k s => s.beginFreeze d k
      (s, if r.freezes then none else some 0)

/-! ### The image -/

/-- Whether an access waits for something that may never come: a page, another operation at its memory tile, the serialising token (04
R94, 03 R80, 09 R234, 10 R250). -/
def State.stuck (s : State) (a : Access) : Bool :=
  a.phase == .page || a.phase == .waiter || a.phase == .held || a.phase == .retry || (a.txn != 0 && s.inSerial a.agent.dieNo a.txn)

/-- Whether a freeze takes an access out of flight and the restored strand or PE issues it again: it is stuck, or it has not been sent
and waits for an older one that is (04 R94, 10 R250, R251). -/
def State.savable (s : State) (a : Access) : Bool :=
  s.stuck a || ((!a.sent && a.phase != .drained && a.phase != .scratch && (a.kind == .fence || !s.mayPerform a) || a.isSignal || a.isGinst)
    && s.access.any fun b => b.agent == a.agent && decide (b.id < a.id) && s.stuck b)

/-- Whether an access of a region lets the image be saved: a strand's or PE's that may be saved; an engine's that is not performed yet, at its
walk or held at its memory tile (05 R133, 06 R164). -/
def State.accessSettled (s : State) (a : Access) : Bool :=
  match a.agent with
  | .strand _ _ _ | .pe _ _ _ _ => s.savable a
  | .stream _ _ _ | .copy _ _ _ => a.phase == .walk || a.phase == .page || a.phase == .held
  | .dispatcher _ _ | .tile _ | .routed _ _ _ => true

/-- Whether a stream engine stands at a word boundary, or at an element that cannot be transferred now (06 R164). -/
def Tile.streamRests (t : Tile) (e : Nat) (x : Stream) : Bool :=
  x.state != .run || !x.midWord || (x.packed == 0 && x.wait && !x.peer.any (·.write)) || (x.kind == 1 && x.hu && (t.handle x.hnd).startWrite e x.hnd x.esz x.swz != .go)
    || (x.kind == 7 && t.fwdIn.isEmpty)

/-- Whether a copy stands between units: no write of the unit that it has begun is performed and not counted yet, unless the rest of the unit
waits (06 R164). -/
def Job.rests (j : Job) : Bool := j.wait || !j.peer.any (·.write)

/-- Whether a tile has come to rest: no word on a route, no result to deliver, no configuration to complete, no island command but an MXLDB or
MXROT, every stream engine at a word boundary, every copy between units (05 R133, R141, 06 R164, 11 R267, 17 R387). -/
def Tile.atRest (t : Tile) : Bool :=
  t.routes.isEmpty && t.streams.all (fun e => t.streamRests e.1 e.2) && t.jobs.all Job.rests
    && t.pes.all (fun e => e.2.delayed.all fun r => r.kind != 0) && t.gridCmds.all (fun c => decide (1 < c.kind))
    && t.island.cmds.all fun c => c.kind == 1 || c.kind == 2

/-- Whether a region has come to rest, so that its image may be saved (04 R94, R108, 05 R133). -/
def State.regionAtRest (s : State) (d : Nat) (sites : List Nat) : Bool :=
  let mine := fun (p : Nat × Nat) => p.1 == d && sites.contains p.2
  sites.all (fun y => (s.tile d y).atRest) && s.access.all (fun a => !mine a.agent.place || s.accessSettled a)
    && s.reports.all (fun r => !mine r.1.place) && s.messages.all fun m => !mine (m.die, m.site)

/-- The bytes of a freeze slot (11 R264). -/
def slotBytes : Nat := 3328 * 1024
/-- The lines of a freeze slot at a local address: 3,328 KiB (11 R264). -/
def slotLines (pa : Nat) : List Nat := (List.range 26624).map (pa / 128 + ·)
/-- A line as its latest writer left it: in the die cache that holds its owner token, else at its home. -/
def State.latestLine (s : State) (line : Nat) : LineData :=
  match (List.range 8).find? fun d => (s.cacheLine d line).own with
  | some d => (s.cacheLine d line).dataOf
  | none => s.homeData line
/-- A line of a slot as its partition reads it under the slot's key (11 R264, R266). -/
def State.slotLine (s : State) (x : FreezeSlot) (line : Nat) : Nat :=
  lineRead (s.latestLine line) line x.part ((s.keyOf x.part x.kidx).getD 0) 0 128
/-- A freeze slot of the pool. -/
def State.slotOf (s : State) (pa : Nat) : Option FreezeSlot := s.freezePool.find? fun x => x.pa == pa

/-- Whether a die's own cache and the home have what an access of its dispatcher to a line of a slot needs between them: all 16 tokens for a write,
the latest bytes for a read (08 R196, R202). -/
def State.inReach (s : State) (d : Nat) (write : Bool) (line : Nat) : Bool :=
  let h := s.home line
  let c := s.cacheLine d line
  if write then h.tok + c.tok == 16 && !s.homeHolds line && (s.activeEntry line).all fun e => e.slot == d else h.own || c.serves false
/-- The dispatcher asks for the lines of slots that are out of its reach as any agent of its die does, through the die cache (08 R196, R203). -/
def State.fetchLines (s : State) (d : Nat) (write : Bool) (part : BitVec 4) (slots : List Nat) : State :=
  s.over ((slots.flatMap slotLines).filter fun l => !s.inReach d write l) fun l s => s.openMiss d l write part true
/-- Whether every line of some slots is in reach. -/
def State.slotsInReach (s : State) (d : Nat) (write : Bool) (slots : List Nat) : Bool :=
  slots.all fun pa => (slotLines pa).all fun l => s.inReach d write l

/-- Writes a line of a slot in the die's cache, which gathers the home's tokens (08 R196). R264 gives the image's bytes no layout, so they are free
values (log 35). -/
def State.writeSlotLine (s : State) (d : Nat) (x : FreezeSlot) (line : Nat) : State :=
  let s := s.makeRoom d line
  let s := (s.setHome line { s.home line with tok := 0, own := false }).setCacheLine d line
    ⟨16, true, true, true, false, x.part, (s.keyOf x.part x.kidx).getD 0, BitVec.ofNat 1024 (Config.choice s.freeCtr)⟩
  State.settleMiss { s with freeCtr := s.freeCtr + 1 } d line
/-- Writes an image into a slot under the slot's key, through the die's cache (11 R264, 08 R196). -/
def State.writeSlot (s : State) (d : Nat) (x : FreezeSlot) : State := s.over (slotLines x.pa) fun line s => s.writeSlotLine d x line

/-- The tile as its image holds it: the L1 and the capability slots are dropped, engines wait for nothing and keep the answers of the unit that
they have begun (06 R164, 10 R249, 11 R265). -/
def Tile.imageOf (t : Tile) : Tile :=
  { t with
    l1 := [], caps := [], capNext := 0, utlb := Vector.replicate 4 []
    streams := t.streams.map fun e => (e.1, { e.2 with wait := false })
    jobs := t.jobs.map fun j => { j with wait := false } }

/-- The first `n` free slots of a partition's pool (11 R264). -/
def State.freeSlots (s : State) (part : BitVec 4) (n : Nat) : List Nat :=
  ((s.freezePool.filter fun f => f.part == part && !f.used).map (·.pa)).take n

/-- Writes a task's image: a slot for each tile, with the lines that its tag covers; the spliced successor's own slots hold nothing beyond
its predecessor's (11 R264, R266, 03 R74). -/
def State.saveImage (s : State) (d n : Nat) (r : Record) (tiles : Bool) : State :=
  let slots := s.freeSlots r.part r.area
  let before := s
  let s := s.over (slots.filterMap before.slotOf) fun x s => s.writeSlot d x
  let save := fun (i y : Nat) =>
    let pa := (lget slots i).getD 0
    let mine := before.access.filter fun a => a.agent.place == (d, y) && (match a.agent with
      | .strand _ _ _ | .pe _ _ _ _ => true
      | .stream _ _ _ | .copy _ _ _ | .dispatcher _ _ | .tile _ | .routed _ _ _ => false)
    let held := match s.slotOf pa with
      | some x => (slotLines pa).map (s.slotLine x)
      | none => []
    (⟨y, if tiles then (s.tile d y).imageOf else Tile.init, some pa, if tiles then mine else [], held⟩ : Image)
  let image := r.sites.mapIdx save
  let pool := s.freezePool.map fun f => if slots.contains f.pa then { f with used := true } else f
  { s.setRecord d n { r with image := image, frz := true, state := .frozen, endReq := .none, codeResident := false } with freezePool := pool }

/-- The freeze of a task that has come to rest (11 R264): its image and that of a successor that freezes in mid-splice with it; both join the
heads of their queues (02 R48). -/
def State.freeze (s : State) (d n : Nat) (r : Record) (succ : Option (Nat × Record)) : State :=
  let s := s.saveImage d n r true
  let s := match succ with
    | some (q, x) => ((s.saveImage d q x false).closePlace d q 6 0).joinQueue d q true
    | none => s
  let s := s.forget fun a => a.agent.place.1 == d && r.sites.contains a.agent.place.2
  ((s.vacateRegion d r.sites).closePlace d n 6 0).joinQueue d n true

/-- The account of a partition whose task was frozen or restored: its next record carries FRZ (13 R288). -/
def State.markFrozen (s : State) (part : BitVec 4) : State :=
  s.modPlinth fun p => { p with accounts := p.accounts.mapIdx fun i a => if i = part.toNat then { a with frz := true } else a }

/-- FREEZE_SAVE_COMPLETE: a task whose freeze was asked for has come to rest; once its die has the tokens of the slots' lines, its image is saved
and it is FROZEN. A pool that has lost its slots meanwhile refuses the freeze (11 R264, R267, 08 R196, log 35). -/
def execFreezeSaveComplete (die rec : Nat) (s : State) : Out :=
  match s.record die rec with
  | none => .next s
  | some r =>
    let succ : Option (Nat × Record) := (r.succRec.bind fun q => (s.record die q).map fun x => (q, x)).filter fun e => e.2.pred == some rec
    let both : Bool := match succ with
      | some (_, x) => x.state == .running && x.endReq == .freeze
      | none => true
    let tasks := (die, rec) :: (succ.map fun e => (die, e.1)).toList
    let slots := s.freeSlots r.part (r.area * tasks.length)
    if r.state != .running || r.endReq != .freeze || r.pred.isSome || !both || !s.regionAtRest die r.sites then .next s
    else if s.freezeRoom tasks && !s.slotsInReach die true slots then .next (s.fetchLines die true r.part slots)
    else
      let finish := fun (s : State) (st : Nat) => s.over tasks fun t s => s.answerFreeze t.1 t.2 st
      if !s.freezeRoom tasks then
        .next (finish (s.over tasks fun t s => s.modRecord t.1 t.2 fun x => { x with endReq := .none }) 3)
      else .next (finish ((s.freeze die rec r succ).markFrozen r.part) 0)

/-! ### The restore -/

/-- Moves the tile numbers that a saved tile holds to the region it is restored to (11 R265, 02 R39). -/
def Tile.moved (t : Tile) (mv : Nat → Nat) : Tile :=
  let src := fun (x : Source) => match x with
    | .route y pe q => Source.route (mv y) pe q
    | .dport => .dport
    | .none => .none
  let words := fun (l : List Queued) => l.map fun w => { w with src := src w.src }
  { t with
    inbuf := t.inbuf.map fun m => { m with site := mv m.site, srcSite := mv m.srcSite }
    requests := t.requests.map fun e => (mv e.1, e.2)
    pes := t.pes.map fun e => (e.1, { e.2 with inq := e.2.inq.map words })
    ports := t.ports.map fun e => (e.1, words e.2)
    streams := t.streams.map fun e => (e.1, { e.2 with port := words e.2.port, state := if e.2.state == .parked then .run else e.2.state })
    queues := t.queues.map fun e => (e.1, e.2.map fun k => { k with src := src k.src })
    island := { t.island with lanes := t.island.lanes.map words }
    gridCmds := t.gridCmds.map fun c => { c with sites := c.sites.map mv } }

/-- A saved tile at its new site: RGNB, the generations and the task are the new region's (11 R265). -/
def Tile.restored (t now : Tile) (mv : Nat → Nat) : Tile :=
  { t.moved mv with
    rgnb := now.rgnb, gen := now.gen, gen2 := now.gen2, part := now.part, gkey := now.gkey, task := now.task, succ := now.succ,
    utlb := now.utlb, cycle := now.cycle }

/-- An access of the saved region as the restored one issues it again. -/
def Access.moved (a : Access) (mv : Nat → Nat) (old : Nat) (now : Tile) : Access :=
  { a with
    gen := if a.gen = old then now.gen else now.gen2.getD now.gen
    agent := (match a.agent with
      | .strand d y n => .strand d (mv y) n
      | .pe d y pe i => .pe d (mv y) pe i
      | g => g) }

/-- Issues a saved access again: a window access meets the checks of R328 once more (03 R80, 10 R251, 15 R334, 16 R356). -/
def State.reissue (s : State) (a : Access) : State :=
  let signal := a.isSignal || a.isGinst
  let a := { a with
    id := s.nextId, sent := false, mark := (s.die a.agent.dieNo).rwbSeq, kidx := 0, cacheable := false, txn := 0, ringTxn := 0, port := 0,
    va := if signal then a.pa else a.va, pa := if signal then a.pa else 0,
    phase := if signal then .drained else if a.kind == .fence && a.ord == .sc then .serial else .translate }
  let s := { s with nextId := s.nextId + 1, access := s.access ++ [a] }
  if signal then s
  else if a.kind == .fence then s.settleStrand a.agent
  else if a.kind == .xlt then s.startXlt a
  else if inWindow a.va then
    match s.windowFault a.part a.va with
    | some r => s.faultAccess a r
    | none => s.enter a .window
  else s.translate a

/-- Whether a slot no longer holds the lines of an image. -/
def State.changed (s : State) (x : Image) : Bool :=
  match x.slot.bind s.slotOf with
  | some f => ((slotLines f.pa).zip x.held).any fun l => s.slotLine f l.1 != l.2
  | none => false
/-- The first tile, region-relative, whose slot no longer holds what was saved: its tag differs (11 R266). -/
def State.badTile (s : State) (r : Record) : Option Nat :=
  (List.range r.image.length).find? fun i => ((lget r.image i).map s.changed).getD false

/-- Applies a change to element `k` of a list. -/
def lmap {α : Type} (f : α → α) (k : Nat) (l : List α) : List α := l.mapIdx fun i x => if i = k then f x else x
/-- A 16-byte word whose halves are both poisoned: an error strikes a word that moves whole (11 R260). -/
def GWord.strike (w : GWord) : GWord := { w with psn := 3 }
/-- Poisons a word that stands in a queue. -/
def Queued.strike (w : Queued) : Queued := { w with word := w.word.strike }

/-- How many 128-byte lines of a saved tile hold each kind of data that carries poison: the scratchpad, the registers of a PE, its input and its output
queues, the port, the partial word, the undelivered words and the delay line of a stream engine, a named queue, an island lane, the words and the
half row that the island has taken, the latches, an accumulator row, the inbound buffer, a receive buffer, the forward entry port, the code. R264
gives the image no layout: this order is the model's (log 35). -/
def imageParts : List Nat := [16384, 128, 512, 512, 8, 8, 8, 4096, 64, 9, 1, 2, 512, 1, 64, 1, 4096]
/-- The kind and the place within it of a line of a saved tile; past the last kind, a strand, handle or plane word. -/
def imagePart : List Nat → Nat → Nat × Nat
  | [], k => (0, k)
  | n :: l, k => if k < n then (0, k) else
    let x := imagePart l (k - n)
    (x.1 + 1, x.2)

/-- The poisoned lines of a task's freeze slots: the tile's index in the region, and the line of its image, a free value (11 R265, log 35). -/
def State.poisonedParts (s : State) (r : Record) : List (Nat × Nat) × State :=
  let lines := (List.range r.image.length).flatMap fun i => match (lget r.image i).bind fun x => x.slot.bind s.slotOf with
    | some f => ((slotLines f.pa).filter fun l => (s.latestLine l).psn).map fun _ => i
    | none => []
  lines.foldl (fun x i => let (k, s) := x.2.pick (imageParts.sum + 1); (x.1 ++ [(i, k)], s)) ([], s)
/-- Poison in a line of a restored tile (11 R265). -/
def Tile.poisonPart (t : Tile) (k : Nat) : Tile :=
  let (kind, i) := imagePart imageParts k
  let stream := fun (e : Nat) (f : Stream → Stream) => t.setStream e (f (t.stream e))
  let island := fun (f : Island → Island) => { t with island := f t.island }
  match kind with
  | 0 => { t with spadPsn := (List.range 16).foldl (fun l j => sput l (16 * i + j)) t.spadPsn }
  | 1 => t.modPe i fun p => { p with dPsn := Vector.replicate 8 3 }
  | 2 => t.modPe (i / 4) fun p => { p with inq := vset p.inq (i % 4) ((vget p.inq (i % 4)).map Queued.strike) }
  | 3 => t.modPe (i / 4) fun p =>
      { p with outq := vset p.outq (i % 4) ((vget p.outq (i % 4)).map fun x => { x with word := x.word.map GWord.strike }) }
  | 4 => stream i fun x => { x with port := x.port.map Queued.strike }
  | 5 => stream i fun x => { x with packPsn := 3 }
  | 6 => stream i fun x => { x with out := x.out.map fun o => { o with word := o.word.strike } }
  | 7 => stream (i / 512) fun x =>
      { x with delayPsn := (List.range (128 / x.esz)).foldl (fun l j => sput l (128 * (i % 512) + j * x.esz)) x.delayPsn }
  | 8 => t.setQueue i ((t.queue i).map fun w => { w with psn := true })
  | 9 => island fun x => { x with lanes := vset x.lanes i ((vget x.lanes i).map Queued.strike) }
  | 10 => island fun x => { x with engineWords := x.engineWords.map GWord.strike, half := x.half.map fun l => l.map GWord.strike }
  | 11 => island fun x => if i = 0 then { x with front := { x.front with psn := true } } else { x with back := { x.back with psn := true } }
  | 12 => island fun x => { x with accPsn := sput x.accPsn i }
  | 13 => { t with inbuf := t.inbuf.map fun m => { m with psn := true } }
  | 14 => t.setPort i ((t.port i).map Queued.strike)
  | 15 => { t with fwdIn := t.fwdIn.map GWord.strike }
  | 16 => { t with imem := t.imem.map fun e => if e.1 / 32 = i then (e.1, { e.2 with psn := true }) else e }
  | _ => t
/-- Whether a saved tile holds a poisoned strand, handle or plane word: a channel register, a handle, a constant, or a word of the shadow (11 R260,
R263, R265). -/
def Tile.poisonedState (t : Tile) : Bool :=
  t.strands.toList.any (fun x => x.k.toList.any (·.psn)) || t.handles.any (fun e => e.2.psn)
    || t.pes.any fun e => e.2.planeA.constPsn != 0 || e.2.planeB.constPsn != 0 || e.2.loadCode == 0x100

/-- Writes a task's image back, with the poison that its slots' lines bring (11 R265). The operations that wait move with their tiles and stay
with the record until the task resumes. -/
def State.writeBack (s : State) (d n : Nat) (r : Record) (parts : List (Nat × Nat)) : State :=
  let old := r.image.map (·.site)
  let mv := fun (y : Nat) => (lget r.sites (old.findIdx (· == y))).getD y
  let s := s.over (List.range r.image.length) fun i s => match lget r.image i, lget r.sites i with
    | some x, some y => s.modTile d y fun now =>
        (parts.filter fun p => p.1 == i).foldl (fun t p => t.poisonPart p.2) (x.tile.restored now mv)
    | _, _ => s
  let image := r.image.map fun x =>
    let now := s.tile d (mv x.site)
    (⟨mv x.site, Tile.init, none, x.waits.map fun a => a.moved mv x.tile.gen now, []⟩ : Image)
  (s.freeImage d n).modRecord d n fun r => { r with image := image, restore := true, state := .runnable, codeResident := true }

/-- A restore fails at tile `i` of a region, in row-major order: POISON, with the tile's place (11 R255, R256, R265, R266). -/
def State.failRestore (s : State) (d n : Nat) (r : Record) (i : Nat) : State :=
  s.failTask d n ⟨8, 5, BitVec.ofNat 64 (i / r.w * 16 + i % r.w)⟩ ⟨0, i % r.w, i / r.w, 0⟩
/-- The first tile of an image that holds a poisoned strand, handle or plane word, saved so or struck in its slot since (11 R265). -/
def Record.poisonedTile (r : Record) (parts : List (Nat × Nat)) : Option Nat :=
  (List.range r.image.length).find? fun i => parts.any (fun p => p.1 == i && decide (imageParts.sum ≤ p.2))
    || ((lget r.image i).map fun x => x.tile.poisonedState).getD false

/-- The restore of one task's image: its tags are checked, poison is judged, and it is written back (11 R265, R266). -/
def State.restoreOne (s : State) (d n : Nat) (r : Record) : State :=
  match s.badTile r with
  | some i => s.failRestore d n r i
  | none =>
    let (parts, s) := s.poisonedParts r
    match r.poisonedTile parts with
    | some i => s.failRestore d n r i
    | none => (s.writeBack d n r parts).markFrozen r.part

/-- RESTORE_COMPLETE: once the dispatcher has the lines of the slots in reach, a restored image is checked and written back; the task is RUNNABLE,
and with it a successor that froze in mid-splice and is STAGING too (02 R48, 08 R196, 11 R265, R266). -/
def execRestoreComplete (die rec : Nat) (s : State) : Out :=
  match s.record die rec with
  | none => .next s
  | some r =>
    let slots := r.image.filterMap (·.slot)
    if r.state != .staging || !r.restore || r.pred.isSome then .next s
    else if !s.slotsInReach die false slots then .next (s.fetchLines die false r.part slots)
    else match (r.succRec.bind fun q => (s.record die q).map fun x => (q, x)).filter fun e => e.2.pred == some rec && e.2.restore with
      | none => .next (s.restoreOne die rec r)
      | some (q, x) =>
        if x.state != .staging then .next s
        else match s.badTile x with
          | some i => .next (s.failRestore die q x i)
          | none =>
            let s := s.restoreOne die rec r
            if (s.record die rec).any fun y => y.state == .runnable then
              .next ((s.freeImage die q).modRecord die q fun x => { x with state := .runnable, restore := true, codeResident := true })
            else .next s

/-! ### Resumption -/

/-- Puts an access into a list in the order of identifiers. -/
def insertAccess (a : Access) : List Access → List Access
  | [] => [a]
  | b :: t => if a.id ≤ b.id then a :: b :: t else b :: insertAccess a t

/-- A restored task resumes: its saved operations issue again in the order in which they first issued (11 R265, 03 R80). -/
def State.resume (s : State) (d n : Nat) : State :=
  match s.record d n with
  | none => s
  | some r =>
    let waits := r.image.flatMap (·.waits)
    let order := waits.foldr insertAccess []
    let s := s.setRecord d n { r with state := .running, restore := false, image := [] }
    let s := s.over order fun a s => s.reissue a
    match r.succRec.bind fun q => (s.record d q).map fun x => (q, x) with
    | some (q, x) => if x.pred == some n && x.restore then s.setRecord d q { x with state := .running, restore := false } else s
    | none => s

/-- TASK_START: a RUNNABLE task that is no spliced successor starts, or resumes from its image (02 R43, R48, 11 R265). -/
def execTaskStart (die rec : Nat) (s : State) : Out :=
  match s.record die rec with
  | none => .next s
  | some r =>
    if r.state != .runnable || r.pred.isSome then .next s
    else if r.restore then .next (s.resume die rec)
    else .next ((s.setRecord die rec { r with state := .running, endReq := .none }).over r.sites fun y s =>
      s.modTile die y fun t => t.start y rec r)

end Sys2Proof.Machine
end

