-- ==== Sys2Proof/Machine/Commands.lean ====
section
/-! DEFINITION. The command window: acceptance, order and completion of host commands, and the commands that read logs and inventory, load
maquettes, make and end instances, freeze tasks and answer page requests (12 R271 to R273). -/
namespace Sys2Proof.Machine

/-! ### Acceptance -/

/-- How the performance of a command ends: with a status and two results, or in progress. -/
inductive CmdEnd where
  | done (s : State) (status : Nat) (r0 r1 : Word)
  | wait (s : State)

/-- A command that completes OK. -/
def CmdEnd.ok (s : State) : CmdEnd := .done s 0 0 0
/-- A command that completes MALFORMED, with no effect (12 R273). -/
def CmdEnd.malformed (s : State) : CmdEnd := .done s 1 0 0
/-- A command that completes OK if its arguments keep its rule, and MALFORMED otherwise (12 R273). -/
def CmdEnd.when (ok : Bool) (s : State) (go : State → CmdEnd) : CmdEnd := if ok then go s else .malformed s

/-- Whether the Plinth may perform a command: it has booted, the port is up, and the completion ring has a free entry that no earlier
completion waits for (12 R270, R272). -/
def Plinth.mayPerform (p : Plinth) : Bool := p.booted && p.mayPost && p.cplQueue.isEmpty

/-- The SEQ that follows (12 R272). -/
def nextSeq (n : Nat) : Nat := if n = 0xFFFFFFFF then 1 else n + 1
/-- Whether a SEQ has been accepted before (12 R272). -/
def Plinth.accepted (p : Plinth) (n : Nat) : Bool := n != 0 && (p.seqWrapped || decide (n < p.expectSeq))
/-- Whether an accepted command has not completed (12 R272). -/
def Plinth.unfinished (p : Plinth) (n : Nat) : Bool :=
  (match p.progress with
    | some g => g.seq == n
    | none => false) || p.queue.any fun e => e.2.seq.toNat == n

/-- Performs an accepted command: a reserved bit gives MALFORMED (12 R271, R273). -/
def State.performCommand (s : State) (opc : Nat) (c : Cmd) (go : State → CmdEnd) : State :=
  if c.reserved ≠ 0 then s.complete opc c.seq.toNat 1 0 0
  else match go s with
    | .done s st r0 r1 => s.complete opc c.seq.toNat st r0 r1
    | .wait s => s

/-- A command that the Plinth reads from the command ring (12 R272): the expected SEQ is accepted and performed, or waits in order behind
a command in progress unless it is performed on arrival; a replay is answered with the original's status; any other SEQ is MALFORMED. -/
def State.arriveCommand (s : State) (opc : Nat) (now : Bool) (c : Cmd) (go : State → CmdEnd) : State :=
  let n := c.seq.toNat
  let s := s.modPlinth fun p => { p with cmdHead := p.cmdHead + 1, lastTs := c.ts }
  let p := s.plinth
  if n = p.expectSeq then
    let s := s.modPlinth fun p => { p with expectSeq := nextSeq n, seqWrapped := p.seqWrapped || n == 0xFFFFFFFF }
    if now || (p.progress.isNone && p.queue.isEmpty) then s.performCommand opc c go
    else s.modPlinth fun p => { p with queue := p.queue ++ [(opc, c)] }
  else if p.accepted n then
    if p.unfinished n then s.modPlinth fun p => { p with replays := p.replays ++ [n] }
    else match p.statuses.find? fun e => e.seq == n with
      | some e => s.postCompletions (p.cplQueue ++ [{ e with opc := opc }])
      | none => s.postCompletions (p.cplQueue ++ [⟨opc, 1, n, 0, 0⟩])
  else s.postCompletions (p.cplQueue ++ [⟨opc, 1, n, 0, 0⟩])

/-- A host command: the oldest one that waits in order, or the next of the command ring. `now` holds for the four commands that are
performed on arrival. While the Plinth may not perform a command nothing changes (12 R270 to R272). -/
def command (opc : Nat) (now : Bool) (c : Cmd) (s : State) (go : State → CmdEnd) : Out :=
  if !s.plinth.mayPerform then .next s
  else if s.plinth.progress.isNone && s.plinth.queue.head? == some (opc, c) then
    .next ((s.modPlinth fun p => { p with queue := p.queue.tail }).performCommand opc c go)
  else .next (s.arriveCommand opc now c go)

/-- Puts a command in progress (12 R272). -/
def State.progressOn (s : State) (opc : Nat) (c : Cmd) (die rec : Nat) : State :=
  s.modPlinth fun p => { p with progress := some ⟨c.seq.toNat, opc, die, rec⟩ }

/-- Bytes of host memory, read through the Golfy port. -/
def State.hostBytes (s : State) (a : Word) (n : Nat) : List Byte := mbytes s.hostMem a.toNat n
/-- Writes bytes of host memory. -/
def State.hostPut (s : State) (a : Word) (bs : List Byte) : State := { s with hostMem := mputs s.hostMem a.toNat bs }

/-- DOORBELL: the control node writes the command ring's tail index (12 R271). -/
def execDoorbell (tail : Nat) (s : State) : Out :=
  .next (if s.plinth.booted && s.plinth.golfyUp then s.modPlinth fun p => { p with cmdTail := tail } else s)
/-- COMPLETION_HEAD: the control node frees completion entries; completions that wait are written (12 R272). -/
def execCompletionHead (head : Nat) (s : State) : Out :=
  .next (if s.plinth.booted && s.plinth.golfyUp then
    (s.modPlinth fun p => { p with cplHead := head }).postCompletions s.plinth.cplQueue else s)

/-! ### NOP, reserved opcodes, inventory -/

/-- NOP of the command window (12 R273). -/
def execHostNop (c : Cmd) (s : State) : Out := command 1 false c s fun s => .ok s
/-- A command of a reserved opcode (12 R273, 13 R283). -/
def execReservedCommand (opc : BitVec 8) (c : Cmd) (s : State) : Out := command opc.toNat false c s fun s => .malformed s
/-- RDINV (12 R273, 01 R23). -/
def execRdinv (c : Cmd) (s : State) : Out :=
  command 2 true c s fun s => .when (decide (c.arg0.toNat ≤ 16)) s fun s =>
    .done s 0 ((lget s.plinth.inventory c.arg0.toNat).getD 0) 0

/-! ### Logs -/

/-- A placement log entry's bytes (03 R62); one that an error has struck reads as all ones (11 R262). -/
def PlaceEntry.bytes (e : PlaceEntry) : List Byte :=
  if e.bad then List.replicate 32 0xFF
  else toBytes (e.gen * 2 ^ 16 + e.inst) 8
    ++ toBytes (e.recNo * 2 ^ 34 + e.bx * 2 ^ 30 + e.by_ * 2 ^ 26 + e.w * 2 ^ 22 + e.h * 2 ^ 18 + e.prio * 2 ^ 15 + e.part.toNat * 2 ^ 11
        + e.kind * 2 ^ 9) 8
    ++ toBytes e.seq 8 ++ toBytes (e.endState * 2 ^ 8 + e.cause) 8
/-- A fault record's bytes (11 R256); one that an error has struck reads as all ones (11 R262). -/
def FaultRecord.bytes (e : FaultRecord) : List Byte :=
  if e.bad then List.replicate 48 0xFF
  else toBytes e.pseq 8 ++ toBytes (e.gen * 2 ^ 16 + e.cause * 2 ^ 8 + e.detail) 8 ++ toBytes e.eval.toNat 8 ++ toBytes e.wid.toNat 8
    ++ toBytes (e.tx * 2 ^ 12 + e.ty * 2 ^ 8 + e.strand * 2 ^ 6) 8 ++ toBytes e.fseq 8

/-- The entries of a log of a node with their sequence numbers, oldest first; those of the malformed-packet log are numbered from 1 by
the node's drop counter (11 R259, log 26). -/
def State.logEntries (s : State) (node log : Nat) : List (Nat × List Byte) :=
  if log = 0 then ((s.die node).places.map fun e => (e.seq, e.bytes)).reverse
  else if log = 1 then ((s.die node).faults.map fun e => (e.fseq, e.bytes)).reverse
  else
    let mine := s.plinth.malLog.filter fun e => e.1 == node
    let top := tgetD s.plinth.malCount node 0
    (mine.mapIdx fun i e => (top - i, toBytes (e.2.1 / 2 ^ 244 % 32) 8 ++ toBytes e.2.1 32 ++ toBytes e.2.2 8)).reverse

/-- RDLOG: the entries of the range that the log still holds (12 R273, log 26). -/
def execRdlog (c : Cmd) (s : State) : Out :=
  command 3 true c s fun s =>
    let node := c.arg0.toNat
    let log := c.arg1.toNat
    .when (decide (log ≤ 2) && decide (node < if log = 2 then 17 else 8)) s fun s =>
      let from_ := c.arg3.toNat
      let es := (s.logEntries node log).filter fun e => decide (from_ ≤ e.1) && decide (e.1 < from_ + c.arg2.toNat)
      .done (s.hostPut c.arg4 (es.flatMap (·.2))) 0 (BitVec.ofNat 64 es.length) 0

/-! ### Maquettes and instances -/

/-- LDMQ (12 R273, 02 R26, 14 R306). -/
def execLdmq (c : Cmd) (s : State) : Out :=
  command 4 false c s fun s =>
    let d := c.arg0.toNat
    let len := c.arg2.toNat
    if 7 < d ∨ 8388608 < len then .malformed s
    else if !s.serving d then .done s 6 0 0
    else
      let m : Maquette := ⟨mputs [] 0 (s.hostBytes c.arg1 len), len, false⟩
      let f := s.die d
      if m.bad then .malformed s
      else if 8388608 < f.graphUsed + len then .done s 3 0 0
      else match s.pickFrom ((List.range 65536).filter fun n => (tget f.maquettes n).isNone) with
        | none => .done s 3 0 0
        | some (n, s) =>
          .done (s.modDie d fun f => { f with maquettes := tput f.maquettes n m }) 0 (BitVec.ofNat 64 (d * 2 ^ 16 + n)) 0

/-- A result of INST that is not OK: INSTST with the status of R27 (12 R273). -/
def CmdEnd.instst (s : State) (st : Nat) : CmdEnd := .done s 7 (BitVec.ofNat 64 st) 0

/-- The base index of each run of an instance is returned with its number (02 R30). DESIGN CHOICE (log 105): R273's completion has no place for it,
so the host finds it in the command window. -/
def State.returnRuns (s : State) (inst : Nat) (runs : List (Nat × Nat × Nat)) : State :=
  s.modPlinth fun p => { p with hostRuns := p.hostRuns ++ [(inst, runs.map fun r => (r.1, r.2.1))] }

/-- The host reads a launch record through the command window (02 R33). DESIGN CHOICE (log 105): R273 names no command for it, so the read is a
turn of its own. -/
def State.readRecord (s : State) (die rec : Nat) : State :=
  match s.record die rec with
  | some r => if s.plinth.booted && s.plinth.golfyUp then
      s.modPlinth fun p => { p with hostRecord := some (die, rec, (List.range 16).map r.word) } else s
  | none => s

/-- INST; an argument table that the port fails to read is BADREC (12 R273, 02 R27, R29, R30, 14 R305). -/
def execInst (c : Cmd) (s : State) : Out :=
  command 5 false c s fun s =>
    let n := bits c.arg2.toNat 0 16
    if c.arg2 ≠ 0 ∧ (!flagOf c.arg2.toNat 63 ∨ bits c.arg2.toNat 16 47 ≠ 0) then .malformed s
    else match s.maquetteOf c.arg0 with
      | none => .instst s 4
      | some m =>
        let held : Bool := match tget s.insts n with
          | some i => i.reserved == some c.arg0.toNat
          | none => false
        if m.part ≠ c.part.toNat then .instst s 5
        else if c.arg2 ≠ 0 ∧ !held then .instst s 6
        else if m.args.any fun k => Config.hostReadFails (c.arg1.toNat + 8 * k) then .instst s 4
        else
          let args : Tbl Word := m.args.foldl (fun t k => tput t k (BitVec.ofNat 64 (mread s.hostMem (c.arg1.toNat + 8 * k) 8))) []
          let kept := ((tget s.insts n).map Inst.runs).getD []
          let (st, inst, s) := s.instantiate m args none (if c.arg2 = 0 then none else some n)
          let runs := ((tget s.insts inst).map Inst.runs).getD (if inst = n then kept else [])
          if st = 0 then .done (s.returnRuns inst runs) 0 (BitVec.ofNat 64 (inst * 2 ^ 48)) 0 else .instst s st

/-- RSVI: the base of the run on die `d` goes to ARG1 + 8 d (12 R273, 02 R30). -/
def execRsvi (c : Cmd) (s : State) : Out :=
  command 6 false c s fun s =>
    match s.maquetteOf c.arg0 with
    | none => .malformed s
    | some m =>
      if m.dies.any fun d => !s.serving d then .done s 3 0 0
      else match s.reserve c.arg0.toNat m with
        | none => .done s 3 0 0
        | some (n, runs, s) =>
          let word := fun (d : Nat) => match runs.find? fun r => r.1 == d with
            | some r => 2 ^ 63 + r.2.1
            | none => 0
          .done (s.hostPut c.arg1 ((List.range 8).flatMap fun d => toBytes (word d) 8)) 0 (BitVec.ofNat 64 n) 0

/-- KILL: an instance is killed, a reservation released (12 R273, 02 R30, R48). -/
def execKill (c : Cmd) (s : State) : Out :=
  command 7 false c s fun s =>
    match tget s.insts c.arg0.toNat with
    | none => .done s 6 0 0
    | some i => .ok (if i.reserved.isSome then s.releaseReservation c.arg0.toNat i else s.killInstance c.arg0.toNat)

/-- FREEZE: it completes when the task is FROZEN or withdrawn (12 R273, 11 R264). -/
def execFreeze (c : Cmd) (s : State) : Out :=
  command 8 false c s fun s =>
    let d := c.arg0.toNat
    if 7 < d ∨ !s.online d then .done s 6 0 0
    else match s.requestFreeze d c.arg1.toNat with
      | (s, some st) => .done s st 0 0
      | (s, none) => .wait (s.progressOn 8 c d c.arg1.toNat)

/-- SETQW (12 R273, 03 R57). -/
def execSetqw (c : Cmd) (s : State) : Out :=
  command 9 false c s fun s => .when (decide (1 ≤ c.arg0.toNat) && decide (c.arg0.toNat ≤ 255)) s fun s =>
    .ok { s with weights := tput s.weights c.part.toNat c.arg0.toNat }

/-! ### Page answers -/

/-- The outstanding page request that an answer names: one of that identifier and CGEN, which its context still has (10 R251, R254). -/
def State.answered (s : State) (d id cgen : Nat) : Option PageRequest :=
  (s.die d).pageReqs.find? fun q => q.id == id && q.cgen == cgen && (s.context q.part).cgen == cgen && (s.context q.part).valid

/-- PANS: the answer is applied to the outstanding request that it matches, otherwise dropped and counted (12 R273, 10 R251, R254). -/
def execPans (c : Cmd) (s : State) : Out :=
  command 13 true c s fun s =>
    let d := c.arg2.toNat
    let a := c.arg0.toNat
    let found := if 7 < d ∨ !s.online d ∨ 1 < c.arg1.toNat ∨ bits a 32 32 ≠ 0 then none else s.answered d (bits a 0 16) (bits a 16 16)
    match found with
    | none => .ok (if d < 8 then s.modDie d fun f => { f with dropAnswer := f.dropAnswer + 1 }
        else s.modPlinth fun p => { p with dropAnswer := p.dropAnswer + 1 })
    | some q =>
      .ok (State.over (s.modDie d fun f => { f with pageReqs := f.pageReqs.erase q }) q.waiters fun i s => s.answerWaiter d i (c.arg1 == 1))

end Sys2Proof.Machine
end

