-- ==== Sys2Proof/Machine/Loads.lean ====
section
/-! DEFINITION. Loads, stores, atomics, fences and line operations of the control processor (08 R192 to R195, 09 R217 to
R236; 15 R324, R325, R339, R341, 16 R358, R373, R374, 17 R405, 18 R426, R427). -/
namespace Sys2Proof.Machine

/-! ### Shared operations -/

/-- Whether the strand that has the move has no free store-buffer entry: 16 plain stores outside the window that have not
left it (08 R195). -/
def State.storesFull (s : State) : Bool :=
  decide (16 ≤ (s.access.filter fun a => a.ofStrand s.cur.die s.cur.site s.cur.strand && a.kind == .store && a.plain
    && a.phase != .drained && a.phase != .scratch && !inWindow a.va).length)

/-- Whether an access of the strand that has the move may touch the bytes [lo, lo + n) and has not been performed (09 R219, R222). -/
def State.touches (s : State) (lo n : Nat) : Bool :=
  let probe := { s.newAccess .load (BitVec.ofNat 64 lo) n 0 with phase := .translate }
  (s.olderThan probe).any fun a => a.kind != .fence && !a.drained && s.overlap probe a

/-- Checks a scratchpad access of `n` bytes, ILL past the end and ALIGN (16 R374, 18 R426), then makes it. -/
def State.spadAccess (s : State) (i : Instr) (va : Word) (logn : Nat) (go : State → State) : State :=
  if spadSize < va.toNat + 2 ^ logn then s.illOperand i
  else if va.toNat % 2 ^ logn ≠ 0 then s.trapMe 4 logn va
  else go (s.modMe Strand.next)

/-- Whether a racing store is one of the strand that has the move. -/
def State.ownStore (s : State) (w : Racer) : Bool :=
  match w with
  | .store id => s.access.any fun a => a.id == id && a.ofStrand s.cur.die s.cur.site s.cur.strand
  | .grid | .engine _ | .island => false
/-- The value of a scratchpad read reaches its register, as the strand finds it (09 R225, R230); poisoned bytes are reported and the register is
not written (11 R260, log 10). -/
def State.spadLoad (s : State) (d : Reg) (va : Word) (n : Nat) (v : Nat → Word) : State :=
  let mine := s.ownStore
  let (t, s) := s.view s.cur.die s.cur.site false
  let s := s.modHere fun t => t.observe mine va.toNat n
  if t.spadPoisoned t.part va.toNat n then
    s.report s.cur.die s.cur.site s.cur.strand ⟨8, 1, BitVec.ofNat 64 (t.firstPoison va.toNat n)⟩
  else s.modMe fun x => x.wr d (v (t.spadRead t.part va.toNat n))

/-- A strand's write of its scratchpad, by a store or an atomic: until the scratchpad has performed it, an engine may find its words as they
stood; the access stands for it (04 R93, 09 R218, R230). -/
def State.spadStore (s : State) (kind : AccessKind) (va : Word) (bs : List Byte) (psn : Bool) (slot : Nat) : State :=
  let a := { s.newAccess kind va bs.length slot with phase := .scratch }
  let s := s.modHere fun t => t.raceWrite (.store a.id) s.coin t.part va.toNat bs psn
  (({ s.coined with nextId := s.nextId + 1 }).modMe fun x => x.raise slot).addAccess a
/-- A write of an atomic that has completed with its register, so that its set slot falls or its acquire ends at once: it is performed (04 R93,
09 R223, R230). -/
def State.spadPerform (s : State) (va : Word) (bs : List Byte) (psn : Bool) : State :=
  (s.modHere fun t => (t.raceWrite (.store s.nextId) s.coin t.part va.toNat bs psn).settleRaces (.store s.nextId)).coined

/-- Issues an ordered access to global memory or the window (09 R217). -/
def State.startOrdered (s : State) (kind : AccessKind) (a d : Reg) (q : Ord) (c : Scp) (logn : Nat) (data data2 : Word) (reads : Bool)
    (o : Order) : State :=
  s.startAccess { s.newAccess kind (s.me.rd a) (2 ^ logn) o.set.val with
    ord := q, scp := c, plain := false, data := data, data2 := data2, dst := if reads then d else 0 } logn

/-- Starts a line operation or hint on a line: at once where a TLB translates it, else after a walk; nothing where no table can (15 R341, 17
R405). -/
def State.startLine (s : State) (kind : AccessKind) (va slot : Nat) : State :=
  let a := { s.newAccess kind (BitVec.ofNat 64 va) 128 slot with plain := false }
  if 2 ^ 57 ≤ va ∨ inWindow va ∨ !(s.context a.part).valid then s.modMe Strand.next
  else match s.tlbFind a.agent a.part va with
    | some e => (s.launch a).translated a e
    | none => (s.launch a).waitWalk a

/-- Issues a line operation once no earlier access of the strand to its line is in flight (09 R222). -/
def issueLine (s : State) (a : Reg) (e : BitVec 9) (o : Order) (owner : Bool) : Out :=
  let va := (lineAddress (s.me.rd a) e).toNat / 128 * 128
  if s.touches va 128 then .next s
  else issueMem s [a] o fun s => s.startLine (.flush owner) va o.set.val

/-! ### Meanings -/

/-- LDL (16 R374). -/
def execLdl (d a : Reg) (z : LoadSize) (e : BitVec 6) (o : Order) (s : State) : Out :=
  issueMem s [d, a] o fun s =>
    let va := plainAddress (s.me.rd a) e z.size
    s.spadAccess (.ldl d a z e o) va z.size.log fun s => s.spadLoad d va z.size.bytes fun v => extend z.signed z.size.bytes v
/-- STL (18 R426). It waits for release fences (09 R224). -/
def execStl (d a : Reg) (z : Size) (e : BitVec 6) (o : Order) (s : State) : Out :=
  issueCommand s [d, a] o fun s =>
    let va := plainAddress (s.me.rd a) e z
    s.spadAccess (.stl d a z e o) va z.log fun s =>
      s.spadStore .store va (toBytes (s.me.rd d).toNat z.bytes) false o.set.val
/-- LDG (16 R374). -/
def execLdg (d a : Reg) (z : LoadSize) (e : BitVec 6) (o : Order) (s : State) : Out :=
  issueMem s [d, a] o fun s =>
    s.startAccess { s.newAccess .load (plainAddress (s.me.rd a) e z.size) z.size.bytes o.set.val with dst := d, signed := z.signed }
      z.size.log
/-- STG: outside the window it is not ready while the store buffer is full (18 R426, 08 R195). -/
def execStg (d a : Reg) (z : Size) (e : BitVec 6) (o : Order) (s : State) : Out :=
  let va := plainAddress (s.me.rd a) e z
  if s.storesFull && !inWindow va.toNat then .next s
  else issueMem s [d, a] o fun s =>
    s.startAccess { s.newAccess .store va z.bytes o.set.val with data := s.me.rd d } z.log
/-- LDA (16 R373). -/
def execLda (d a : Reg) (q : Ord) (c : Scp) (z : Size) (o : Order) (s : State) : Out :=
  issueMem s [d, a] o fun s => s.startOrdered .load a d q c z.log 0 0 true o
/-- STRL (18 R427). -/
def execStrl (d a : Reg) (q : Ord) (c : Scp) (z : Size) (o : Order) (s : State) : Out :=
  issueMem s [d, a] o fun s => s.startOrdered .store a d q c z.log (s.me.rd d) 0 false o
/-- AMO (15 R324). -/
def execAmo (d a : Reg) (q : Ord) (c : Scp) (wide : Bool) (f : AtomicOp) (o : Order) (s : State) : Out :=
  issueMem s [d, a] o fun s => s.startOrdered (.atomic f) a d q c (if wide then 3 else 2) (s.me.rd d) 0 true o
/-- AMOL: a release waits until the strand's earlier accesses are performed at tile scope; it completes with its register, which is written at
once, and what it orders by a slot or as an acquire finds its write (15 R325, 04 R93, 09 R223). A result on poisoned bytes stays poisoned unless
it is stored whole by SWAP (11 R260, log 10). -/
def execAmol (d a : Reg) (q : Ord) (c : Scp) (wide : Bool) (f : AtomicOp) (o : Order) (s : State) : Out :=
  if q.releases && s.unperformed then .next s
  else issueCommand s [d, a] o fun s =>
    let va := s.me.rd a
    let n := atomicBytes wide
    if spadSize ≤ va.toNat then s.illOperand (.amol d a q c wide f o)
    else if va.toNat % n ≠ 0 then s.trapMe 4 (if wide then 3 else 2) va
    else
      let s := s.modMe Strand.next
      let t := (s.view s.cur.die s.cur.site false).1
      let old := t.spadRead t.part va.toNat n
      let psn := t.spadPoisoned t.part va.toNat n
      let new := f.apply n old (s.me.rd d).toNat
      let u := s.spadLoad d va n (BitVec.ofNat 64)
      if o.set = 0 ∧ !q.acquires then u.spadStore (.atomic f) va (toBytes new n) (psn && f != .swap) 0
      else u.spadPerform va (toBytes new n) (psn && f != .swap)
/-- CAS (15 R339). -/
def execCas (d a : Reg) (q : Ord) (c : Scp) (wide : Bool) (o : Order) (s : State) : Out :=
  issueMem s [d, nextReg d, a] o fun s =>
    s.startOrdered .cas a d q c (if wide then 3 else 2) (s.me.rd d) (s.me.rd (nextReg d)) true o
/-- FENCE: it completes when its ordering has taken effect; an SC fence then waits for the token at the first node of the ring
(16 R358, 09 R224, R233). -/
def execFence (q : Ord) (c : Scp) (o : Order) (s : State) : Out :=
  issueMem s [] o fun s =>
    let a := { s.newAccess .fence 0 0 o.set.val with ord := q, scp := c, plain := false, phase := if q == .sc then .serial else .translate }
    (s.launch a).settleStrand a.agent
/-- PREF: a hint that makes the die cache ask for a line (17 R405). -/
def execPref (a : Reg) (e : BitVec 9) (o : Order) (s : State) : Out :=
  issueMem s [a] o fun s => s.startLine .pref ((lineAddress (s.me.rd a) e).toNat / 128 * 128) o.set.val
/-- CFLUSH (15 R341). -/
def execCflush (a : Reg) (e : BitVec 9) (o : Order) (s : State) : Out := issueLine s a e o true
/-- CINV (15 R341). -/
def execCinv (a : Reg) (e : BitVec 9) (o : Order) (s : State) : Out := issueLine s a e o false

end Sys2Proof.Machine
end

