-- ==== Sys2Proof/Machine/Health.lean ====
section
/-! DEFINITION. Errors in memory and scheduler state, dies that fail or leave service, and the relayout of local HBM and the window (01 R11,
R24, 11 R261 to R263, R268, R269). -/
namespace Sys2Proof.Machine

/-! ### Which dies reach one another -/

/-- The M-dies that an F-die is linked to (01 R11). -/
def dieLinks : Nat → List Nat
  | 0 => [0, 4, 5] | 1 => [0, 1, 5] | 2 => [1, 2, 6] | 3 => [2, 3, 7] | 4 => [4, 5, 0] | 5 => [5, 6, 1] | 6 => [6, 7, 2]
  | 7 => [7, 3, 2] | _ => []
/-- Whether a link joins two nodes, 0 to 7 F-dies, 8 to 15 M-dies and 16 the Plinth, which F0 and M4 reach (01 R11). -/
def linkedDies (a b : Nat) : Bool :=
  (decide (8 ≤ b) && (dieLinks a).contains (b - 8)) || (decide (8 ≤ a) && (dieLinks b).contains (a - 8))
    || (a == 16 && (b == 0 || b == 12)) || (b == 16 && (a == 0 || a == 12))
/-- The nodes of a list that a set reaches in `k` links. -/
def reach (nodes : List Nat) : Nat → List Nat → List Nat
  | 0, l => l
  | k + 1, l => reach nodes k (nodes.filter fun n => l.contains n || l.any fun m => linkedDies m n)
/-- Whether a list of dies forms one connected set that the Plinth reaches through F0 or M4 (01 R12, R24). -/
def diesConnected (nodes : List Nat) : Bool :=
  (nodes.contains 0 || nodes.contains 12) && (match nodes with
    | [] => false
    | n :: _ => (reach nodes 16 [n]).length == nodes.length)
/-- The F- and M-dies that are online or in degraded-hold. -/
def State.liveDies (s : State) : List Nat := (List.range 16).filter fun n => decide (s.dieState n ≤ 1)
/-- Sets STATE of a die (01 R23). -/
def State.setDieState (s : State) (node st : Nat) : State := s.setInventory node 56 3 st

/-! ### Power -/

/-- Removes power from every die: what the always-on domain and the Plinth's non-volatile storage hold survives (12 R280 to 13 R282, 13
R284, R289). -/
def State.powerOff (s : State) : State :=
  let p := s.plinth
  { State.reset with
    agenda := s.agenda, freeCtr := s.freeCtr, nextId := s.nextId, hostMem := s.hostMem
    plinth := { Plinth.init with
      lastTs := p.lastTs, banks := p.banks, running := p.running, rollback := p.rollback, wenizLog := p.wenizLog, wenizSeq := p.wenizSeq,
      sensors := p.sensors, hot := p.hot, accounts := p.accounts, records := p.records, bundles := p.bundles, bundleSeq := p.bundleSeq,
      capAtCheck := p.capAtCheck, unrecorded := p.unrecorded, tryFirst := p.tryFirst } }

/-! ### Dies that fail -/

/-- Breaks every barrier whose word an M-die homes (11 R268). -/
def State.breakBarriers (s : State) (node : Nat) : State :=
  s.over (s.window.filter fun e => e.2.kind == .barrier && s.windowNode (8 * e.1) == node) fun e s =>
    (s.breakObject (8 * e.1)).setWord (8 * e.1) { e.2 with kind := .plain }

/-- Takes the UALink ports of dies out of service from the list (12 R279). -/
def State.dropPorts (s : State) : State :=
  let gone := s.plinth.portsUp.filter fun p => !s.portEnabled p
  if gone.isEmpty then s
  else
    let s := s.modPlinth fun p => { p with portsUp := p.portsUp.filter fun x => !gone.contains x, portEpoch := p.portEpoch + 1 }
    { s with uaOut := s.uaOut.map fun (u : UaOut) => if gone.contains u.port then { u with held := true } else u : State }.releaseUalink

/-- What a failed F-die held is gone: its cache, its translations, what its agents had in flight. Its persistent requests end (08 R209, 11
R269). -/
def State.loseDie (s : State) (d : Nat) : State :=
  let s := s.forget fun a => a.agent.dieNo == d && !(a.phase == .ring && isPut a.op)
  let s := { s.modDie d fun f => { f with
      lines := [], misses := [], acts := [], preq := none, rwb := [], tlb := [], pageReqs := [], queues := [], resv := none } with
    reports := s.reports.filter fun r => r.1.place.1 != d
    messages := s.messages.filter fun m => m.die != d }
  s.over (s.persistent.filter fun e => e.slot == d) fun e s =>
    if e.active then s.deactivate e true
    else if e.busy then s
    else { s with persistent := s.persistent.erase e }

/-- The ring without a node's memory: a token goes round the nodes that remain, FENCE.SC waits at the first of them, and what waited at the
node's own lines and words is answered as they are now (09 R234, 11 R269). -/
def State.closeRing (s : State) (node : Nat) : State :=
  let mine := fun (e : Nat × Nat × Nat) => ringDie e.1 == node
  let gone := (s.scQueue ++ s.scInput).filter mine
  let fence : Nat × Nat × Nat → Bool := fun e => (s.accessOf e.2.1 e.2.2).any fun a => a.kind == .fence
  let s := { s with scQueue := s.scQueue.filter (fun e => !mine e), scInput := s.scInput.filter (fun e => !mine e) : State }
  let s := s.over gone fun e s => if fence e then s.joinSerial s.firstNode e.2.1 e.2.2 else s.serialPerform e.1 e.2.1 e.2.2
  s.regenerate

/-- One die fails in hardware: the tasks of an F-die fail POISON and their instances abort; an M-die's barriers break, its ports go down and
the serialising ring closes over the others (09 R234, 11 R268, R269). -/
def State.failDie (s : State) (node : Nat) : State :=
  let s := s.setDieState node 3
  if node < 8 then (s.abortAll ((s.die node).records.map fun e => (node, e.1)) ⟨8, 0, 0⟩).loseDie node
  else if node < 16 then ((s.breakBarriers node).dropPorts).closeRing node
  else s

/-- The dies that a failure has cut off from the set that holds F0, or else M4, fail too; with neither left the Weniz removes power (11
R269). DESIGN CHOICE (log 103): it logs that failure under kind 0 with data 0. -/
def State.failCutOff (s : State) : State :=
  let live := s.liveDies
  if live.contains 0 || live.contains 12 then
    let kept := reach live 16 [if live.contains 0 then 0 else 12]
    s.over (live.filter fun n => !kept.contains n) fun n s => s.failDie n
  else (s.powerOff).wenizLogAdd 0 0

/-- DIE_FAILURE (11 R269). -/
def execDieFailure (node : Nat) (s : State) : Out :=
  if !s.plinth.booted || 16 < node || s.dieState node == 3 then .next s
  else .next (s.failDie node).failCutOff

/-- A packet for an F-die that answers no more: tokens go back to the home of their line from a die that is offline, and are lost with a
failed one; an activation counts as acknowledged, a GRANT frees its entry; the rest is dropped (11 R269, log 27). -/
def State.deadPacket (s : State) (n : NetPacket) : State :=
  let p := n.p
  if (n.opc = 3 ∨ n.opc = 4) ∧ s.dieState p.dst = 2 then s.send n.opc { p with dst := s.homeNode p.line }
  else if n.opc = 17 then (match s.accessOf p.dst p.txn with
    | some a => s.dropAccess a.id
    | none => s)
  else if n.opc = 7 then s.freeTracker (s.homeSlice p.line)
  else if n.opc = 9 ∨ n.opc = 10 then s.send 11 { Packet.zero with src := p.dst, dst := p.src, line := p.line, aux := p.aux }
  else s

/-! ### Relayout -/

/-- The key of a line whose bytes went with a failed M-die: no key slot holds it (log 28). -/
def lostKey : Nat := 2 ^ 300

/-- Recalls every line that die caches hold tokens of: evacuation gathers them at their homes (08 R208, 11 R269). -/
def State.recallAll (s : State) : State :=
  s.over (((List.range 8).flatMap fun d => (s.die d).lines.map (·.1)).eraseDups) fun line s => (s.recall line).homeSettle line

/-- Whether nothing is on its way to or at a home, a memory tile or a station, and every home holds its lines' tokens, so that their places may
change: only decrement messages and the serialising token travel (08 R208, 11 R269). -/
def State.memoryQuiet (s : State) : Bool :=
  s.net.all (fun n => n.opc == opcDecr || n.opc == 19) && s.homeWait.isEmpty && s.walks.isEmpty && s.peerReqs.isEmpty && s.persistent.isEmpty
    && (List.range 8).all (fun d => (s.die d).lines.isEmpty) && s.tilePorts.all (fun e => e.2.isEmpty) && s.scQueue.isEmpty && s.scInput.isEmpty && s.tickets.all fun e => e.2.isEmpty

/-- Lays local HBM and the window out again for the dies that serve: every line keeps its address and every word its offset (11 R269, 01
R25, 08 R197). What the slices cache goes to HBM first, and the ring closes over the nodes that remain (09 R234). What a failed die held reads
as free values (log 28). -/
def State.relayout (s : State) : State :=
  let s := s.flushSlices
  let serve := fun (m : Nat) => decide (s.dieState (8 + m) ≤ 1)
  let gone := (List.range 8).filter fun m => s.windowDies.contains m && !serve m
  let s := s.over gone fun m s => s.breakBarriers (8 + m)
  let homes := s.homes.map fun e => if s.lostHome e.1 then (e.1, { e.2 with key := lostKey, psn := false }) else e
  let lost := s.window.filter fun e => s.dieState (s.windowNode (8 * e.1)) == 3
  let s := s.over lost fun e s =>
    { s with window := tput s.window e.1 { e.2 with bits := BitVec.ofNat 64 (Config.choice s.freeCtr), psn := false }, freeCtr := s.freeCtr + 1 }
  { s with
    homes := homes, homeMap := s.homeMap.filter (fun x => serve (x / 256)), windowDies := s.windowDies.filter serve, trackers := [], tickets := [],
    bankTurn := [] : State }.regenerate

/-- An F-die without live records leaves service: its misses end, its persistent request with PDONE, and its cache returns every token (11
R269, 08 R205, R209). -/
def State.evacuate (s : State) (d : Nat) : State :=
  let s := s.over (s.die d).misses fun e s => s.closeMiss d e.1
  let s := s.over (s.die d).lines fun e s => s.evictLine d e.1
  (s.modDie d fun f => { f with acts := [], preq := none, tlb := [] }).setDieState d 2

/-! ### Memory errors -/

/-- Counts a corrected error of a node (11 R261). -/
def State.countCorrected (s : State) (node : Nat) : State :=
  s.modPlinth fun p => { p with corrected := tput p.corrected node (tgetD p.corrected node 0 + 1) }

/-- The node where an error strikes. -/
def State.eccNode (s : State) : EccPlace → Nat
  | .scratch d _ _ | .l1 d _ _ | .instr d _ _ | .peData d _ _ _ | .shadow d _ _ | .active d _ _ _ | .handle d _ _ | .dieLine d _ | .acc d _ _
  | .tlb d | .capability d _ _ | .peQueue d _ _ _ _ | .peOutput d _ _ _ _ | .predicate d _ _ | .strandReg d _ _ _ | .channel d _ _ _
  | .inbound d _ _ | .delayLine d _ _ _ | .streamPort d _ _ _ | .token d _ _ _ | .receive d _ _ _ | .lane d _ _ _ | .latch d _ _
  | .constant d _ _ _ | .l1Tag d _ _ | .dieTag d _ | .utlb d _ _ _ => d
  | .homeLine l | .tokenMeta l | .sliceTag l => s.homeNode l
  | .windowWord o => s.windowNode o

/-- A double-bit error: data becomes poison, a tag or a translation is dropped, a barrier breaks, a line's token metadata recalls its tokens,
a configuration fails CFGUE (11 R260, R261, R263, R268, 08 R209). What carries no poison takes a free value, and a die cache line whose tag is
struck goes home with its tokens (log 84). -/
def State.doubleError (s : State) : EccPlace → State
  | .scratch d y o => s.modTile d y fun t => { t with spadPsn := sput t.spadPsn (o / 8) }
  | .l1 d y l => s.modTile d y fun t => match tget t.l1 l with
    | some x => { t with l1 := tput t.l1 l { x with psn := true } }
    | none => t
  | .instr d y w => s.modTile d y fun t => match tget t.imem w with
    | some x => { t with imem := tput t.imem w { x with psn := true } }
    | none => t
  | .peData d y pe r => s.modTile d y fun t => t.modPe pe fun p => { p with dPsn := vset p.dPsn (r / 2) (vget p.dPsn (r / 2) ||| BitVec.ofNat 2 (2 ^ (r % 2))) }
  | .peQueue d y pe q k => s.modTile d y fun t => t.modPe pe fun p => { p with inq := vset p.inq q (lmap Queued.strike k (vget p.inq q)) }
  | .peOutput d y pe q k => s.modTile d y fun t => t.modPe pe fun p =>
      { p with outq := vset p.outq q (lmap (fun x => { x with word := x.word.map GWord.strike }) k (vget p.outq q)) }
  | .constant d y pe k => s.modTile d y fun t => t.modPe pe fun p =>
      if p.onB then { p with planeB := { p.planeB with constPsn := p.planeB.constPsn ||| BitVec.ofNat 8 (2 ^ (k % 8)) } }
      else { p with planeA := { p.planeA with constPsn := p.planeA.constPsn ||| BitVec.ofNat 8 (2 ^ (k % 8)) } }
  | .predicate d y pe =>
    let (v, s) := s.pick 256
    s.modTile d y fun t => t.modPe pe fun p => { p with p := BitVec.ofNat 8 v ||| 1 }
  | .strandReg d y n r =>
    let (v, s) := s.pick (2 ^ 64)
    s.modStrand d y n fun x => x.wr (Fin.ofNat 32 r) (BitVec.ofNat 64 v)
  | .channel d y n k => s.modStrand d y n fun x => { x with k := vset x.k k { vget x.k k with psn := (vget x.k k).full } }
  | .inbound d y k => s.modTile d y fun t => { t with inbuf := lmap (fun m => { m with psn := true }) k t.inbuf }
  | .delayLine d y e o => s.modTile d y fun t => t.setStream e { t.stream e with delayPsn := sput (t.stream e).delayPsn o }
  | .streamPort d y e k => s.modTile d y fun t => t.setStream e { t.stream e with port := lmap Queued.strike k (t.stream e).port }
  | .token d y q k => s.modTile d y fun t => t.setQueue q (lmap (fun x => { x with psn := true }) k (t.queue q))
  | .receive d y n k => s.modTile d y fun t => t.setPort n (lmap Queued.strike k (t.port n))
  | .lane d y l k => s.modTile d y fun t =>
      { t with island := { t.island with lanes := vset t.island.lanes l (lmap Queued.strike k (vget t.island.lanes l)) } }
  | .latch d y front => s.modTile d y fun t =>
      { t with island := if front then { t.island with front := { t.island.front with psn := true } }
                         else { t.island with back := { t.island.back with psn := true } } }
  | .shadow d y pe => s.modTile d y fun t =>
      t.modPe pe fun p => { p with loadCode := 0x100, loadEval := gridEval (t.relX y) (t.relY y) pe 0 0 0 }
  | .active d y pe slot =>
    let t := s.tile d y
    match t.planeTask (t.pe pe) with
    | some n => if s.gridRuns d y then s.failTask d n ⟨0xC, 0, gridEval (t.relX y) (t.relY y) pe slot 0 0⟩ ⟨0, t.relX y, t.relY y, 0⟩ else s
    | none => s
  | .handle d y h => s.modTile d y fun t => t.setHandle h { t.handle h with psn := true }
  | .dieLine d l => if (s.cacheLine d l).tok = 0 then s else s.setCacheLine d l { s.cacheLine d l with psn := true }
  | .homeLine l => match tget s.sliceLines l with
    | some x => { s with sliceLines := tput s.sliceLines l { x with psn := true } }
    | none => s.setHome l { s.home l with psn := true }
  | .tokenMeta l => (s.poisonLine l).homeSettle l
  | .windowWord o =>
    let off := o / 8 * 8
    let w := s.word off
    if w.kind = .barrier then (s.breakObject off).setWord off { w with kind := .plain, psn := true } else s.setWord off { w with psn := true }
  | .acc d y r => s.modTile d y fun t => { t with island := { t.island with accPsn := sput t.island.accPsn r } }
  | .tlb d =>
    let (k, s) := s.pick (max (s.die d).tlb.length 1)
    s.modDie d fun f => { f with tlb := ldel f.tlb k }
  | .capability d y k => s.modTile d y fun t => { t with caps := tdel t.caps k }
  | .l1Tag d y l => s.modTile d y fun t => { t with l1 := tdel t.l1 l }
  | .dieTag d l => s.evictLine d l
  | .sliceTag l => s.sliceOut l
  | .utlb d y g k => s.modTile d y fun t => { t with utlb := vset t.utlb g (ldel (vget t.utlb g) k) }

/-- ECC_ERROR: a single-bit error is corrected and counted (11 R261). -/
def execEccError (place : EccPlace) (double : Bool) (s : State) : Out :=
  .next (if double then s.doubleError place else s.countCorrected (s.eccNode place))

/-- SCRUB_PASS: a home slice reads a line and writes it back corrected; its data, tokens and poison stay as they are (11 R261). -/
def execScrubPass (line : Nat) (s : State) : Out := .next (s.setHome line (s.home line))

/-! ### Scheduler state -/

/-- The spare armature cores of a die, first in row-major order (01 R14). -/
def State.spareCore (s : State) (d : Nat) : Option Nat :=
  (List.range (s.die d).sites.length).find? fun y => (lget (s.die d).sites y).getD 3 == 0 && (tget (s.die d).roles y).isNone

/-- An armature core: its strands are privileged, and with a role they run that role's firmware from its word 0 on (01 R14, 04 R99, 12 R280 step
6, log 85). -/
def Tile.armature (role : Option Nat) : Tile :=
  { Tile.init with
    strands := Vector.replicate 4 { Strand.init with prv := true, run := if role.isSome then .run else .stopped }
    firmware := role, codeLen := role.elim 0 fun r => min (Config.firmwareLength r) 131072 }

/-- An armature core is lost and halts, and the inventory word counts it (01 R23): its role passes to the first spare core; with no spare the die fails (11 R262). -/
def State.loseCore (s : State) (d site : Nat) : State :=
  let role := tget (s.die d).roles site
  let s := (s.modDie d fun f => { f with sites := lset f.sites site 3, roles := tdel f.roles site }).countDefect d
  let s := (s.setTile d site (Tile.armature none)).forget fun a => a.agent.place == (d, site)
  match role with
  | none => s
  | some r => match s.spareCore d with
    | some y => (s.modDie d fun f => { f with roles := tput f.roles y r }).setTile d y (Tile.armature (some r))
    | none => (s.failDie d).failCutOff

/-- SCHEDULER_STATE_ERROR (11 R262). -/
def execSchedulerStateError (place : SchedPlace) (s : State) : Out :=
  .next (match place with
    | .core d y => if (lget (s.die d).sites y).getD 3 = 0 then s.loseCore d y else s
    | .record d n => match s.record d n with
      | none => s
      | some r =>
        let s := s.setRecord d n { r with psn := true }
        if r.reserved then s.modRecord d n fun r => { r with abortMark := true } else s.abortWith d n ⟨8, 0, 0⟩
    | .queue d part prio =>
      let ready := (s.die d).records.filter fun e => e.2.state == .ready && !e.2.reserved && !e.2.parked && e.2.part.toNat == part && e.2.prio == prio
      s.modDie d fun f =>
        let key := prio * 16 + part
        { f with queues := tput f.queues key (ready.map (·.1)), deficit := tput f.deficit key 0, stale := sdel f.stale key }
    | .successors d n => s.modRecord d n fun r => { r with succPsn := true }
    | .maquette d k =>
      if (tget (s.die d).maquettes k).isNone then s
      else (s.modDie d fun f => { f with maquettes := f.maquettes.map fun e => if e.1 = k then (e.1, { e.2 with psn := true }) else e }).modPlinth
        fun p => { p with struck := p.struck ++ [(d, k)] }
    | .bitmap _ => s
    | .placeLog d n => s.modDie d fun f => { f with places := f.places.map fun e => if e.seq = n then { e with bad := true } else e }
    | .faultLog d n => s.modDie d fun f => { f with faults := f.faults.map fun e => if e.fseq = n then { e with bad := true } else e })

end Sys2Proof.Machine
end

