-- ==== Sys2Proof/Machine/Admin.lean ====
section
/-! DEFINITION. The commands that administer the device: contexts, keys, invalidation, memory tiles, pools, dies, the pod and counters (10
R239, R245, R247, R252, 11 R264, R269, 12 R273, R277, R278, 02 R28). -/
namespace Sys2Proof.Machine

/-! ### Translation and keys -/

/-- SETCTX: CGEN rises with every context that is accepted (12 R273, 10 R239). -/
def execSetctx (c : Cmd) (s : State) : Out :=
  command 10 false c s fun s =>
    let w := c.arg0.toNat
    let root := bits w 17 35 * 2 ^ 17
    let valid := flagOf w 63
    .when (bits w 52 11 == 0 && !flagOf w 16 && (!valid || (bits root 50 2 == 0 && decide (root < s.hbmSize)))) s fun s =>
      .ok { s with contexts := tput s.contexts c.part.toNat ⟨valid, root, ((s.context c.part).cgen + 1) % 65536⟩ }

/-- The bytes of a wrapped key that the device reads (log 29). -/
def wrappedKeyBytes : Nat := 128

/-- SETKEY (12 R273, 10 R245). -/
def execSetkey (c : Cmd) (s : State) : Out :=
  command 11 false c s fun s =>
    if 63 < c.arg0.toNat ∨ c.arg1 ≠ 0 then .malformed s
    else match Config.unwrapKey (s.hostBytes c.arg2 wrappedKeyBytes) with
      | none => .malformed s
      | some k => .ok { s with keys := tput s.keys c.arg0.toNat ⟨k + 1, c.part⟩ }

/-- TLBI of the command window: no walk spans a step of the model, so it completes at once (12 R273, 10 R247, log 7). -/
def execHostTlbi (c : Cmd) (s : State) : Out :=
  command 12 false c s fun s =>
    let lo := c.arg0.toNat
    let hi := c.arg1.toNat
    .when (decide (lo ≤ hi) && decide (hi < 2 ^ 57)) s fun s => .ok (s.dropTranslations c.part lo hi)

/-! ### Memory tiles -/

/-- Breaks the barriers of a memory tile that its partition loses (11 R268). -/
def State.breakTile (s : State) (tile : Nat) : State :=
  s.over (s.window.filter fun e => e.2.kind == .barrier && 8 * e.1 / 0x200000 == tile) fun e s =>
    (s.breakObject (8 * e.1)).setWord (8 * e.1) { s.word (8 * e.1) with kind := .plain }
/-- Gives a memory tile to a partition, or takes it from its partition (10 R252, 11 R268). -/
def State.assignTile (s : State) (tile : Nat) (owner : Option (BitVec 4)) : State :=
  let now := tget s.windowOwner tile
  let s := if now.isSome && now != owner then s.breakTile tile else s
  { s with windowOwner := match owner with
    | some p => tput s.windowOwner tile p
    | none => tdel s.windowOwner tile }

/-- MTASN; an M-die in degraded-hold takes no new assignment (12 R273, 10 R252, 11 R269). -/
def execMtasn (c : Cmd) (s : State) : Out :=
  command 14 false c s fun s =>
    let a := c.arg0.toNat
    let b := c.arg1.toNat
    let tiles := (List.range (b + 1 - a)).map (a + ·)
    if b < a ∨ s.windowSize / 0x200000 ≤ b ∨ 1 < c.arg2.toNat then .malformed s
    else if c.arg2 = 0 then
      .when (tiles.all fun t => s.dieState (s.windowNode (t * 0x200000)) != 1 || tget s.windowOwner t == some c.part) s fun s =>
        .ok (s.over tiles fun t s => s.assignTile t (some c.part))
    else .ok (s.over tiles fun t s => s.assignTile t none)

/-! ### Pools -/

/-- FPOOL (12 R273, 11 R264). -/
def execFpool (c : Cmd) (s : State) : Out :=
  command 15 false c s fun s =>
    let a := c.arg0.toNat
    let n := c.arg1.toNat
    let k := c.arg2.toNat
    if (s.keyOf c.part k).isNone ∨ bits a 50 14 ≠ 0 ∨ s.hbmSize < a + n * slotBytes then .malformed s
    else
      let slots := (List.range n).map fun i => a + i * slotBytes
      .when (slots.all fun p => s.freezePool.all fun f => decide (p + slotBytes ≤ f.pa) || decide (f.pa + slotBytes ≤ p)) s fun s =>
        .ok { s with freezePool := s.freezePool ++ slots.map fun p => ⟨p, k, c.part, false⟩ }

/-- The blocks of a buffer pool, free or held by an instance (02 R28). -/
def State.poolBlocks (s : State) (key : Nat) : Nat :=
  (tgetD s.pools key ⟨0, []⟩).free.length + (s.insts.map fun e => (e.2.blocks.filter fun b => b.1 == key).length).sum

/-- BPOOL (12 R273, 02 R28). -/
def execBpool (c : Cmd) (s : State) : Out :=
  command 32 false c s fun s =>
    let key := poolKey c.part.toNat c.arg0.toNat
    let log := c.arg1.toNat
    let n := c.arg2.toNat
    let base := c.arg3.toNat
    let p := tgetD s.pools key ⟨0, []⟩
    if 15 < c.arg0.toNat ∨ log < 16 ∨ 30 < log ∨ (p.log ≠ 0 ∧ p.log ≠ log) ∨ base % 2 ^ log ≠ 0 ∨ 1 < c.arg4.toNat
        ∨ (c.arg4 = 0 ∧ 65536 < s.poolBlocks key + n) then .malformed s
    else if c.arg4 = 0 then
      .ok { s with pools := tput s.pools key ⟨log, p.free ++ (List.range n).map fun i => base + i * 2 ^ log⟩ }
    else
      let named := fun (b : Nat) => decide (base ≤ b) && decide (b < base + n * 2 ^ log)
      let free := (p.free.filter named).eraseDups
      if free.length < n then .done s 6 0 0 else .ok { s with pools := tput s.pools key { p with free := p.free.filter fun b => !named b } }

/-! ### Dies -/

/-- Whether a live instance has records on an F-die (11 R269). -/
def State.dieBusy (s : State) (d : Nat) : Bool := s.insts.any fun e => e.2.reserved.isNone && e.2.runs.any fun r => r.1 == d

/-- The dies that would be left without a die (11 R269). -/
def State.leftWithout (s : State) (node : Nat) : List Nat := s.liveDies.filter (· != node)

/-- The slices and M-dies that would home memory without an M-die (11 R269). -/
def State.roomWithout (s : State) (node : Nat) : Nat × Nat :=
  let stay := fun (m : Nat) => m != node - 8 && decide (s.dieState (8 + m) ≤ 1)
  ((s.homeMap.filter fun x => stay (x / 256)).length * 500000000, (s.windowDies.filter stay).length * 64)

/-- The tasks that hold a region, on every die (11 R264). -/
def State.regionTasks (s : State) : List (Nat × Nat) :=
  (List.range 8).flatMap fun d => ((s.die d).records.filter fun e => e.2.state.holdsRegion).map fun e => (d, e.1)

/-- The M-die leaves service: memory and window are laid out again; a failed one stays failed (11 R269). -/
def State.takeOffline (s : State) (node : Nat) : State :=
  ((if s.dieState node = 3 then s else s.setDieState node 2).relayout).dropPorts

/-- An M-die in degraded-hold: its barriers break as it leaves the online state (11 R268, R269). -/
def State.holdDie (s : State) (node : Nat) : State :=
  if s.dieState node = 0 then (s.setDieState node 1).breakBarriers node else s

/-- OFFLINE: the checks in the order of R269; an M-die waits until every task is frozen or withdrawn, the homes have their tokens and no packet is
on its way to memory (12 R273, 08 R208, 11 R264, R269). DESIGN CHOICE (log 102): the high-water frame mark ARG1 counts bytes. -/
def execOffline (c : Cmd) (s : State) : Out :=
  command 16 false c s fun s =>
    let node := c.arg0.toNat
    if 15 < node then .malformed s
    else if !diesConnected (s.leftWithout node) then .done s 8 0 0
    else if s.dieState node = 2 ∨ (node < 8 ∧ s.dieState node = 3) then .ok s
    else if node < 8 then
      if s.dieBusy node then .done (s.setDieState node 1) 4 0 0 else .ok (s.evacuate node)
    else
      let (size, tiles) := s.roomWithout node
      if size ≤ c.arg1.toNat ∨ s.windowOwner.any fun e => decide (tiles ≤ e.1) then .done (s.holdDie node) 5 0 0
      else
        let tasks := s.regionTasks
        if !s.freezeRoom tasks then .done s 3 0 0
        else
          let s := s.over tasks fun t s => s.beginFreeze t.1 t.2
          let s := if s.regionTasks.isEmpty then s.recallAll else s
          if s.regionTasks.isEmpty && s.memoryQuiet then .ok (s.takeOffline node) else .wait (s.progressOn 16 c node 0)

/-- An OFFLINE in progress goes on: NOROOM once a freeze has been refused; with no task in a region every line is recalled, and the relayout comes
once the homes have their tokens and no packet is on its way to memory (08 R208, 11 R264, R269). -/
def State.continueOffline (s : State) : State :=
  match s.plinth.progress with
  | none => s
  | some g =>
    if g.opc ≠ 16 then s
    else if s.regionTasks.isEmpty then (if s.memoryQuiet then (s.takeOffline g.waitDie).complete 16 g.seq 0 0 0 else s.recallAll)
    else if s.regionTasks.any fun t => match s.record t.1 t.2 with
        | some r => r.state == .running && r.endReq == .none
        | none => false
    then s.complete 16 g.seq 3 0 0
    else s

/-- PWRCAP (12 R273, 01 R21). -/
def execPwrcap (c : Cmd) (s : State) : Out := command 17 false c s fun s => .ok (s.modPlinth fun p => { p with powerCap := c.arg0.toNat })

/-! ### The pod -/

/-- SETID: BUSY once the ports may open or while an instance is live or reserved (12 R273, R277). DESIGN CHOICE (log 104): the ports count as open
from the first SETID that succeeds, whether or not one of them has come up. -/
def execSetid (c : Cmd) (s : State) : Out :=
  command 18 false c s fun s =>
    if 1023 < c.arg0.toNat then .malformed s
    else if s.plinth.idSet || !s.insts.isEmpty then .done s 4 0 0
    else .ok (s.modPlinth fun p => { p with podId := c.arg0.toNat, idSet := true })

/-- A device that has booted since it was last admitted: its windows are empty, every message toward it is discarded and reported, and its
sequence counters start again (12 R278, 03 R77). -/
def State.freshDevice (s : State) (dev : Nat) : State :=
  s.over (List.range 8) fun d s =>
    let s := s.over ((s.die d).kept.filter fun k => k.dev == dev) fun k s => s.linkLost d k
    s.modDie d fun f => { f with
      kept := f.kept.filter fun k => k.dev != dev
      windows := f.windows.filter fun e => e.1 / 8 != dev
      seqOut := f.seqOut.filter fun e => e.1 / 8 != dev }
/-- The transactions that a device's requests carried before it booted again are forgotten. DEDUCED (log 82): the drop of a repeated
transaction is for one run of the device (12 R279). -/
def State.forgetTransactions (s : State) (dev : Nat) : State := { s with uaSeen := s.uaSeen.filter fun e => e.1 != dev }

/-- ADMIT (12 R273, R278). -/
def execAdmitDevice (c : Cmd) (s : State) : Out :=
  command 19 false c s fun s =>
    let dev := c.arg0.toNat
    .when (decide (dev ≤ 1023) && decide (c.arg1.toNat ≤ 1)) s fun s =>
      let s := if c.arg1 = 1 then (s.freshDevice dev).forgetTransactions dev else s
      .ok (s.modPlinth fun p => { p with admitted := sput p.admitted dev })

/-- DISMISS: each unacknowledged message toward the device raises LINKLOST (12 R273, R278). -/
def execDismiss (c : Cmd) (s : State) : Out :=
  command 20 false c s fun s =>
    let dev := c.arg0.toNat
    if !s.plinth.admitted.contains dev then .done s 6 0 0
    else
      let s := s.modPlinth fun p => { p with admitted := sdel p.admitted dev }
      .ok (s.over (List.range 8) fun d s => s.over ((s.die d).kept.filter fun k => k.dev == dev) fun k s => s.linkLost d k)

/-! ### Counters -/

/-- The drop and error counters of a node; a die's count of struck maquettes reports them (02 R49, 03 R77, 10 R251, R253, 11 R259, R261, R262, log
84). -/
def State.counters (s : State) (node : Nat) : List Nat :=
  let f := s.die node
  (if node < 8 then [f.dropDecr, f.dropDup, f.dropStale, f.dropGen, f.dropAnswer] else if node = 16 then [s.plinth.dropAnswer] else [])
    ++ [tgetD s.plinth.corrected node 0, tgetD s.plinth.malCount node 0, (s.plinth.struck.filter fun e => e.1 == node).length]

/-- RDCNT: the layout is not given (12 R273, log 2). -/
def execRdcnt (c : Cmd) (s : State) : Out :=
  command 21 true c s fun s => .when (decide (c.arg0.toNat ≤ 16)) s fun s =>
    .ok (s.hostPut c.arg1 (Config.counterBytes c.arg0.toNat (s.counters c.arg0.toNat)))

end Sys2Proof.Machine
end

