-- ==== Sys2Proof/Machine/Arith.lean ====
section
/-! DEFINITION. Register arithmetic, logic, shifts, comparisons, bit fields, moves and predicates of the control processor
(04 R84, 14 R292, R296; the reference entries of 15 to 18). None of them traps. -/
namespace Sys2Proof.Machine

/-! ### Shared arithmetic -/

/-- The high half of the 128-bit product (17 R380). -/
def mulHigh (u : Bool) (a b : Word) : Word :=
  if u then BitVec.ofNat 64 (a.toNat * b.toNat / 2 ^ 64) else BitVec.ofInt 64 (a.toInt * b.toInt / 2 ^ 64)
/-- The quotient of DIV (16 R352). -/
def divWord (u : Bool) (a b : Word) : Word :=
  if b = 0 then BitVec.allOnes 64 else if u then a.udiv b else a.sdiv b
/-- The remainder of REM (16 R352). -/
def remWord (u : Bool) (a b : Word) : Word :=
  if b = 0 then a else if u then a.umod b else a.srem b
/-- The lesser word (17 R380). -/
def minWord (u : Bool) (a b : Word) : Word := if condHolds .lt u b a then b else a
/-- The greater word (17 R380). -/
def maxWord (u : Bool) (a b : Word) : Word := if condHolds .lt u a b then b else a
/-- The number of zero bits above the most significant 1, 64 for 0 (15 R342). -/
def clzWord (a : Word) : Word := if a = 0 then 64 else BitVec.ofNat 64 (63 - Nat.log2 a.toNat)
/-- The number of zero bits below bit `i`, counted up to `fuel`. -/
def trailing (a : Word) (i : Nat) : Nat → Nat
  | 0 => i
  | n + 1 => if a.getLsbD i then i else trailing a (i + 1) n
/-- The number of zero bits below the least significant 1, 64 for 0 (15 R342). -/
def ctzWord (a : Word) : Word := BitVec.ofNat 64 (trailing a 0 64)
/-- The number of ones (17 R404). -/
def popWord (a : Word) : Word := BitVec.ofNat 64 ((List.range 64).filter fun i => a.getLsbD i).length
/-- A mask of the low `n` bits. -/
def lowMask (n : Nat) : Word := BitVec.ofNat 64 (2 ^ n - 1)
/-- BFX: `len` bits from `pos`, zero-extended or sign-extended (15 R336). -/
def extractField (x : Bool) (a : Word) (pos len : Nat) : Word :=
  let v := (a >>> pos) &&& lowMask len
  if x && v.getLsbD (len - 1) then v ||| ~~~ lowMask len else v
/-- BFI: the low `len` bits of `a` at `pos` of `d` (15 R336). -/
def insertField (d a : Word) (pos len : Nat) : Word :=
  (d &&& ~~~ (lowMask len <<< pos)) ||| ((a &&& lowMask len) <<< pos)
/-- SEXT: the low bytes of a word, sign-extended (18 R419). -/
def signExtendWord (a : Word) (z : Size) : Word := extend true z.bytes a.toNat

/-! ### Meanings -/

/-- NOP (17 R398). -/
def execNop (s : State) : Out := issueAlu s [] fun t => t
/-- ADD (15 R321). -/
def execAdd (d a b : Reg) (s : State) : Out := issueAlu s [d, a, b] fun t => t.wr d (t.rd a + t.rd b)
/-- SUB (18 R428). -/
def execSub (d a b : Reg) (s : State) : Out := issueAlu s [d, a, b] fun t => t.wr d (t.rd a - t.rd b)
/-- MUL: the low half of the product (17 R386). -/
def execMul (d a b : Reg) (s : State) : Out := issueAlu s [d, a, b] fun t => t.wr d (t.rd a * t.rd b)
/-- MULH (17 R380). -/
def execMulh (d a b : Reg) (u : Bool) (s : State) : Out := issueAlu s [d, a, b] fun t => t.wr d (mulHigh u (t.rd a) (t.rd b))
/-- DIV (16 R352). -/
def execDiv (d a b : Reg) (u : Bool) (s : State) : Out := issueAlu s [d, a, b] fun t => t.wr d (divWord u (t.rd a) (t.rd b))
/-- REM (16 R352). -/
def execRem (d a b : Reg) (u : Bool) (s : State) : Out := issueAlu s [d, a, b] fun t => t.wr d (remWord u (t.rd a) (t.rd b))
/-- AND (15 R321). -/
def execAnd (d a b : Reg) (s : State) : Out := issueAlu s [d, a, b] fun t => t.wr d (t.rd a &&& t.rd b)
/-- OR (17 R400). -/
def execOr (d a b : Reg) (s : State) : Out := issueAlu s [d, a, b] fun t => t.wr d (t.rd a ||| t.rd b)
/-- XOR (18 R443). -/
def execXor (d a b : Reg) (s : State) : Out := issueAlu s [d, a, b] fun t => t.wr d (t.rd a ^^^ t.rd b)
/-- SHL by the low six bits of xb (18 R420). -/
def execShl (d a b : Reg) (s : State) : Out := issueAlu s [d, a, b] fun t => t.wr d (t.rd a <<< ((t.rd b).toNat % 64))
/-- SHR by the low six bits of xb (18 R420). -/
def execShr (d a b : Reg) (s : State) : Out := issueAlu s [d, a, b] fun t => t.wr d (t.rd a >>> ((t.rd b).toNat % 64))
/-- SRA by the low six bits of xb (18 R420). -/
def execSra (d a b : Reg) (s : State) : Out := issueAlu s [d, a, b] fun t => t.wr d ((t.rd a).sshiftRight ((t.rd b).toNat % 64))
/-- MIN (17 R380). -/
def execMin (d a b : Reg) (u : Bool) (s : State) : Out := issueAlu s [d, a, b] fun t => t.wr d (minWord u (t.rd a) (t.rd b))
/-- MAX (17 R380). -/
def execMax (d a b : Reg) (u : Bool) (s : State) : Out := issueAlu s [d, a, b] fun t => t.wr d (maxWord u (t.rd a) (t.rd b))
/-- ADDI (15 R323). -/
def execAddi (d a : Reg) (i : BitVec 15) (s : State) : Out := issueAlu s [d, a] fun t => t.wr d (t.rd a + sx i)
/-- ANDI (15 R323). -/
def execAndi (d a : Reg) (i : BitVec 15) (s : State) : Out := issueAlu s [d, a] fun t => t.wr d (t.rd a &&& zx i)
/-- ORI (17 R400). -/
def execOri (d a : Reg) (i : BitVec 15) (s : State) : Out := issueAlu s [d, a] fun t => t.wr d (t.rd a ||| zx i)
/-- XORI (18 R443). -/
def execXori (d a : Reg) (i : BitVec 15) (s : State) : Out := issueAlu s [d, a] fun t => t.wr d (t.rd a ^^^ zx i)
/-- SHLI (18 R420). -/
def execShli (d a : Reg) (n : Fin 64) (s : State) : Out := issueAlu s [d, a] fun t => t.wr d (t.rd a <<< n.val)
/-- SHRI (18 R420). -/
def execShri (d a : Reg) (n : Fin 64) (s : State) : Out := issueAlu s [d, a] fun t => t.wr d (t.rd a >>> n.val)
/-- SRAI (18 R420). -/
def execSrai (d a : Reg) (n : Fin 64) (s : State) : Out := issueAlu s [d, a] fun t => t.wr d ((t.rd a).sshiftRight n.val)
/-- CMPI: the immediate is sign-extended, or zero-extended with U (15 R343). -/
def execCmpi (p : Fin 8) (a : Reg) (c : Cond) (u : Bool) (i : BitVec 11) (s : State) : Out :=
  issueAlu s [a] fun t => { t with p := predSet t.p p.val (condHolds c u (t.rd a) (if u then zx i else sx i)) }
/-- CMP (15 R343). -/
def execCmp (p : Fin 8) (a b : Reg) (c : Cond) (u : Bool) (s : State) : Out :=
  issueAlu s [a, b] fun t => { t with p := predSet t.p p.val (condHolds c u (t.rd a) (t.rd b)) }
/-- SEL (18 R417). -/
def execSel (d a b : Reg) (p : Fin 8) (s : State) : Out :=
  issueAlu s [d, a, b] fun t => t.wr d (if predGet t.p p.val then t.rd a else t.rd b)
/-- CLZ (15 R342). -/
def execClz (d a : Reg) (s : State) : Out := issueAlu s [d, a] fun t => t.wr d (clzWord (t.rd a))
/-- CTZ (15 R342). -/
def execCtz (d a : Reg) (s : State) : Out := issueAlu s [d, a] fun t => t.wr d (ctzWord (t.rd a))
/-- POPC (17 R404). -/
def execPopc (d a : Reg) (s : State) : Out := issueAlu s [d, a] fun t => t.wr d (popWord (t.rd a))
/-- BFX (15 R336). -/
def execBfx (d a : Reg) (x : Bool) (p l : Fin 64) (s : State) : Out :=
  issueAlu s [d, a] fun t => t.wr d (extractField x (t.rd a) p.val (l.val + 1))
/-- BFI (15 R336). -/
def execBfi (d a : Reg) (p l : Fin 64) (s : State) : Out :=
  issueAlu s [d, a] fun t => t.wr d (insertField (t.rd d) (t.rd a) p.val (l.val + 1))
/-- SEXT (18 R419). -/
def execSext (d a : Reg) (z : Size) (s : State) : Out := issueAlu s [d, a] fun t => t.wr d (signExtendWord (t.rd a) z)
/-- MOV between registers (17 R384). -/
def execMov (d a : Reg) (s : State) : Out := issueAlu s [d, a] fun t => t.wr d (t.rd a)
/-- LIS (16 R376). -/
def execLis (d : Reg) (i : BitVec 15) (s : State) : Out := issueAlu s [d] fun t => t.wr d (sx i)
/-- LI: two words, one slot (14 R292, 16 R376). -/
def execLi (d : Reg) (v : BitVec 52) (s : State) : Out :=
  issue s [d] Order.none fun s => s.modMe fun t => { t.wr d (liValue v) with pc := t.pc + 8 }
/-- WIDF: a field of WID as WIDW cuts it (18 R440). -/
def execWidf (d : Reg) (n : Fin 6) (s : State) : Out :=
  issueAlu s [d] fun t => t.wr d (BitVec.ofNat 64 (widField s.here.widw.toNat t.wid.toNat n.val))
/-- PLOG (17 R402). -/
def execPlog (d a b : Fin 8) (q : PredOp) (s : State) : Out :=
  issueAlu s [] fun t => { t with p := predSet t.p d.val (predOp q (predGet t.p a.val) (predGet t.p b.val)) }
/-- PMOV to a register (17 R403). -/
def execPmovToRegister (d : Reg) (s : State) : Out := issueAlu s [d] fun t => t.wr d (zx (predByte t.p))
/-- PMOV to the predicates: bit 0 is ignored (17 R403). -/
def execPmovToPredicates (a : Reg) (s : State) : Out :=
  issueAlu s [a] fun t => { t with p := BitVec.ofNat 8 (t.rd a).toNat ||| 1 }
/-- ENRD: a compute strand reads the account of its partition; an armature strand reads the account that a register
names (13 R290). DESIGN CHOICE (log 101): the snapshot is the one at its issue (01 R20). -/
def execEnrd (d a : Reg) (s : State) : Out :=
  issue s [d, a] Order.none fun s =>
    let read := fun (n : Nat) => s.modMe fun t => (t.wr d (BitVec.ofNat 64 (s.accountOf n).energy)).next
    if s.me.prv then
      if (s.me.rd a).toNat ≤ 16 then read (s.me.rd a).toNat else s.illOperand (.enrd d a)
    else if a ≠ 0 then s.trapMe 1 2 (BitVec.ofNat 64 (encode (.enrd d a)))
    else read s.here.part.toNat

end Sys2Proof.Machine
end

