-- ==== Sys2Proof/Machine/Meter.lean ====
section
/-! DEFINITION. The activity counts by which the Weniz attributes energy: what each move of the machine did, by node, account and class (13
R285, R286). -/
namespace Sys2Proof.Machine

/-- The classes of activity (13 R285). -/
inductive Activity where
  | issue | firing (lt : Nat) | beat (fmt : Nat) | traffic | dieCache | walk | homeSlice | windowTile | hbm | flits | linkFlits | linkRequest
  deriving DecidableEq, Repr
/-- The number of a class (log 89). -/
def Activity.code : Activity → Nat
  | .issue => 0 | .traffic => 1 | .dieCache => 2 | .walk => 3 | .homeSlice => 4 | .windowTile => 5 | .hbm => 6 | .flits => 7 | .linkFlits => 8
  | .linkRequest => 9 | .firing lt => 10 + lt % 16 | .beat f => 26 + f % 16
/-- How many classes there are. -/
def activityClasses : Nat := 42
/-- The key of a count: node, account, class. -/
def activityKey (node acct cls : Nat) : Nat := (node * 17 + acct) * activityClasses + cls
/-- Counts activity of a node for an account (13 R285). -/
def State.count (s : State) (node acct : Nat) (c : Activity) (n : Nat) : State :=
  if n = 0 then s
  else s.modPlinth fun p => let k := activityKey node acct c.code; { p with activity := tput p.activity k (tgetD p.activity k 0 + n) }

/-- The account that a tile's activity is charged to: its task's partition, or the house account for an armature core (13 R285). -/
def Tile.account (t : Tile) : Nat := if t.firmware.isSome then 16 else t.part.toNat
/-- The account of a PE's firing: the partition of the task whose plane fires (13 R285, 03 R73). -/
def State.planeAccount (s : State) (d site pe : Nat) : Nat :=
  let t := s.tile d site
  (((t.planeTask (t.pe pe)).bind (s.record d)).map fun r => r.part.toNat).getD t.account

/-- Whether an instruction is a branch, which may issue and leave its strand as it was. -/
def isBranch : Instr → Bool
  | .b _ | .bc _ _ _ | .jmpr _ => true
  | _ => false

/-- How many units of scratchpad traffic an instruction of a strand or PE is: an access, or the 64-byte pieces of what a grid command reads (13
R285, log 89). -/
def scratchUnits : Instr → Nat
  | .ldl _ _ _ _ _ | .stl _ _ _ _ _ | .amol _ _ _ _ _ _ _ | .gconst _ _ _ | .mld _ | .mst _ => 1
  | .gload _ _ _ | .gsplice _ _ _ => 832
  | _ => 0

/-- What a c-cycle of a tile did: its strand has issued if anything of it changed, or if it is a branch to itself (13 R285). -/
def State.meterStrand (s t : State) (i : Option Instr) : State :=
  let c := t.cur
  let before := s.tile c.die c.site
  let issued := before.strand c.strand != (t.tile c.die c.site).strand c.strand || i.any isBranch
  let t := t.count c.die before.account .issue (flagCode issued)
  t.count c.die before.account .traffic (flagCode issued * (i.map scratchUnits).getD 0)
/-- What an a-cycle of a PE did (13 R285). -/
def State.meterPe (s t : State) (i : Option Instr) : State :=
  let c := t.cur
  let p := (s.tile c.die c.site).pe c.pe
  let who := s.planeAccount c.die c.site c.pe
  if p == (t.tile c.die c.site).pe c.pe then t
  else (t.count c.die who (.firing ((p.firingSlot.map fun x => bits x.2.toNat 0 4).getD 0)) 1).count c.die who .traffic ((i.map scratchUnits).getD 0)
/-- The account of a copy: that of the task it stages for, or of its tile (02 R48, 13 R285). -/
def State.jobAccount (s : State) (d site : Nat) (j : Job) : Nat :=
  ((j.staging.bind (s.record d)).map fun r => r.part.toNat).getD (s.tile d site).account
/-- The 64-byte pieces that a copy has written since; one that is gone has written its last (13 R285). -/
def Job.moved (j : Job) (l : List Job) : Nat :=
  match l.find? fun q => q.id == j.id with
  | some q => (q.done - j.done + 63) / 64
  | none => 1
/-- What a turn of a tile's engines did: the 64-byte pieces that its copies moved, through the die cache where they read or write memory, and
the elements of its stream engines (13 R285, log 89). -/
def State.meterEngine (s t : State) (d site : Nat) : State :=
  let x := s.tile d site
  let y := t.tile d site
  let t := t.over x.jobs fun j t =>
    let n := j.moved y.jobs
    let t := t.count d (s.jobAccount d site j) .traffic n
    t.count d (s.jobAccount d site j) .dieCache (if j.desc.sk = 0 ∨ j.desc.dk = 1 then n else 0)
  t.count d x.account .traffic (flagCode (x.streams != y.streams))

/-- The account of the request at a node that packets about a line serve: a die's miss, or what waits at its home (13 R285). -/
def State.requestAccount (s : State) (node line : Nat) : Option Nat :=
  if node < 8 then (tget (s.die node).misses line).map fun m => m.part.toNat else (s.homeWait.find? fun p => p.line == line).map fun p => p.part.toNat
/-- Whether a relayout is under way, whose recalls and tokens the house account pays for (13 R285). -/
def State.evacuating (s : State) : Bool := s.plinth.progress.any fun g => g.opc == 16
/-- The account that a packet is charged to: token traffic that of the request that caused it, an eviction that of the line's tag, the
serialising token and the dispatchers' messages the house account, any other its partition (13 R285, log 89). -/
def State.packetAccount (s : State) (n : NetPacket) : Nat :=
  let p := n.p
  let cause := fun (node : Nat) => if s.evacuating then 16 else (s.requestAccount node p.line).getD p.part.toNat
  if n.opc = 19 ∨ n.opc = opcDecr then 16
  else if n.opc = 3 ∨ n.opc = 4 ∨ n.opc = 7 then cause p.dst
  else if n.opc = 9 ∨ n.opc = 10 ∨ n.opc = 11 then cause (p.aux / 4096)
  else p.part.toNat
/-- What a packet's move did: its flits on a link, or its request at a home, with the lines that HBM gave or took (13 R285). -/
def State.meterPacket (s t : State) (k : Nat) : State :=
  match lget s.net k with
  | none => t
  | some n =>
    let who := s.packetAccount n
    let t := if n.node ≠ n.p.dst then t.count n.node who .flits (1 + n.p.ndf) else t
    let home := n.node == n.p.dst && decide (8 ≤ n.node) && (n.opc == 1 || n.opc == 2 || n.opc == 13 || n.opc == 14)
    let t := t.count n.node who .homeSlice (flagCode home)
    let moved := (t.sliceLines.filter fun e => (tget s.sliceLines e.1).isNone).length
    let out := s.sliceLines.filter fun e => e.2.dirty && (tget t.sliceLines e.1).isNone
    (t.count n.node who .hbm moved).over out fun e t => t.count n.node e.2.part.toNat .hbm 1
/-- The UALink flits that a move has sent: one for the header and one for each 64 bytes (13 R285, log 89). -/
def State.meterLink (s t : State) : State :=
  t.over (t.uaOut.filter fun u => !s.uaOut.any fun v => v.id == u.id) fun u t => t.count u.die u.req.part.toNat .linkFlits (1 + u.req.bytes / 64)

/-- The image of a task that has been saved or restored: a tile's 3,328 KiB for each slot, and its lines through the die cache and, where a restore
finds them there, from their homes (02 R48, 11 R265, 13 R285). -/
def State.meterImage (t : State) (d part : Nat) (slots : List Nat) (homes : List Nat) : State :=
  let t := (t.count d part .traffic (slots.length * (slotBytes / 64))).count d part .dieCache (slots.length * 26624)
  t.over homes fun line t => (t.count (t.homeNode line) part .homeSlice 1).count (t.homeNode line) part .hbm (flagCode (tget t.sliceLines line).isNone)
/-- What a save or a restore of a task did, if it has come to its end (02 R48, R50, 13 R290). -/
def State.meterTask (s t : State) (die rec : Nat) (save : Bool) : State :=
  match s.record die rec, t.record die rec with
  | some r, some x =>
    let slots := (if save then x.image else r.image).filterMap (·.slot)
    if save && r.state == .running && x.state == .frozen then t.meterImage die r.part.toNat slots []
    else if !save && r.state == .staging && x.state == .runnable then
      t.meterImage die r.part.toNat slots ((slots.flatMap slotLines).filter fun l => !(s.cacheLine die l).serves false)
    else t
  | _, _ => t

/-- What an event did: a die cache access, a walk, the beats and scratchpad traffic of an island, a request of a peer, a save or a restore (13
R285). -/
def State.meterEvent (s t : State) : Instr → State
  | .dieCacheAccess die k => match s.access? k with
    | some a => t.count die a.part.toNat .dieCache 1
    | none => t
  | .walkCompletion k => match s.access? k with
    | some a => t.count a.agent.dieNo a.part.toNat .walk 1
    | none => t
  | .islandBeat die site _ =>
    let x := (s.tile die site).island
    let y := (t.tile die site).island
    let who := (s.tile die site).account
    if x == y then t
    else match (if y.cmds.length < x.cmds.length then x.dueCmd else none) with
      | some c => if c.kind = 4 then
          let (_, n, f) := rowRange c.arg2
          t.count die who .traffic ((n * 128 * outBytes f + 63) / 64) else t
      | none => t.count die who (.beat (mxFmt x.config)) 1
  | .latchFillStart die site =>
    let x := s.tile die site
    if x.island.back.state == (t.tile die site).island.back.state then t
    else t.count die x.account .traffic ((mxExtent x.island.config + 63) / 64)
  | .freezeSaveComplete die rec => s.meterTask t die rec true
  | .restoreComplete die rec => s.meterTask t die rec false
  | .ualinkRequest r => t.count (s.homeNode (r.off / 128)) r.part.toNat .linkRequest 1
  | _ => t

/-- The activity of one move from `s` to `t` by a turn that ran `i`, counted in `t` (13 R285). -/
def State.meter (s t : State) (turn : Turn) (i : Option Instr) : State :=
  let u := match turn with
    | .strand _ _ => s.meterStrand t i
    | .pe _ _ _ => s.meterPe t i
    | .engine d site => s.meterEngine t (d % 8) (site % 144)
    | .packet k => s.meterPacket t k
    | .bank tile _ => match i with
      | some (.mtop p) => t.count (s.windowNode (tile % 512 * 0x200000)) p.part.toNat .windowTile 1
      | _ => t
    | .event i => s.meterEvent t i
    | .permission _ | .command | .hostWrite _ _ | .eventHead _ | .recordRead _ _ | .records | .settle _ _ _ => t
  s.meterLink u

end Sys2Proof.Machine
end

