-- ==== Sys2Proof/Machine/Weniz.lean ====
section
/-! DEFINITION. The Weniz: sensors and throttling, energy accounts, checkpoints, patina records and bundles, and the management commands
(01 R21, 13 R281, R282, 13 R283 to R289). -/
namespace Sys2Proof
open Machine

/-- The highest junction temperature of a die in a sampling. -/
def SensorInput.hottest (x : SensorInput) (node : Nat) : Nat := ((lget x.junction node).getD []).foldl max 0
/-- The readings of a sampling in order. -/
def SensorInput.readings (x : SensorInput) : List Nat := x.junction.flatten ++ x.volts ++ x.amps ++ [x.inlet, x.outlet, x.flow]

/-- The share of account `a` in the energy of one rail over an interval, from the measured energy, the static estimate, the dynamic estimates
and the tile-seconds or pages of the 17 accounts (13 R285, R286); a failed sensor charges the unscaled estimate. -/
def railShare (energy static : Rat) (dynamic shares : List Rat) (failed : Bool) (a : Nat) : Rat :=
  let dyn := (lget dynamic a).getD 0
  let d := dynamic.foldl (· + ·) 0
  let tiles := shares.foldl (· + ·) 0
  let mine := (lget shares a).getD 0
  let split := fun (st : Rat) => if tiles = 0 then (if a = 16 then st else 0) else st * mine / tiles
  if failed then dyn + split static
  else
    let sx := if d = 0 then energy else min static energy
    let dx := energy - sx
    (if d = 0 then 0 else dx * dyn / d) + split sx

end Sys2Proof

namespace Sys2Proof.Machine

/-- The kinds of a Weniz log entry, numbered in the order of R282 (log 30). -/
def logBoot : Nat := 0
/-- Thermal throttle. -/
def logThrottle : Nat := 1
/-- Trip. -/
def logTrip : Nat := 2
/-- Rail sensor fault. -/
def logRail : Nat := 3
/-- Firmware stage. -/
def logStage : Nat := 4
/-- Firmware commit. -/
def logCommit : Nat := 5
/-- Checkpoint gap. -/
def logGap : Nat := 6

/-! ### Sensors -/

/-- The dies that the Weniz throttles for their temperature after a sampling: at 105 degrees until below 100 (13 R281). -/
def Plinth.hotAfter (p : Plinth) (x : SensorInput) : List Nat :=
  (List.range 17).filter fun n => decide (105 ≤ x.hottest n) || (p.hot.contains n && decide (100 ≤ x.hottest n))

/-- SENSOR_SAMPLE: a trip at 120 degrees or below the flow limit removes power; otherwise dies are throttled and released, and failed rail
sensors logged (13 R281, R282). -/
def execSensorSample (x : SensorInput) (s : State) : Out :=
  let p := s.plinth
  let s := s.modPlinth fun p => { p with sensors := x.readings }
  if (List.range 17).any (fun n => decide (120 ≤ x.hottest n)) || decide (x.flow < p.flowLimit) then
    .next ((s.powerOff.wenizLogAdd logTrip 0).modPlinth fun p => { p with tripped := true })
  else
    let hot := (List.range 17).filter fun n => decide (105 ≤ x.hottest n) && !p.hot.contains n
    let s := s.over hot fun n s => s.wenizLogAdd logThrottle n
    let s := s.over x.railFault fun n s => s.wenizLogAdd logRail n
    .next (s.modPlinth fun q => { q with hot := p.hotAfter x, capped := decide (p.powerCap < x.power) })

/-! ### Accounts -/

/-- Adds a share to an account: whole uJ go to ENERGY, the rest stays in the residue (13 R286). -/
def Account.charge (c : Account) (e : Rat) : Account :=
  let t := c.residue + e
  { c with energy := c.energy + t.floor.toNat, residue := t - t.floor }

/-- The dynamic estimate of an account on a rail: the activity counts of the rail's node times the coefficients (13 R286). -/
def State.dynamicEstimate (s : State) (x : RailInput) (a : Nat) : Rat :=
  (List.range activityClasses).foldl (fun t k => t + tgetD s.plinth.activity (activityKey x.node a k) 0 * Config.coefficient x.rail k) 0
/-- The leaves under a table of a partition's context, each with its frame, size and key slot, `k` levels down from the table's own; an entry that is
malformed or not present maps nothing (10 R240 to R243). -/
def State.leavesOf (s : State) : Nat → Nat → Nat → List TlbEntry
  | 0, _, _ => []
  | k + 1, level, table =>
    (List.range (2 ^ (levelShift level).2)).flatMap fun i =>
      let at_ := table + 8 * i
      let l := s.latestLine (at_ / 128)
      let w : PageWalk := { (default : PageWalk) with level := level, table := table }
      if s.hbmSize ≤ at_ || l.psn then []
      else match walkEntry w (bits l.data.toNat (8 * (at_ % 128)) 64) with
        | .inl (.leaf e) => [e]
        | .inl .notPresent | .inl .malformed | .inl .poisoned | .inl .context => []
        | .inr (next, below) => s.leavesOf k below next
/-- The pages of 64 KiB that a leaf of local HBM maps. -/
def State.leafPages (s : State) (e : TlbEntry) : List Nat :=
  if bits e.pbase 50 2 = 0 then ((List.range (e.size / 0x10000)).map (e.pbase / 0x10000 + ·)).filter fun f => decide (f * 0x10000 < s.hbmSize) else []
/-- The pages of local HBM that a partition owns: those that any context maps through key slots it owns, and its freeze pool (13 R285, 10 R245, 11
R264). -/
def State.ownedPages (s : State) (part : BitVec 4) : Nat :=
  let leaves := (s.contexts.filter fun c => c.2.valid).flatMap fun c => s.leavesOf 4 0 c.2.root
  let mapped := (leaves.filter fun e => (s.keyOf part e.kidx).isSome).flatMap s.leafPages
  let pool := (s.freezePool.filter fun f => f.part == part).flatMap fun f => (List.range (slotBytes / 0x10000)).map (f.pa / 0x10000 + ·)
  (mapped ++ pool).eraseDups.length
/-- What the static energy of a rail is divided by: on an F-die the reserved tile-seconds, on the Plinth's the house account alone, elsewhere the
pages owned (01 R12, 13 R285, R286). -/
def State.staticShares (s : State) (x : RailInput) : List Rat :=
  (List.range 17).map fun a =>
    if x.node < 8 then ((tgetD (s.die x.node).tileTime a 0 : Nat) : Rat)
    else if x.node = 16 then ((flagCode (a == 16) : Nat) : Rat)
    else if a < 16 then ((s.ownedPages (BitVec.ofNat 4 a) : Nat) : Rat) else 0
/-- The share of an account in a rail (13 R286). -/
def State.share (s : State) (x : RailInput) (a : Nat) : Rat :=
  railShare x.energy (Config.staticEstimate x.rail s.plinth.sensors) ((List.range 17).map fun a => s.dynamicEstimate x a) (s.staticShares x)
    x.failed a

/-- ATTRIBUTION_INTERVAL: every account is charged its share of every rail, and the counts of the next interval start at 0 (13 R285, R286). -/
def execAttributionInterval (x : List RailInput) (s : State) : Out :=
  let bad := x.any (·.failed)
  let t := s.modPlinth fun p => { p with
    activity := []
    accounts := p.accounts.mapIdx fun a c =>
      let c := x.foldl (fun c r => c.charge (s.share r a)) c
      { c with railx := c.railx || bad } }
  let t := { t with dies := t.dies.map fun (f : FDie) => { f with tileTime := [] : FDie } }
  .next (if bad then t.wenizLogAdd logRail 0 else t)

/-! ### Patina records -/

/-- The bytes of a patina record (13 R288). -/
def Patina.bytes (r : Patina) : List Byte :=
  toBytes (r.seq % 2 ^ 32 * 2 ^ 32 + flagCode r.railx * 2 ^ 19 + flagCode r.lowp * 2 ^ 18 + flagCode r.frz * 2 ^ 17 + flagCode r.gap * 2 ^ 16 + r.acct) 8
    ++ toBytes r.energy 8 ++ toBytes r.ts.toNat 8 ++ toBytes (r.gapmax % 2 ^ 32 * 2 ^ 32 + r.acyc % 2 ^ 32) 8 ++ toBytes r.prev.toNat 32

/-- The record of an account at a checkpoint: ENERGY as it is stored; LOWP says that it has risen by less than 20 W over the always-on cycles,
of 40 ns each, since the record before (13 R288). -/
def Account.record (c : Account) (a : Nat) (cycles : Nat) (ts : Word) : Patina :=
  ⟨c.seq, c.railx, decide ((c.stored - c.recordedAt) * 25 < 20 * cycles), c.frz, c.gap, a, c.stored, ts, if c.gap then c.gapmax else 0, cycles,
    c.prev⟩

/-- An account after its record has been made: its flags fall (13 R288, R289). -/
def Account.recorded (c : Account) (r : Patina) : Account :=
  { c with railx := false, frz := false, gap := false, gapmax := 0, seq := c.seq + 1, prev := Config.shake256 r.bytes, recordedAt := c.stored }

/-- Makes the records of a checkpoint that is stored (13 R288, R289). -/
def State.makeRecords (s : State) : State :=
  match s.plinth.unrecorded with
  | none => s
  | some cycles => s.modPlinth fun p => { p with
    records := p.records ++ p.accounts.mapIdx fun a c => c.record a cycles p.lastTs
    accounts := p.accounts.mapIdx fun a c => c.recorded (c.record a cycles p.lastTs), unrecorded := none }

/-- Stores the accounts; their records are due (13 R289). -/
def State.storeAccounts (s : State) (cycles : Nat) : State :=
  s.modPlinth fun p => { p with
    accounts := p.accounts.map fun c => { c with stored := c.energy, storedResidue := c.residue }
    capAtCheck := p.powerCap, unrecorded := some cycles }

/-- CHECKPOINT: the accounts are stored, after the records of an earlier checkpoint that are still due; the records of this one are made after
that, in this step if `made`, else in a later one, so that a loss of power can come between the two (13 R288, R289). -/
def execCheckpoint (made : Bool) (cycles : Nat) (s : State) : Out :=
  let s := s.makeRecords.storeAccounts cycles
  .next (if made then s.makeRecords else s)

/-- The bytes of a bundle that are signed: its number, the pod identifier, its records (13 R288, log 31). -/
def bundleBytes (n pod : Nat) (rs : List Patina) : List Byte := toBytes n 8 ++ toBytes pod 8 ++ rs.flatMap Patina.bytes

/-- BUNDLE_SIGN: the records of ten checkpoints are signed; the latest 360 bundles are kept (13 R288). -/
def execBundleSign (s : State) : Out :=
  let p := s.plinth
  if p.records.length < 170 then .next s
  else
    let rs := p.records.take 170
    .next (s.modPlinth fun q => { q with
      records := p.records.drop 170, bundleSeq := p.bundleSeq + 1
      bundles := ((p.bundleSeq, rs, bundleBytes p.bundleSeq p.podId rs ++ Config.signature (bundleBytes p.bundleSeq p.podId rs)) :: p.bundles).take 360 })

/-- ALWAYS_ON_POWER_LOSS: every account resumes from its last stored checkpoint, and its next record carries GAP, with RAILX and FRZ where the
records of that checkpoint are still due (13 R288, R289, R290). -/
def execAlwaysOnPowerLoss (s : State) : Out :=
  let s := s.powerOff
  let gap := min s.plinth.capAtCheck 3200 * 1000
  .next ((s.wenizLogAdd logGap 0).modPlinth fun p => { p with
    lastTs := 0
    accounts := p.accounts.map fun c => { c with
      energy := c.stored, residue := c.storedResidue, railx := c.railx && p.unrecorded.isSome, frz := c.frz && p.unrecorded.isSome, gap := true, gapmax := gap } })

/-! ### Commands -/

/-- RDPAT: the bundles of the range that are kept (13 R283). -/
def execRdpat (c : Cmd) (s : State) : Out :=
  command 22 false c s fun s =>
    let n := c.arg0.toNat
    if !s.plinth.bundles.any fun b => b.1 == n then .done s 6 0 0
    else
      let bs := (s.plinth.bundles.filter fun b => decide (n ≤ b.1) && decide (b.1 < n + c.arg1.toNat)).reverse
      .done (s.hostPut c.arg2 (bs.flatMap (·.2.2))) 0 (BitVec.ofNat 64 bs.length) 0

/-- RDPUB (13 R283, log 2). -/
def execRdpub (c : Cmd) (s : State) : Out :=
  command 23 false c s fun s => .ok (s.hostPut c.arg0 ((Config.publicKey ++ List.replicate 64 0).take 64))
/-- RDSNS: the layout is not given (13 R283, log 2). -/
def execRdsns (c : Cmd) (s : State) : Out :=
  command 24 false c s fun s => .ok (s.hostPut c.arg0 (Config.sensorBytes s.plinth.sensors))

/-- The 32 bytes of a Weniz log entry (13 R282, log 30). -/
def WenizEntry.bytes (e : WenizEntry) : List Byte := toBytes (e.seq % 2 ^ 32 * 2 ^ 32 + e.kind) 8 ++ toBytes e.ts.toNat 8 ++ toBytes e.data 16
/-- RDWLOG (13 R283). -/
def execRdwlog (c : Cmd) (s : State) : Out :=
  command 25 false c s fun s =>
    let n := c.arg0.toNat
    let es := (s.plinth.wenizLog.filter fun e => decide (n ≤ e.seq) && decide (e.seq < n + c.arg1.toNat)).reverse
    .done (s.hostPut c.arg2 (es.flatMap WenizEntry.bytes)) 0 (BitVec.ofNat 64 es.length) 0

/-- FWSTAGE: the inactive bank takes an image that verifies and is no older than the rollback counter, and is tried first at the next boot; any
other leaves it empty (13 R283, 12 R280 step 1). -/
def execFwstage (c : Cmd) (s : State) : Out :=
  command 26 false c s fun s =>
    let k := 1 - s.plinth.running
    let put := fun (b : Bank) => s.modPlinth fun p => { p with banks := lset p.banks k b, tryFirst := if b.filled then some k else none }
    match Config.verifyImage (s.hostBytes c.arg0 c.arg1.toNat) with
    | some v => if v < s.plinth.rollback then .malformed (put ⟨false, 0, false⟩) else .ok ((put ⟨true, v, true⟩).wenizLogAdd logStage v)
    | none => .malformed (put ⟨false, 0, false⟩)

/-- FWCOMMIT: only a running bank that was staged since the last commit (13 R283). -/
def execFwcommit (c : Cmd) (s : State) : Out :=
  command 27 false c s fun s =>
    match lget s.plinth.banks s.plinth.running with
    | some b => .when b.staged s fun s =>
        .ok ((s.modPlinth fun p => { p with rollback := max p.rollback b.version, banks := p.banks.map fun x => { x with staged := false } }).wenizLogAdd
          logCommit b.version)
    | none => .malformed s

/-- RDACC (13 R283, R284). -/
def execRdacc (c : Cmd) (s : State) : Out :=
  command 28 false c s fun s => .ok (s.hostPut c.arg0 (s.plinth.accounts.flatMap fun a => toBytes a.energy 8))

/-! ### The management port -/

/-- What the management port serves; it is read-only and accepts no command (13 R282). -/
inductive ManagementItem where | log | inventory | sensors | bundles
  deriving DecidableEq, Repr
/-- The bytes that the management port serves of an item: the Weniz log with its boot failures, the inventory words, the sensor readings, the
signed bundles (13 R282, log 2, log 30). Reading them changes nothing. -/
def Plinth.served (p : Plinth) : ManagementItem → List Byte
  | .log => p.wenizLog.reverse.flatMap WenizEntry.bytes
  | .inventory => p.inventory.flatMap fun w => toBytes w.toNat 8
  | .sensors => Config.sensorBytes p.sensors
  | .bundles => p.bundles.reverse.flatMap (·.2.2)

end Sys2Proof.Machine
end

