-- ==== Sys2Proof/Machine/Boot.lean ====
section
/-! DEFINITION. The boot of the module: firmware banks, the configuration table, loads, training, classification of sites and inventory words
(01 R14, R15, R23, R24, 12 R280). -/
namespace Sys2Proof
open Machine

/-! ### The configuration table -/

/-- STATE of a die after its load: that of the table, or failed (12 R280 steps 2, 3 and 5). -/
def BootInput.stateOf (x : BootInput) (node : Nat) : Nat :=
  let st := (lget x.dieState node).getD 0
  if st = 0 ∧ x.loadFailed.contains node then 3 else st
/-- The armature width of an F-die (01 R14). -/
def BootInput.width (x : BootInput) (d : Nat) : Nat := if (lget x.armWidth d).getD 1 = 2 then 2 else 1
/-- Whether a site is defective: listed in the defect map, or failed its test at boot (01 R15, 12 R280 step 5). -/
def BootInput.defective (x : BootInput) (d site : Nat) : Bool := x.defects.contains (d, site) || x.siteFailed.contains (d, site)
/-- The good sites of a die outside its armature, in row-major order (01 R14, R15). -/
def BootInput.good (x : BootInput) (d : Nat) : List Nat :=
  (List.range 144).filter fun y => decide (x.width d ≤ siteY y) && !x.defective d y
/-- The kinds of a die's sites: 0 armature, 1 one of the first 128 good sites, 2 a spare, 3 defective (01 R15). -/
def BootInput.sites (x : BootInput) (d : Nat) : List Nat :=
  (List.range 144).map fun y =>
    if x.defective d y then 3 else if siteY y < x.width d then 0 else if ((x.good d).take 128).contains y then 1 else 2
/-- Whether a channel of an M-die is enabled (12 R280 step 4). -/
def BootInput.channelOn (x : BootInput) (m c : Nat) : Bool := !x.hbmOff.contains (m, c) && !x.trainFailed.contains (m, c)
/-- The UALink ports of an M-die (01 R16). -/
def portsOf (m : Nat) : List Nat := [2 * m, 2 * m + 1] ++ (if m = 3 then [16] else if m = 7 then [17] else [])
/-- The inventory word of a die at boot (01 R23). -/
def BootInput.word (x : BootInput) (node : Nat) : Word :=
  let st := if node < 8 ∧ x.stateOf node = 0 ∧ (x.good node).isEmpty then 3 else x.stateOf node
  if node < 8 then
    let k := x.sites node
    let count := fun (i : Nat) => (k.filter (· == i)).length
    BitVec.ofNat 64 (node * 2 ^ 59 + st * 2 ^ 56 + count 1 * 2 ^ 48 + count 3 * 2 ^ 40 + count 2 * 2 ^ 36 + x.width node * 2 ^ 34)
  else if node < 16 then
    let m := node - 8
    let on := ((List.range 64).filter fun c => x.channelOn m c).length
    let ports := ((portsOf m).mapIdx fun i p => if x.ualOff.contains p then 0 else 2 ^ i).sum
    BitVec.ofNat 64 (2 ^ 62 + m * 2 ^ 59 + st * 2 ^ 56 + on * 2 ^ 27 + ports * 2 ^ 24)
  else BitVec.ofNat 64 (2 ^ 63 + st * 2 ^ 56)
/-- The dies that the table marks online (01 R24). -/
def BootInput.marked (x : BootInput) : List Nat := (List.range 16).filter fun n => (lget x.dieState n).getD 0 == 0
/-- The usable home slices (08 R197). -/
def BootInput.slices (x : BootInput) : List Nat :=
  (List.range 2048).filter fun k => x.stateOf (8 + k / 256) == 0 && x.channelOn (k / 256) (k % 256 / 4)

end Sys2Proof

namespace Sys2Proof.Machine

/-! ### The boot sequence -/

/-- The banks in the order in which they are tried: one that was staged since the last boot first, then A, then B (12 R280 step 1, 13 R283). -/
def Plinth.bankOrder (p : Plinth) : List Nat :=
  match p.tryFirst with
  | some k => [k, 1 - k]
  | none => [0, 1]
/-- Whether a bank may run: it holds an image that verifies and is no older than the rollback counter (12 R280 step 1). -/
def Plinth.bankRuns (p : Plinth) (x : BootInput) (k : Nat) : Bool :=
  match lget p.banks k with
  | some b => b.filled && (if k = 0 then x.bankAOk else x.bankBOk) && decide (p.rollback ≤ b.version)
  | none => false

/-- A boot that stops: nothing is loaded, and the Weniz reports the step (12 R280, 13 R282, 01 R24). -/
def State.bootStops (s : State) (step : Nat) : State := (s.powerOff.modPlinth fun p => { p with tryFirst := none }).wenizLogAdd logBoot step

/-- The armature cores of the F-dies that serve, with the firmware of their roles (01 R14, 12 R280 step 6). -/
def bootCores (x : BootInput) : Tbl Tile :=
  let sites := (List.range 8).flatMap fun d =>
    if x.stateOf d = 0 then ((List.range 144).filter fun y => (lget (x.sites d) y).getD 3 == 0).map fun y => d * 144 + y else []
  sites.map fun k => (k, Tile.armature ((x.roles.find? fun r => r.1 == k).map (·.2)))

/-- The dies as the boot leaves them (12 R280 steps 3 to 6). -/
def State.loadDies (s : State) (x : BootInput) : State :=
  { s with
    tiles := bootCores x
    dies := Vector.ofFn fun d => { FDie.init with
      sites := x.sites d.val
      roles := (x.roles.filter fun r => r.1 / 144 == d.val).foldl (fun t r => tput t (r.1 % 144) r.2) [] }
    homeMap := x.slices
    windowDies := (List.range 8).filter fun m => x.stateOf (8 + m) == 0 }

/-- The Golfy port opens and the inventory words are final (12 R280 step 7). -/
def State.openPort (s : State) (x : BootInput) (bank : Nat) : State :=
  s.modPlinth fun p => { p with
    booted := true, running := bank, tryFirst := none, inventory := (List.range 17).map x.word, flowLimit := x.flowLimit, roles := x.roles, golfyUp := true
    cmdBase := x.cmdBase, cmdSize := x.cmdSize, cplBase := x.cplBase, cplSize := x.cplSize, evtBase := x.evtBase, evtSize := x.evtSize }

/-- Issues the serialising token at the first node of the ring (09 R232). -/
def State.firstToken (s : State) : State :=
  if s.firstNode = 2560 then s
  else { s with scAt := s.firstNode }.send 19 { Packet.zero with src := ringDie s.firstNode, dst := ringDie s.firstNode, aux := s.scLap }

/-- BOOT (12 R280): the steps in order; dies that the loads cut off from F0 or M4 fail (11 R269). -/
def execBoot (x : BootInput) (s : State) : Out :=
  match s.plinth.bankOrder.find? fun k => s.plinth.bankRuns x k with
  | none => .next (s.bootStops 1)
  | some k =>
    if !x.tableOk || !diesConnected x.marked then .next (s.bootStops 2)
    else
      let s := ((s.powerOff.loadDies x).openPort x k).firstToken
      let s := s.over (x.roleFailed.filter fun r => (lget (s.die r.1).sites r.2).getD 3 == 0) fun r s => s.loseCore r.1 r.2
      .next s.failCutOff

end Sys2Proof.Machine
end

