-- ==== Sys2Proof/Machine/Control.lean ====
section
/-! DEFINITION. Control transfers, strands, channels and messages, traps and system registers (04 R84 to R108, 11 R257,
R258). -/
namespace Sys2Proof.Machine

/-! ### Shared operations -/

/-- A region whose every strand is HALTED has ended: the dispatcher takes it unless another request came first (02 R44,
R51, 04 R108). -/
def State.checkHalted (s : State) (d site : Nat) : State :=
  match (s.tile d site).task with
  | none => s
  | some r => match s.record d r with
    | none => s
    | some x =>
      if x.endReq == .none && x.state == .running
          && x.sites.all (fun t => (List.range 4).all fun n => (s.strand d t n).run == .halted)
      then s.modRecord d r fun x => { x with endReq := .done } else s

/-- Where a message for a channel register goes: into the register when it is empty and no older message for it waits,
otherwise behind those that wait (04 R86). A message that enters a register returns its credit (04 R88). -/
def Tile.deliver (t : Tile) (m : Message) : Tile :=
  let x := t.strand m.strand
  if !(vget x.k m.chan).full && !(t.inbuf.any fun b => b.strand == m.strand && b.chan == m.chan) then
    { t.setStrand m.strand { x with k := vset x.k m.chan ⟨true, m.payload, m.psn⟩ } with credits := t.credits + 1 }
  else { t with inbuf := t.inbuf ++ [m] }

/-- Empties a channel register and moves the oldest message that waits for it in (04 R86, R88). -/
def Tile.takeChannel (t : Tile) (n c : Nat) : Tile :=
  let x := t.strand n
  match t.inbuf.find? fun b => b.strand == n && b.chan == c with
  | some m =>
    { t.setStrand n { x with k := vset x.k c ⟨true, m.payload, m.psn⟩ } with
      inbuf := t.inbuf.erase m, credits := t.credits + 1 }
  | none => t.setStrand n { x with k := vset x.k c Channel.zero }

/-- An instruction on the strand that a register names: another value than 0 to 3 traps ILL with the value in EVAL (04 R106, 18
R423). -/
def State.onStrand (s : State) (a : Reg) (f : Nat → State) : State :=
  if (s.me.rd a).toNat ≤ 3 then f (s.me.rd a).toNat else s.trapMe 1 5 (s.me.rd a)

/-! ### Transfers -/

/-- B (15 R327). -/
def execB (t : BitVec 21) (s : State) : Out :=
  issue s [] Order.none fun s => s.jumpMe (branchTarget s.me.pc t) fun x => x
/-- BC: taken when the predicate differs from `sense` (15 R327, 14 R296). -/
def execBc (p : Fin 8) (sense : Bool) (t : BitVec 21) (s : State) : Out :=
  issue s [] Order.none fun s =>
    if predGet s.me.p p.val != sense then s.jumpMe (branchTarget s.me.pc t) fun x => x else s.modMe Strand.next
/-- CALL: x31 takes the return offset (15 R327). -/
def execCall (t : BitVec 21) (s : State) : Out :=
  issue s [31] Order.none fun s => s.jumpMe (branchTarget s.me.pc t) fun x => x.wr 31 (x.pc + 4)
/-- CALLR: the target is read before x31 is written (15 R338). -/
def execCallr (a : Reg) (s : State) : Out :=
  issue s [a, 31] Order.none fun s => s.jumpMe (s.me.rd a) fun x => x.wr 31 (x.pc + 4)
/-- RET: to the offset in x31 (04 R96). -/
def execRet (s : State) : Out := issue s [31] Order.none fun s => s.jumpMe (s.me.rd 31) fun x => x
/-- JMPR (16 R372). -/
def execJmpr (a : Reg) (s : State) : Out := issue s [a] Order.none fun s => s.jumpMe (s.me.rd a) fun x => x

/-! ### Waiting -/

/-- WAITK: not ready until every named channel register is full (18 R439). -/
def execWaitk (m : BitVec 8) (s : State) : Out :=
  if (List.range 8).all fun n => !m.getLsbD n || (vget s.me.k n).full then issueAlu s [] fun t => t else .next s
/-- SBWAIT: not ready until every named slot is 0 (04 R94). -/
def execSbwait (m : BitVec 7) (s : State) : Out :=
  if (List.range 7).all fun n => !m.getLsbD n || vget s.me.sb (n + 1) == 0 then issueAlu s [] fun t => t else .next s
/-- YIELD: the strand forfeits its next slot (04 R106). -/
def execYield (s : State) : Out := issueAlu s [] fun t => { t with yielded := true }

/-! ### Strands -/

/-- STRGO: starts a HALTED strand at an offset, which its first fetch checks (04 R106). -/
def execStrgo (a b : Reg) (s : State) : Out :=
  issue s [a, b] Order.none fun s => s.onStrand a fun n =>
    let target := s.me.rd b
    let s := s.modMe Strand.next
    if (s.here.strand n).run == .halted then s.modStrand s.cur.die s.cur.site n fun x => { x with run := .run, pc := target } else s
/-- STRHLT: a strand in RUN or SLEEP goes to HALTED (04 R106). -/
def execStrhlt (a : Reg) (s : State) : Out :=
  issue s [a] Order.none fun s => s.onStrand a fun n =>
    let s := s.modMe Strand.next
    let s := if (s.here.strand n).run == .run || (s.here.strand n).run == .sleep then
        s.modStrand s.cur.die s.cur.site n fun x => { x with run := .halted }
      else s
    s.checkHalted s.cur.die s.cur.site
/-- SLEEP: a set wake bit is cleared and the strand goes on; otherwise it sleeps (04 R106). -/
def execSleep (s : State) : Out :=
  issueAlu s [] fun t => if t.wake then { t with wake := false } else { t with run := .sleep }
/-- WAKE: a sleeping strand runs on; otherwise its wake bit is set (04 R106). -/
def execWake (a : Reg) (s : State) : Out :=
  issue s [a] Order.none fun s => s.onStrand a fun n =>
    (s.modMe Strand.next).modStrand s.cur.die s.cur.site n fun x =>
      if x.run == .sleep then { x with run := .run } else { x with wake := true }
/-- HALT: HALTED, with the PC at the next instruction (04 R106). -/
def execHalt (s : State) : Out :=
  issue s [] Order.none fun s => (s.modMe fun t => { t.next with run := .halted }).checkHalted s.cur.die s.cur.site

/-! ### Messages -/

/-- The SENDs that ask a tile for a credit, in the order in which their requests came: those whose strand still stands at its SEND (04 R81,
R88). -/
def State.sendRequests (s : State) (d site : Nat) : List (Nat × Nat × Nat) :=
  (s.tile d site).requests.filter fun e => (s.strand d e.1 e.2.1).run == .run && (s.strand d e.1 e.2.1).pc.toNat == e.2.2
/-- The requests with that of the strand that has the move. -/
def State.withRequest (s : State) (site : Nat) : List (Nat × Nat × Nat) :=
  let me := (s.cur.site, s.cur.strand, s.me.pc.toNat)
  let q := s.sendRequests s.cur.die site
  if q.contains me then q else q ++ [me]
/-- Whether the strand that has the move holds a credit of a tile: the tile grants its free credits to the first that ask (04 R88). -/
def State.granted (s : State) (site : Nat) : Bool :=
  ((s.withRequest site).take (s.tile s.cur.die site).credits).contains (s.cur.site, s.cur.strand, s.me.pc.toNat)

/-- SEND: the header is checked, a credit of the destination taken, and the message put in transit; without a credit its request waits
(04 R87, R88). DESIGN CHOICE (log 86): a header with reserved bits traps before any credit is asked for. -/
def execSend (a b : Reg) (o : Order) (s : State) : Out :=
  let h := (s.me.rd a).toNat
  let x := bits h 0 4
  let y := bits h 4 4
  let site := s.here.siteAt x y
  if bits h 13 51 ≠ 0 then issue s [a, b] o fun s => s.illOperand (.send a b o)
  else if !s.here.inRegion x y then issue s [a, b] o fun s => s.trapMe 6 0x10 (s.me.rd a)
  else issue s [a, b] o fun s =>
    let rest := (s.withRequest site).filter fun e => e != (s.cur.site, s.cur.strand, s.me.pc.toNat)
    if !s.granted site then s.modTile s.cur.die site fun t => { t with requests := s.withRequest site } else
    let m : Message := ⟨s.cur.die, site, bits h 8 2, bits h 10 3, s.me.rd b, false, s.cur.site, s.cur.strand, s.here.gen, o.set.val⟩
    let s := s.modMe fun t => (t.raise o.set.val).next
    { s.modTile s.cur.die site fun t => { t with credits := t.credits - 1, requests := rest } with messages := s.messages ++ [m] }

/-- MOV from a channel register: not ready while it is empty; a poisoned payload is consumed and reported (04 R85, R86, 17
R384). -/
def execMovChannel (d : Reg) (k : Fin 8) (s : State) : Out :=
  let c := vget s.me.k k.val
  if !c.full then .next s
  else issue s [d] Order.none fun s =>
    let s := (s.modMe fun t => (if c.psn then t else t.wr d c.payload).next).modHere fun t => t.takeChannel s.cur.strand k.val
    if c.psn then s.report s.cur.die s.cur.site s.cur.strand ⟨8, 1, BitVec.ofNat 64 k.val⟩ else s

/-- CONTINUATION_MESSAGE_ARRIVAL: the `k`-th message in transit reaches its tile, behind every older one of its sender to
its channel register; the SEND completes (04 R86, R88, R89). One for a region that is gone is dropped, counted and refused with NACK STAT 2
(10 R253). -/
def execContinuationMessageArrival (k : Nat) (s : State) : Out :=
  match lget s.messages k with
  | none => .next s
  | some m =>
    let older := (s.messages.take k).any fun b => b.die == m.die && b.site == m.site && b.strand == m.strand && b.chan == m.chan
      && b.srcSite == m.srcSite && b.srcStrand == m.srcStrand
    if older then .next s
    else
      let s := { s with messages := ldel s.messages k }
      if !(s.tile m.die m.site).holds m.gen then
        .next ((s.countGen m.die).send 20 { Packet.zero with src := m.die, dst := m.die, gen := m.gen, stat := 2 })
      else .next ((s.modTile m.die m.site fun t => t.deliver m).modStrand m.die m.srcSite m.srcStrand fun x => x.lower m.slot)

/-! ### Traps and system registers -/

/-- SVC: EPC names the next instruction (11 R257, R258). -/
def execSvc (n : BitVec 8) (s : State) : Out :=
  issue s [] Order.none fun s => s.takeTrap s.cur.die s.cur.site s.cur.strand ⟨0x11, n.toNat, 0⟩ false (s.me.pc + 4)
/-- TRAP: EPC names the next instruction (11 R257, R258). -/
def execTrap (n : BitVec 8) (s : State) : Out :=
  issue s [] Order.none fun s => s.takeTrap s.cur.die s.cur.site s.cur.strand ⟨0x13, n.toNat, 0⟩ false (s.me.pc + 4)
/-- BRK: EPC names the BRK itself (11 R257, 15 R337). -/
def execBrk (n : BitVec 8) (s : State) : Out :=
  issue s [] Order.none fun s => s.takeTrap s.cur.die s.cur.site s.cur.strand ⟨0x12, n.toNat, 0⟩ false s.me.pc
/-- ERET: outside a handler it is ILL with DETAIL 0x05 (11 R258). -/
def execEret (s : State) : Out :=
  issue s [] Order.none fun s => if s.me.intrap then s.trapReturn else s.illOperand .eret
/-- SRD (18 R424). DESIGN CHOICE (log 101): the snapshot of SBST is the one at its issue (01 R20). -/
def execSrd (d : Reg) (r : SysReg) (s : State) : Out :=
  issueAlu s [d] fun t => t.wr d (s.here.sysRead s.cur.strand r)
/-- SWR: PRIV with the register's index for a protected one, ILL for a reserved MODE (04 R97, 18 R424). -/
def execSwr (a : Reg) (r : SysReg) (s : State) : Out :=
  issue s [a] Order.none fun s =>
    match s.here.sysWrite s.cur.strand r (s.me.rd a) with
    | .priv => s.trapMe 3 (sysIndex r) 0
    | .ill => s.illOperand (.swr a r)
    | .done t => (s.modHere fun _ => t).modMe Strand.next

/-- FETCH_FAULT: a fetch at an offset that no transfer could reach traps ITGT; a poisoned word traps POISON; the second word of LI is
fetched with its first (04 R95, R96, 11 R257, log 32). A fetch that finds its words does nothing here. -/
def execFetchFault (s : State) : Out :=
  let x := s.me
  let next := x.pc + 4
  let trap := fun (c : Report) => s.takeTrap s.cur.die s.cur.site s.cur.strand c false
  if x.run != .run || x.stall then .next s
  else if !s.here.targetOk x.pc then .next (s.trapMe 2 0 x.pc)
  else if (s.here.codeWord x.pc.toNat).psn then .next (s.trapMe 8 2 x.pc)
  else if bits (s.here.codeWord x.pc.toNat).bits.toNat 25 7 ≠ 0x22 then .next s
  else if s.here.codeLen ≤ next.toNat then .next (trap ⟨2, 0, next⟩ next)
  else if (s.here.codeWord next.toNat).psn then .next (trap ⟨8, 2, next⟩ x.pc)
  else .next s

/-- IMPRECISE_TRAP: the `k`-th report in transit reaches its strand: taken, queued inside a handler, or, for a strand that
is not in RUN, the end of the task (11 R257). A report for a tile without a task is dropped. -/
def execImpreciseTrap (k : Nat) (s : State) : Out :=
  match lget s.reports k with
  | some (.strand d t n, c) =>
    let s := { s with reports := ldel s.reports k }
    if (s.tile d t).task.isNone && (s.tile d t).firmware.isNone then .next s
    else if (s.strand d t n).run == .run then .next (s.takeTrap d t n c true (s.strand d t n).pc)
    else .next (s.failAt d t n c)
  | some (.routed d t n, c) =>
    let s := { s with reports := ldel s.reports k }
    match (s.tile d t).task with
    | none => .next s
    | some r =>
      if (s.strand d t n).run == .run then .next (s.takeTrap d t n c true (s.strand d t n).pc)
      else .next (s.failTask d r c (s.routedAt d t))
  | _ => .next s

end Sys2Proof.Machine
end

