-- ==== Sys2Proof/Machine/Links.lean ====
section
/-! DEFINITION. The remote-write buffer, UALink and the Golfy port (09 R236, 12 R270, R275 to R279). -/
namespace Sys2Proof.Machine

/-! ### The remote-write buffer -/

/-- The UALink request of a remote-write entry: a masked write of its 64-byte piece (09 R236, 12 R276, R277). -/
def RemoteEntry.request (e : RemoteEntry) : UaReq :=
  let at_ := fun (i : Nat) => tget e.data (e.pa + i)
  ⟨0, 0, bits e.pa 0 40, .write, 64, (List.range 64).map fun i => (at_ i).getD 0, (List.range 64).map fun i => (at_ i).isSome, e.part, e.kidx,
    false, false⟩

/-- REMOTE_WRITE_DRAIN: entry `k` starts to drain as a UALink write, behind every older entry of its device (09 R236). -/
def execRemoteWriteDrain (die k : Nat) (s : State) : Out :=
  match (s.die die).rwb.find? (fun e => e.seq == k) with
  | none => .next s
  | some e =>
    if e.draining || (s.die die).rwb.any fun o => decide (o.seq < k) && !o.draining && bits o.pa 40 10 == bits e.pa 40 10 then .next s
    else
      .next ((s.modDie die fun f => { f with rwb := f.rwb.map fun x => if x.seq = k then { x with draining := true } else x }).ualink
        die (bits e.pa 40 10) none (some (die, k)) e.request)

/-- REMOTE_WRITE_ACK (09 R236). -/
def execRemoteWriteAck (die k : Nat) (error : Bool) (s : State) : Out :=
  if s.uaOut.any fun u => u.entry == some (die, k) && !u.held then .next ((s.endRemoteWrite die k error).releaseUalink) else .next s

/-! ### UALink -/

/-- The offset of dispatcher window `die` (12 R277). -/
def dispatcherOffset (die : Nat) : Nat := 0xFF00000000 + 0x1000 * die

/-- A write into a dispatcher window: taken from an admitted device as a whole 64-byte write of four slots, otherwise dropped as
malformed, logged and answered with an error (12 R277, R278). -/
def State.windowWrite (s : State) (die : Nat) (r : UaReq) : State :=
  if s.plinth.admitted.contains r.src && r.op == .write && r.bytes == 64 && r.off % 64 == 0 && (r.mask.take 64).length == 64
      && (r.mask.take 64).all id then
    let word := fun i => BitVec.ofNat 64 (fromBytes ((r.data.drop (8 * i)).take 8))
    (s.over (List.range 4) fun i s => s.windowSlot die (word (2 * i)) (word (2 * i + 1))).answerPeer r false [] false
  else (s.logDrop die opcDecr 0 { Packet.zero with dst := die, data := BitVec.ofNat 1024 (fromBytes r.data) } 2).answerPeer r true [] false

/-- The dispatcher window that an offset lies in (12 R277). -/
def windowOf (off : Nat) : Option Nat :=
  if dispatcherOffset 0 ≤ off ∧ off < dispatcherOffset 8 then some ((off - dispatcherOffset 0) / 0x1000) else none

/-- A peer request that no station has served yet: one to a dispatcher window goes there; one from a device that is not admitted, to an
offset that names nothing, of another size, or under a key slot that its partition does not own is answered with an error completion;
the rest a station serves at system scope (12 R276 to R278, 10 R245, R252). -/
def State.peerRequest (s : State) (r : UaReq) : State :=
  match windowOf r.off with
  | some die => s.windowWrite die r
  | none =>
    if !s.plinth.admitted.contains r.src || decide (s.hbmSize < r.off + r.bytes) || !r.sizeOk || (s.keyOf r.part r.kidx).isNone then
      s.answerPeer r true [] false
    else s.station none r

/-- UALINK_REQUEST: a repeated transaction of a device is dropped (12 R276 to R279). -/
def execUalinkRequest (r : UaReq) (s : State) : Out :=
  if s.uaSeen.contains (r.src, r.id) then .next s else .next (State.peerRequest { s with uaSeen := (r.src, r.id) :: s.uaSeen } r)
/-- DISPATCHER_WINDOW_WRITE: a write into the window of `die` (12 R278). -/
def execDispatcherWindowWrite (die : Nat) (r : UaReq) (s : State) : Out :=
  if windowOf r.off = some die then execUalinkRequest r s else .next s

/-- UALINK_RESPONSE: a completion ends the access, entry or message write that it answers; an error completion faults PAGE; the answer to an
access that is gone is counted (12 R277, R279, 02 R51, log 17). -/
def execUalinkResponse (r : UaRsp) (s : State) : Out :=
  match s.uaOut.find? fun u => u.id == r.id && !u.held with
  | none => .next s
  | some u => .next (State.peerAnswered { s with uaOut := s.uaOut.filter fun v => v.id != r.id } u r).releaseUalink

/-- UALINK_PORT_DOWN: the port leaves the list; its outstanding requests are sent again on the new list (12 R279). -/
def execUalinkPortDown (port : Nat) (s : State) : Out :=
  if !s.plinth.portsUp.contains port then .next s
  else
    let s := s.modPlinth fun p => { p with portsUp := sdel p.portsUp port, portEpoch := p.portEpoch + 1 }
    .next { s with uaOut := s.uaOut.map fun (u : UaOut) => if u.port = port then { u with held := true } else u : State }.releaseUalink

/-- UALINK_PORT_UP: an enabled port joins the list, once SETID has set the pod identifier (12 R277, R279). -/
def execUalinkPortUp (port : Nat) (s : State) : Out :=
  if !s.plinth.idSet || !s.portEnabled port || s.plinth.portsUp.contains port then .next s
  else .next (s.modPlinth fun p => { p with portsUp := sput p.portsUp port, portEpoch := p.portEpoch + 1 }).releaseUalink

/-! ### The Golfy port -/

/-- GOLFY_REPLY: the port performs access `k` to host memory and its reply ends it (12 R275). -/
def execGolfyReply (k : Nat) (s : State) : Out :=
  match s.access? k with
  | none => .next s
  | some a =>
    if a.phase != .host || !s.plinth.golfyUp || !s.mayPerform a then .next s
    else
      let pa := bits a.pa 0 50
      if a.kind == .store then .next ({ s with hostMem := mwrite s.hostMem pa a.bytes a.data.toNat }.finish a)
      else .next (s.reply a (a.extendValue (mread s.hostMem pa a.bytes)))

/-- GOLFY_LINK_DOWN (12 R270). -/
def execGolfyLinkDown (s : State) : Out := .next (s.modPlinth fun p => { p with golfyUp := false })
/-- GOLFY_LINK_UP: what waited, events and completions, is sent in order of creation (12 R270, R272). -/
def execGolfyLinkUp (s : State) : Out :=
  if s.plinth.booted then .next ((s.modPlinth fun p => { p with golfyUp := true }).postCompletions s.plinth.cplQueue).flushEvents else .next s

end Sys2Proof.Machine
end

