-- ==== Sys2Proof/Machine/Placement.lean ====
section
/-! DEFINITION. Placement: the deficit round robin, the reservation, first fit, spliced placement and re-placement (02 R41, 03 R56 to R62,
R67 to R71, R74). -/
namespace Sys2Proof.Machine

/-! ### Which tasks may be placed -/

/-- The predecessor that has sent a task its splice decrement (03 R70). -/
def FDie.spliceSource (f : FDie) (n : Nat) : Option (Nat × Record) := f.records.find? fun e => e.2.succRec == some n && e.2.splSent
/-- Whether a splice successor is held out of ordinary placement: its predecessor has not run to its end, or it froze in mid-splice and is
placed with its predecessor (03 R71, R74). -/
def FDie.heldOut (f : FDie) (n : Nat) : Bool :=
  (match f.spliceSource n with
    | some p => p.2.state != .done
    | none => false)
  || (match tget f.records n with
    | some r => r.splFailed || (r.state == .frozen && r.pred.isSome)
    | none => false)
/-- The head of a ready queue: the first task that is not held out (03 R56, R71). -/
def FDie.queueHead (f : FDie) (part : BitVec 4) (prio : Nat) : Option Nat := (f.readyQueue part prio).find? fun n => !f.heldOut n

/-- A splice successor in READY whose predecessor is RUNNING and not about to freeze (03 R71). -/
def FDie.spliceReady (f : FDie) : Option (Nat × Nat) :=
  f.records.findSome? fun e =>
    match e.2.succRec with
    | some q =>
      if e.2.splSent && e.2.state == .running && e.2.endReq != .freeze then
        (match tget f.records q with
          | some x => if x.state == .ready && x.pred.isNone && !x.parked then some (e.1, q) else none
          | none => none)
      else none
    | none => none

/-! ### First fit -/

/-- Whether a W by H rectangle at a base is free (03 R59). -/
def State.rectFree (s : State) (d : Nat) (b : Nat × Nat) (w h : Nat) : Bool :=
  s.rectCompute d b.1 b.2 w h && (rectSites b.1 b.2 w h).all fun t => !s.occupied d t

/-- The tasks that a task's forward ports bind to it, as producer or consumer (03 R67, R69). -/
def FDie.bound (f : FDie) (n : Nat) : List Nat :=
  ((tget f.records n).bind Record.bound).toList ++ (f.records.filter fun e => e.2.bound == some n).map (·.1)
/-- The closure of a set of tasks under `bound`, in `k` rounds. -/
def FDie.group (f : FDie) : Nat → List Nat → List Nat
  | 0, l => l
  | k + 1, l => f.group k (l ++ l.flatMap f.bound).eraseDups
/-- The other tasks of a FROZEN task's forward group, with their offsets from it (03 R69). -/
def State.partners (s : State) (d n : Nat) (r : Record) : List (Nat × Record × Int × Int) :=
  if r.state != .frozen then []
  else (((s.die d).group 144 [n]).filter (· != n)).filterMap fun k => (s.record d k).map fun x => (k, x, (x.bx : Int) - r.bx, (x.by_ : Int) - r.by_)

/-- The base of a partner that stands at an offset, off the die for a negative coordinate. -/
def shifted (b : Nat × Nat) (dx dy : Int) : Nat × Nat :=
  ((((b.1 : Int) + dx).toNat + if (b.1 : Int) + dx < 0 then 12 else 0), (((b.2 : Int) + dy).toNat + if (b.2 : Int) + dy < 0 then 12 else 0))

/-- First fit: the base of the first rectangle that is free, with those of the task's forward group, whose images are all saved (03 R59, R68,
R69). -/
def State.firstFit (s : State) (d n : Nat) (r : Record) : Option (Nat × Nat) :=
  r.bases.find? fun b => s.rectFree d b r.w r.h && (s.partners d n r).all fun p =>
    p.2.1.state == .frozen && s.rectFree d (shifted b p.2.2.1 p.2.2.2) p.2.1.w p.2.1.h

/-! ### Taking a region -/

/-- The next region generation; none while the counter wraps and a request of the die is in flight (02 R41). -/
def State.nextGen (s : State) (d : Nat) : Option Nat :=
  let g := (s.die d).genCtr
  if g + 1 < 2 ^ 48 then some (g + 1) else if s.access.any fun a => a.agent.dieNo == d && a.agent.place.2 < 144 then none else some 1

/-- Writes a placement log entry (03 R62). -/
def State.logPlace (s : State) (d n gen bx by_ kind : Nat) (r : Record) : State :=
  s.modDie d fun f => { f with
    placeSeq := f.placeSeq + 1
    places := (⟨gen, r.inst, n, bx, by_, r.w, r.h, r.prio, r.part, kind, f.placeSeq + 1, 0, 0, false⟩ :: f.places).take 4096 }

/-- A task enters PLACED: its base, its generation, its log entry; the holder of the reservation loses it and its BYP (02 R48, 03 R60, R62). -/
def State.enterPlaced (s : State) (d n gen bx by_ kind : Nat) (r : Record) : State :=
  let held := (s.die d).resv.any fun v => v.recNo == n
  let s := ((s.logPlace d n gen bx by_ kind r).leaveQueue d n r).dropReservation d n
  let s := s.modDie d fun f => { f with genCtr := gen }
  s.setRecord d n { r with bx := bx, by_ := by_, gen := gen, state := .placed, pseq := (s.die d).placeSeq, restore := r.state == .frozen,
                           codeResident := false, byp := if held then 0 else r.byp }

/-- A tile that a task takes: RGNB, GENR, PART, GKEY and WIDW (02 R38, R41, R42, R45, 03 R63). -/
def Tile.take (t : Tile) (d n : Nat) (r : Record) (gen bx by_ : Nat) : Tile :=
  { t with task := some n, widw := BitVec.ofNat 64 r.wids, rgnb := regionWord d bx by_ r.w r.h, gen := gen, part := r.part, gkey := r.gkey }

/-- Whether a region is the one that a forward decrement names. -/
def Record.isProducer (x : Record) (p : Nat × Nat × Nat × Nat) : Bool :=
  x.bx == p.1 && x.by_ == p.2.1 && x.w == p.2.2.1 && x.h == p.2.2.2 && x.state.holdsRegion

/-- Binds the producer's forward port to a placed consumer (03 R67). DESIGN CHOICE (log 96): a consumer that is placed while its producer is FROZEN, or
after the producer was restored at another region, is bound to no port. -/
def State.bindForward (s : State) (d n : Nat) (r : Record) : State :=
  match r.fwd, r.producer with
  | true, some p => match (s.die d).records.find? fun e => e.2.isProducer p && (s.successors d e.2).any fun w => succForward w && succRec w == n with
    | some e => s.modRecord d e.1 fun x => { x with bound := some n }
    | none => s
  | _, _ => s

/-- Places a task at a base; a FROZEN predecessor of a pair brings its FROZEN successor with it (03 R59, R74, 11 R265). -/
def State.placeAt (s : State) (d n : Nat) (r : Record) (b : Nat × Nat) : Option State :=
  (s.nextGen d).bind fun gen =>
    let s := s.enterPlaced d n gen b.1 b.2 (if r.state = .frozen then 1 else 0) r
    let s := s.over (rectSites b.1 b.2 r.w r.h) fun y s => s.modTile d y fun t => t.take d n r gen b.1 b.2
    let s := if r.state = .frozen then s else s.bindForward d n r
    match r.succRec.bind fun q => (s.record d q).map fun x => (q, x) with
    | some (q, x) =>
      if x.state == .frozen && x.pred == some n then
        (s.nextGen d).map fun g2 =>
          (s.enterPlaced d q g2 b.1 b.2 1 x).over (rectSites b.1 b.2 r.w r.h) fun y s => s.modTile d y fun t =>
            { t with succ := some q, gen2 := some g2 }
      else some s
    | none => some s

/-- `place(t)`: places a task, and the rest of its forward group with it (03 R59, R69). -/
def State.place (s : State) (d n : Nat) : Option State :=
  match s.record d n with
  | none => none
  | some r => match s.firstFit d n r with
    | none => none
    | some b => (s.partners d n r).foldl (fun o p => o.bind fun s => s.placeAt d p.1 p.2.1 (shifted b p.2.2.1 p.2.2.2)) (s.placeAt d n r b)

/-- Splices a successor into the region of its RUNNING predecessor (03 R71). -/
def State.placeSpliced (s : State) (d p n : Nat) : State :=
  match s.record d p, s.record d n, s.nextGen d with
  | some q, some r, some gen =>
    let s := (s.enterPlaced d n gen q.bx q.by_ 2 r).modRecord d n fun r => { r with pred := some p }
    s.over q.sites fun y s => s.modTile d y fun t => { t with succ := some n, gen2 := some gen }
  | _, _, _ => s

/-! ### The round robin -/

/-- QW of a partition (03 R57). -/
def State.weight (s : State) (part : Nat) : Nat := tgetD s.weights part 16

/-- The end of a partition's turn: FRESH is set (03 R57). -/
def State.endTurn (s : State) (d key : Nat) : State := s.modDie d fun f => { f with stale := sdel f.stale key }

/-- The start of a partition's turn: a fresh one adds its weight to its deficit (03 R57). -/
def State.beginTurn (s : State) (d key p : Nat) : State :=
  let q := s.weight p
  s.modDie d fun f =>
    if f.stale.contains key then f
    else { f with deficit := tput f.deficit key (min (tgetD f.deficit key 0 + q) 65535), stale := sput f.stale key }

/-- One attempt at one priority, `k` partitions left to visit: the tasks tried, the task placed, and the state (03 R57). -/
def State.drr (s : State) (d pr : Nat) : Nat → List Nat → List Nat × Option Nat × State
  | 0, tried => (tried, none, s)
  | k + 1, tried =>
    let p := (tgetD (s.die d).ptr pr 0 + (15 - k)) % 16
    let key := pr * 16 + p
    match (s.die d).queueHead (BitVec.ofNat 4 p) pr with
    | none =>
      (s.modDie d fun f => { f with deficit := tput f.deficit key 0, stale := sdel f.stale key }).drr d pr k tried
    | some n =>
      let s := s.beginTurn d key p
      let cost := ((s.record d n).map Record.area).getD 0
      let have_ := tgetD (s.die d).deficit key 0
      if have_ < cost then (s.endTurn d key).drr d pr k tried
      else match s.place d n with
        | some s =>
          (tried, some n, s.modDie d fun f => { f with deficit := tput f.deficit key (have_ - cost), ptr := tput f.ptr pr p })
        | none => (s.endTurn d key).drr d pr k (tried ++ [n])

/-- Raises BYP of the tasks that a placement has passed (03 R58). -/
def State.bypass (s : State) (d : Nat) (tried : List Nat) : State :=
  s.over tried fun n s => s.modRecord d n fun r => { r with byp := min (r.byp + 1) 16 }

/-! ### The reservation -/

/-- The occupied sites of a rectangle. -/
def State.occupiedIn (s : State) (d : Nat) (b : Nat × Nat) (w h : Nat) : Nat :=
  ((rectSites b.1 b.2 w h).filter fun t => s.occupied d t).length
/-- The target of a reservation: the base with the fewest occupied sites, the first of equals; for a forward task the first base that
lies on compute tiles (03 R60, R68). -/
def State.target (s : State) (d : Nat) (r : Record) : Option (Nat × Nat) :=
  let ok := r.bases.filter fun b => s.rectCompute d b.1 b.2 r.w r.h
  if r.fwd && r.state != .frozen && r.producer.isSome then ok.head?
  else ok.foldl (fun best b => match best with
    | none => some b
    | some c => if s.occupiedIn d b r.w r.h < s.occupiedIn d c r.w r.h then some b else some c) none

/-- A waiting task of BYP 16 takes the reservation if it is free or held at a lower priority: the highest priority first, then the
lowest record (03 R60, log 23). -/
def State.askReservation (s : State) (d : Nat) : State :=
  let f := s.die d
  let asks := f.records.filter fun e => (e.2.state == .ready || e.2.state == .frozen) && e.2.byp == 16 && !e.2.parked && !f.heldOut e.1
    && e.2.pred.isNone
  let best := asks.foldl (fun (b : Option (Nat × Record)) e => match b with
    | none => some e
    | some c => if c.2.prio < e.2.prio then some e else some c) none
  match best with
  | none => s
  | some (n, r) =>
    if (match f.resv with
      | some v => decide (v.prio < r.prio)
      | none => true) then
      (match s.target d r with
        | some b => s.modDie d fun f => { f with resv := some ⟨n, r.prio, b.1, b.2⟩ }
        | none => s)
    else s

/-- The holder of the reservation is placed by first fit (03 R60). -/
def State.placeHolder (s : State) (d n : Nat) : State := (s.place d n).getD s

/-! ### The pass -/

/-- The priorities below `k`, highest first (03 R58). -/
def State.passFrom (s : State) (d : Nat) : Nat → List Nat → State
  | 0, _ => s
  | pr + 1, tried =>
    let rest := fun (_ : Unit) => match s.drr d pr 16 tried with
      | (tried, some _, s) => s.bypass d tried
      | (tried, none, s) => s.passFrom d pr tried
    match (s.die d).resv with
    | some v => if v.prio = pr then s.placeHolder d v.recNo else rest ()
    | none => rest ()

/-- Whether every task is being frozen for a relayout (11 R269). -/
def State.relaying (s : State) : Bool :=
  match s.plinth.progress with
  | some g => g.opc == 16
  | none => false

/-- Whether a die's dispatcher may place: the die is online, no relayout is under way, and some queue or splice waits or a tile has been freed
(03 R58, 11 R269). -/
def State.mayPlace (s : State) (d : Nat) : Bool :=
  s.online d && !s.relaying && ((s.die d).queues.any (fun q => !q.2.isEmpty) || (s.die d).spliceReady.isSome || (s.die d).freed)

/-- PLACEMENT_PASS: a spliced placement, or one pass of R58 (03 R58, R71). -/
def execPlacementPass (die : Nat) (s : State) : Out :=
  if !s.mayPlace die then .next s
  else match (s.die die).spliceReady with
    | some (p, n) => .next (s.placeSpliced die p n)
    | none => .next (((s.modDie die fun f => { f with freed := false }).askReservation die).passFrom die 8 [])

/-- The inventory word's counts after a compute tile of a die is lost (01 R22, R23). -/
def State.countLost (s : State) (d : Nat) : State :=
  (s.setInventory d 48 8 (bits ((lget s.plinth.inventory d).getD 0).toNat 48 8 - 1)).countDefect d

/-- COMPUTE_TILE_LOST_IN_SERVICE: the site is a compute tile no longer, and every READY and FROZEN task of the die is checked again (03
R61, 01 R23, log 24). -/
def execComputeTileLostInService (die site : Nat) (s : State) : Out :=
  if (lget (s.die die).sites site).getD 3 ≠ 1 then .next s
  else
    let s := (s.modDie die fun f => { f with sites := lset f.sites site 3 }).countLost die
    let waiting := (s.die die).records.filter fun e => (e.2.state == .ready || e.2.state == .frozen) && !e.2.parked
    .next (s.over waiting fun e s => if s.fits die e.2 then s else s.joinQueue die e.1 false)

end Sys2Proof.Machine
end

