-- ==== Sys2Proof/Machine/Dispatch.lean ====
section
/-! DEFINITION. The dispatch of every row of spec/opcode_table.json to its meaning. -/
namespace Sys2Proof.Machine

/-- One arm for each row. -/
def exec (i : Instr) (s : State) : Host.Outcome State Fault Refusal :=
  match i with
  | .nop => Sys2Proof.Machine.execNop s
  | .add d a b => Sys2Proof.Machine.execAdd d a b s
  | .sub d a b => Sys2Proof.Machine.execSub d a b s
  | .mul d a b => Sys2Proof.Machine.execMul d a b s
  | .mulh d a b u => Sys2Proof.Machine.execMulh d a b u s
  | .div d a b u => Sys2Proof.Machine.execDiv d a b u s
  | .rem d a b u => Sys2Proof.Machine.execRem d a b u s
  | .and d a b => Sys2Proof.Machine.execAnd d a b s
  | .or d a b => Sys2Proof.Machine.execOr d a b s
  | .xor d a b => Sys2Proof.Machine.execXor d a b s
  | .shl d a b => Sys2Proof.Machine.execShl d a b s
  | .shr d a b => Sys2Proof.Machine.execShr d a b s
  | .sra d a b => Sys2Proof.Machine.execSra d a b s
  | .min d a b u => Sys2Proof.Machine.execMin d a b u s
  | .max d a b u => Sys2Proof.Machine.execMax d a b u s
  | .addi d a imm => Sys2Proof.Machine.execAddi d a imm s
  | .andi d a imm => Sys2Proof.Machine.execAndi d a imm s
  | .ori d a imm => Sys2Proof.Machine.execOri d a imm s
  | .xori d a imm => Sys2Proof.Machine.execXori d a imm s
  | .shli d a n => Sys2Proof.Machine.execShli d a n s
  | .shri d a n => Sys2Proof.Machine.execShri d a n s
  | .srai d a n => Sys2Proof.Machine.execSrai d a n s
  | .cmpi p a c u imm => Sys2Proof.Machine.execCmpi p a c u imm s
  | .cmp p a b c u => Sys2Proof.Machine.execCmp p a b c u s
  | .sel d a b p => Sys2Proof.Machine.execSel d a b p s
  | .clz d a => Sys2Proof.Machine.execClz d a s
  | .ctz d a => Sys2Proof.Machine.execCtz d a s
  | .popc d a => Sys2Proof.Machine.execPopc d a s
  | .bfx d a x p l => Sys2Proof.Machine.execBfx d a x p l s
  | .bfi d a p l => Sys2Proof.Machine.execBfi d a p l s
  | .sext d a z => Sys2Proof.Machine.execSext d a z s
  | .mov d a => Sys2Proof.Machine.execMov d a s
  | .movChannel d k => Sys2Proof.Machine.execMovChannel d k s
  | .lis d imm => Sys2Proof.Machine.execLis d imm s
  | .li d v => Sys2Proof.Machine.execLi d v s
  | .widf d n => Sys2Proof.Machine.execWidf d n s
  | .plog d a b q => Sys2Proof.Machine.execPlog d a b q s
  | .pmovToRegister d => Sys2Proof.Machine.execPmovToRegister d s
  | .pmovToPredicates a => Sys2Proof.Machine.execPmovToPredicates a s
  | .enrd d a => Sys2Proof.Machine.execEnrd d a s
  | .b t => Sys2Proof.Machine.execB t s
  | .bc p w t => Sys2Proof.Machine.execBc p w t s
  | .call t => Sys2Proof.Machine.execCall t s
  | .callr a => Sys2Proof.Machine.execCallr a s
  | .ret => Sys2Proof.Machine.execRet s
  | .jmpr a => Sys2Proof.Machine.execJmpr a s
  | .ldl d a z e o => Sys2Proof.Machine.execLdl d a z e o s
  | .stl d a z e o => Sys2Proof.Machine.execStl d a z e o s
  | .ldg d a z e o => Sys2Proof.Machine.execLdg d a z e o s
  | .stg d a z e o => Sys2Proof.Machine.execStg d a z e o s
  | .lda d a q c z o => Sys2Proof.Machine.execLda d a q c z o s
  | .strl d a q c z o => Sys2Proof.Machine.execStrl d a q c z o s
  | .amo d a q c wide f o => Sys2Proof.Machine.execAmo d a q c wide f o s
  | .amol d a q c wide f o => Sys2Proof.Machine.execAmol d a q c wide f o s
  | .cas d a q c wide o => Sys2Proof.Machine.execCas d a q c wide o s
  | .fence q c o => Sys2Proof.Machine.execFence q c o s
  | .pref a e o => Sys2Proof.Machine.execPref a e o s
  | .cflush a e o => Sys2Proof.Machine.execCflush a e o s
  | .cinv a e o => Sys2Proof.Machine.execCinv a e o s
  | .tlook d a b o => Sys2Proof.Machine.execTlook d a b o s
  | .tins d a b o => Sys2Proof.Machine.execTins d a b o s
  | .tevict d a b o => Sys2Proof.Machine.execTevict d a b o s
  | .bari a b o => Sys2Proof.Machine.execBari a b o s
  | .bara d a o => Sys2Proof.Machine.execBara d a o s
  | .barw a b o => Sys2Proof.Machine.execBarw a b o s
  | .tsb d a b o => Sys2Proof.Machine.execTsb d a b o s
  | .lrel a o => Sys2Proof.Machine.execLrel a o s
  | .eqput d a b k o => Sys2Proof.Machine.execEqput d a b k o s
  | .eqget d a b k o => Sys2Proof.Machine.execEqget d a b k o s
  | .send a b o => Sys2Proof.Machine.execSend a b o s
  | .waitk m => Sys2Proof.Machine.execWaitk m s
  | .sbwait m => Sys2Proof.Machine.execSbwait m s
  | .yield => Sys2Proof.Machine.execYield s
  | .strgo a b => Sys2Proof.Machine.execStrgo a b s
  | .strhlt a => Sys2Proof.Machine.execStrhlt a s
  | .sleep => Sys2Proof.Machine.execSleep s
  | .wake a => Sys2Proof.Machine.execWake a s
  | .halloc d a b o => Sys2Proof.Machine.execHalloc d a b o s
  | .hfree h o => Sys2Proof.Machine.execHfree h o s
  | .hset h t o => Sys2Proof.Machine.execHset h t o s
  | .hwait h t o => Sys2Proof.Machine.execHwait h t o s
  | .hstat d h o => Sys2Proof.Machine.execHstat d h o s
  | .cpy a o => Sys2Proof.Machine.execCpy a o s
  | .cpyt a q o => Sys2Proof.Machine.execCpyt a q o s
  | .cpyq a q o => Sys2Proof.Machine.execCpyq a q o s
  | .cpyc a o => Sys2Proof.Machine.execCpyc a o s
  | .scfg a e o => Sys2Proof.Machine.execScfg a e o s
  | .swin a e o => Sys2Proof.Machine.execSwin a e o s
  | .sgo e o => Sys2Proof.Machine.execSgo e o s
  | .shalt e o => Sys2Proof.Machine.execShalt e o s
  | .sstat d e o => Sys2Proof.Machine.execSstat d e o s
  | .gload a t o => Sys2Proof.Machine.execGload a t o s
  | .gcommit o => Sys2Proof.Machine.execGcommit o s
  | .gsplice a t o => Sys2Proof.Machine.execGsplice a t o s
  | .grun t o => Sys2Proof.Machine.execGrun t o s
  | .gfrz t o => Sys2Proof.Machine.execGfrz t o s
  | .gdrain t o => Sys2Proof.Machine.execGdrain t o s
  | .gsend a b n o => Sys2Proof.Machine.execGsend a b n o s
  | .grecv d h n o => Sys2Proof.Machine.execGrecv d h n o s
  | .gconst a b o => Sys2Proof.Machine.execGconst a b o s
  | .gstat d b o => Sys2Proof.Machine.execGstat d b o s
  | .mxcfg a o => Sys2Proof.Machine.execMxcfg a o s
  | .mxldb a o => Sys2Proof.Machine.execMxldb a o s
  | .mxrot o => Sys2Proof.Machine.execMxrot o s
  | .mxzero a o => Sys2Proof.Machine.execMxzero a o s
  | .mxrd a b t o => Sys2Proof.Machine.execMxrd a b t o s
  | .mxchk d o => Sys2Proof.Machine.execMxchk d o s
  | .tdone => Sys2Proof.Machine.execTdone s
  | .tsig a o => Sys2Proof.Machine.execTsig a o s
  | .ginst d a b => Sys2Proof.Machine.execGinst d a b s
  | .tstat d a => Sys2Proof.Machine.execTstat d a s
  | .tfail c => Sys2Proof.Machine.execTfail c s
  | .xlt d a o => Sys2Proof.Machine.execXlt d a o s
  | .tlbi a b => Sys2Proof.Machine.execTlbi a b s
  | .svc n => Sys2Proof.Machine.execSvc n s
  | .trap n => Sys2Proof.Machine.execTrap n s
  | .eret => Sys2Proof.Machine.execEret s
  | .srd d r => Sys2Proof.Machine.execSrd d r s
  | .swr a r => Sys2Proof.Machine.execSwr a r s
  | .halt => Sys2Proof.Machine.execHalt s
  | .brk n => Sys2Proof.Machine.execBrk n s
  | .gridNop w => Sys2Proof.Machine.execGridNop w s
  | .move w => Sys2Proof.Machine.execMove w s
  | .dup w => Sys2Proof.Machine.execDup w s
  | .gridAdd w => Sys2Proof.Machine.execGridAdd w s
  | .gridSub w => Sys2Proof.Machine.execGridSub w s
  | .gridMul w => Sys2Proof.Machine.execGridMul w s
  | .fma w => Sys2Proof.Machine.execFma w s
  | .fms w => Sys2Proof.Machine.execFms w s
  | .gridMin w => Sys2Proof.Machine.execGridMin w s
  | .gridMax w => Sys2Proof.Machine.execGridMax w s
  | .abs w => Sys2Proof.Machine.execAbs w s
  | .neg w => Sys2Proof.Machine.execNeg w s
  | .gridCmp w => Sys2Proof.Machine.execGridCmp w s
  | .gridSel w => Sys2Proof.Machine.execGridSel w s
  | .gridAnd w => Sys2Proof.Machine.execGridAnd w s
  | .gridOr w => Sys2Proof.Machine.execGridOr w s
  | .gridXor w => Sys2Proof.Machine.execGridXor w s
  | .not w => Sys2Proof.Machine.execNot w s
  | .gridShl w => Sys2Proof.Machine.execGridShl w s
  | .gridShr w => Sys2Proof.Machine.execGridShr w s
  | .gridSra w => Sys2Proof.Machine.execGridSra w s
  | .cvt w => Sys2Proof.Machine.execCvt w s
  | .cvts w => Sys2Proof.Machine.execCvts w s
  | .exp2 w => Sys2Proof.Machine.execExp2 w s
  | .log2 w => Sys2Proof.Machine.execLog2 w s
  | .rcp w => Sys2Proof.Machine.execRcp w s
  | .rsq w => Sys2Proof.Machine.execRsq w s
  | .red w => Sys2Proof.Machine.execRed w s
  | .bcst w => Sys2Proof.Machine.execBcst w s
  | .shuf w => Sys2Proof.Machine.execShuf w s
  | .tag w => Sys2Proof.Machine.execTag w s
  | .steer w => Sys2Proof.Machine.execSteer w s
  | .merge w => Sys2Proof.Machine.execMerge w s
  | .lgen w => Sys2Proof.Machine.execLgen w s
  | .cnt w => Sys2Proof.Machine.execCnt w s
  | .rand w => Sys2Proof.Machine.execRand w s
  | .randSeed w => Sys2Proof.Machine.execRandSeed w s
  | .mld w => Sys2Proof.Machine.execMld w s
  | .mst w => Sys2Proof.Machine.execMst w s
  | .mamo w => Sys2Proof.Machine.execMamo w s
  | .mtas w => Sys2Proof.Machine.execMtas w s
  | .xltn w => Sys2Proof.Machine.execXltn w s
  | .barn w => Sys2Proof.Machine.execBarn w s
  | .endk w => Sys2Proof.Machine.execEndk w s
  | .gets p => Sys2Proof.Machine.execGets p s
  | .getx p => Sys2Proof.Machine.execGetx p s
  | .tokd p => Sys2Proof.Machine.execTokd p s
  | .tokn p => Sys2Proof.Machine.execTokn p s
  | .refuse p => Sys2Proof.Machine.execRefuse p s
  | .ticket p => Sys2Proof.Machine.execTicket p s
  | .grant p => Sys2Proof.Machine.execGrant p s
  | .preq p => Sys2Proof.Machine.execPreq p s
  | .pact p => Sys2Proof.Machine.execPact p s
  | .pdeact p => Sys2Proof.Machine.execPdeact p s
  | .pack p => Sys2Proof.Machine.execPack p s
  | .pdone p => Sys2Proof.Machine.execPdone p s
  | .ucrd p => Sys2Proof.Machine.execUcrd p s
  | .ucwr p => Sys2Proof.Machine.execUcwr p s
  | .ucrsp p => Sys2Proof.Machine.execUcrsp p s
  | .mtop p => Sys2Proof.Machine.execMtop p s
  | .mtrsp p => Sys2Proof.Machine.execMtrsp p s
  | .sct p => Sys2Proof.Machine.execSct p s
  | .nack p => Sys2Proof.Machine.execNack p s
  | .unknownPacket opc reserved p => Sys2Proof.Machine.execUnknownPacket opc reserved p s
  | .decrement die m => Sys2Proof.Machine.execDecrement die m s
  | .forwardDecrement die m => Sys2Proof.Machine.execForwardDecrement die m s
  | .abortMessage die m => Sys2Proof.Machine.execAbortMessage die m s
  | .acknowledgement die m => Sys2Proof.Machine.execAcknowledgement die m s
  | .malformedDecrementMessage p w0 w1 => Sys2Proof.Machine.execMalformedDecrementMessage p w0 w1 s
  | .hostNop c => Sys2Proof.Machine.execHostNop c s
  | .reservedCommand opc c => Sys2Proof.Machine.execReservedCommand opc c s
  | .rdinv c => Sys2Proof.Machine.execRdinv c s
  | .rdlog c => Sys2Proof.Machine.execRdlog c s
  | .ldmq c => Sys2Proof.Machine.execLdmq c s
  | .inst c => Sys2Proof.Machine.execInst c s
  | .rsvi c => Sys2Proof.Machine.execRsvi c s
  | .kill c => Sys2Proof.Machine.execKill c s
  | .freeze c => Sys2Proof.Machine.execFreeze c s
  | .setqw c => Sys2Proof.Machine.execSetqw c s
  | .setctx c => Sys2Proof.Machine.execSetctx c s
  | .setkey c => Sys2Proof.Machine.execSetkey c s
  | .hostTlbi c => Sys2Proof.Machine.execHostTlbi c s
  | .pans c => Sys2Proof.Machine.execPans c s
  | .mtasn c => Sys2Proof.Machine.execMtasn c s
  | .fpool c => Sys2Proof.Machine.execFpool c s
  | .offline c => Sys2Proof.Machine.execOffline c s
  | .pwrcap c => Sys2Proof.Machine.execPwrcap c s
  | .setid c => Sys2Proof.Machine.execSetid c s
  | .admitDevice c => Sys2Proof.Machine.execAdmitDevice c s
  | .dismiss c => Sys2Proof.Machine.execDismiss c s
  | .rdcnt c => Sys2Proof.Machine.execRdcnt c s
  | .bpool c => Sys2Proof.Machine.execBpool c s
  | .rdpat c => Sys2Proof.Machine.execRdpat c s
  | .rdpub c => Sys2Proof.Machine.execRdpub c s
  | .rdsns c => Sys2Proof.Machine.execRdsns c s
  | .rdwlog c => Sys2Proof.Machine.execRdwlog c s
  | .fwstage c => Sys2Proof.Machine.execFwstage c s
  | .fwcommit c => Sys2Proof.Machine.execFwcommit c s
  | .rdacc c => Sys2Proof.Machine.execRdacc c s
  | .fetchFault => Sys2Proof.Machine.execFetchFault s
  | .impreciseTrap k => Sys2Proof.Machine.execImpreciseTrap k s
  | .continuationMessageArrival k => Sys2Proof.Machine.execContinuationMessageArrival k s
  | .barnArrival die site pe slot => Sys2Proof.Machine.execBarnArrival die site pe slot s
  | .delayedResult die site k => Sys2Proof.Machine.execDelayedResult die site k s
  | .routeWordArrival die site k => Sys2Proof.Machine.execRouteWordArrival die site k s
  | .pePlaneSwitch die site pe => Sys2Proof.Machine.execPePlaneSwitch die site pe s
  | .configLoadComplete die site => Sys2Proof.Machine.execConfigLoadComplete die site s
  | .islandBeat die site upset => Sys2Proof.Machine.execIslandBeat die site upset s
  | .latchFillStart die site => Sys2Proof.Machine.execLatchFillStart die site s
  | .latchFillComplete die site => Sys2Proof.Machine.execLatchFillComplete die site s
  | .engineWrite die site job => Sys2Proof.Machine.execEngineWrite die site job s
  | .engineConsumerStart die site job => Sys2Proof.Machine.execEngineConsumerStart die site job s
  | .engineConsumerEnd die site job => Sys2Proof.Machine.execEngineConsumerEnd die site job s
  | .tokenFire die site queue => Sys2Proof.Machine.execTokenFire die site queue s
  | .copyCompletion die site job => Sys2Proof.Machine.execCopyCompletion die site job s
  | .streamElement die site engine => Sys2Proof.Machine.execStreamElement die site engine s
  | .streamRunEnd die site engine => Sys2Proof.Machine.execStreamRunEnd die site engine s
  | .placementPass die => Sys2Proof.Machine.execPlacementPass die s
  | .stagingAccepted die rec => Sys2Proof.Machine.execStagingAccepted die rec s
  | .taskRunnable die rec => Sys2Proof.Machine.execTaskRunnable die rec s
  | .taskStart die rec => Sys2Proof.Machine.execTaskStart die rec s
  | .taskRetirement die rec => Sys2Proof.Machine.execTaskRetirement die rec s
  | .freezeSaveComplete die rec => Sys2Proof.Machine.execFreezeSaveComplete die rec s
  | .restoreComplete die rec => Sys2Proof.Machine.execRestoreComplete die rec s
  | .decrementResend die k => Sys2Proof.Machine.execDecrementResend die k s
  | .linklost die k => Sys2Proof.Machine.execLinklost die k s
  | .dispatcherWindowWrite die r => Sys2Proof.Machine.execDispatcherWindowWrite die r s
  | .transientTimeout die line => Sys2Proof.Machine.execTransientTimeout die line s
  | .persistentPoisonTimeout line => Sys2Proof.Machine.execPersistentPoisonTimeout line s
  | .sclost => Sys2Proof.Machine.execSclost s
  | .dieCacheEviction die line => Sys2Proof.Machine.execDieCacheEviction die line s
  | .waiterRetry k => Sys2Proof.Machine.execWaiterRetry k s
  | .walkCompletion k => Sys2Proof.Machine.execWalkCompletion k s
  | .remoteWriteDrain die k => Sys2Proof.Machine.execRemoteWriteDrain die k s
  | .remoteWriteAck die k error => Sys2Proof.Machine.execRemoteWriteAck die k error s
  | .ualinkRequest r => Sys2Proof.Machine.execUalinkRequest r s
  | .ualinkResponse r => Sys2Proof.Machine.execUalinkResponse r s
  | .ualinkPortDown port => Sys2Proof.Machine.execUalinkPortDown port s
  | .ualinkPortUp port => Sys2Proof.Machine.execUalinkPortUp port s
  | .golfyReply k => Sys2Proof.Machine.execGolfyReply k s
  | .golfyLinkDown => Sys2Proof.Machine.execGolfyLinkDown s
  | .golfyLinkUp => Sys2Proof.Machine.execGolfyLinkUp s
  | .doorbell tail => Sys2Proof.Machine.execDoorbell tail s
  | .completionHead head => Sys2Proof.Machine.execCompletionHead head s
  | .sensorSample x => Sys2Proof.Machine.execSensorSample x s
  | .attributionInterval x => Sys2Proof.Machine.execAttributionInterval x s
  | .checkpoint made cycles => Sys2Proof.Machine.execCheckpoint made cycles s
  | .bundleSign => Sys2Proof.Machine.execBundleSign s
  | .boot x => Sys2Proof.Machine.execBoot x s
  | .alwaysOnPowerLoss => Sys2Proof.Machine.execAlwaysOnPowerLoss s
  | .eccError place double => Sys2Proof.Machine.execEccError place double s
  | .scrubPass line => Sys2Proof.Machine.execScrubPass line s
  | .schedulerStateError place => Sys2Proof.Machine.execSchedulerStateError place s
  | .dieFailure node => Sys2Proof.Machine.execDieFailure node s
  | .dieCacheAccess die k => Sys2Proof.Machine.execDieCacheAccess die k s
  | .computeTileLostInService die site => Sys2Proof.Machine.execComputeTileLostInService die site s

end Sys2Proof.Machine
end

