-- ==== Sys2Proof/WellFormed.lean ====
section
/-! DEFINITION. Which instructions a word can encode: the conditions of R217 and R296 that the operand types do not
already hold. -/
namespace Sys2Proof

/-- The lowest and highest fields of a bit-field form stay inside the word (14 R296, 15 R336). -/
def fieldOk (p l : Fin 64) : Bool := decide (p.val + (l.val + 1) ≤ 64)

/-- The fields of a message fit its layout (03 R75). -/
def DecrMsg.ok (m : DecrMsg) : Bool :=
  decide (m.sdev < 1024) && decide (m.sdie < 8) && decide (m.tinst < 65536) && decide (m.seq < 4294967296)
    && decide (m.record < 32768) && decide (m.pbx < 16) && decide (m.pby < 16) && decide (m.pw < 16) && decide (m.ph < 16)

/-- A packet's header is not malformed (08 R200). -/
def Packet.ok (p : Packet) : Bool := !p.malformed 0

/-- Whether an instruction has an encoding: operand limits of R296, suffix pairs of R217, RAND's two lane types (17 R406),
and the field limits of messages and packets. -/
def wellFormed : Instr → Bool
  | .sext _ _ z => z != .d
  | .bfx _ _ _ p l => fieldOk p l
  | .bfi _ _ p l => fieldOk p l
  | .plog _ _ b q => q != .not || b == 0
  | .lda _ _ q _ _ _ => q.okLoad
  | .strl _ _ q _ _ _ => q.okStore
  | .fence q _ _ => q.okFence
  | .amol _ _ q c _ _ _ => q.okLocal c
  | .cas d _ _ _ _ _ => d != 31
  | .eqget d _ b _ _ => d != b || d == 0
  | .tfail c => c != 0 && decide (c.toNat ≤ 0x13)
  | .rand w => w.lt != 6
  | .randSeed w => w.lt == 6
  | .decrement _ m => m.ok
  | .forwardDecrement _ m => m.ok
  | .abortMessage _ m => m.ok
  | .acknowledgement _ m => m.ok
  | .gets p => p.ok
  | .getx p => p.ok
  | .tokd p => p.ok
  | .tokn p => p.ok
  | .refuse p => p.ok
  | .ticket p => p.ok
  | .grant p => p.ok
  | .preq p => p.ok
  | .pact p => p.ok
  | .pdeact p => p.ok
  | .pack p => p.ok
  | .pdone p => p.ok
  | .ucrd p => p.ok
  | .ucwr p => p.ok
  | .ucrsp p => p.ok
  | .mtop p => p.ok
  | .mtrsp p => p.ok
  | .sct p => p.ok
  | .nack p => p.ok
  | _ => true

/-- Whether a row is an event that the agenda may name: one that no decoder gives (log 1). -/
def isEvent : Instr → Bool
  | .unknownPacket _ _ _ => false
  | i => encode i == 0 && encodePe i == 0 && isEventName i
where
  isEventName : Instr → Bool
    | .gridNop _ | .fetchFault => false
    | .gets _ | .getx _ | .tokd _ | .tokn _ | .refuse _ | .ticket _ | .grant _ | .preq _ | .pact _ | .pdeact _ | .pack _
    | .pdone _ | .ucrd _ | .ucwr _ | .ucrsp _ | .mtop _ | .mtrsp _ | .sct _ | .nack _ => false
    | .decrement _ _ | .forwardDecrement _ _ | .abortMessage _ _ | .acknowledgement _ _ | .malformedDecrementMessage _ _ _ => false
    | .hostNop _ | .reservedCommand _ _ | .rdinv _ | .rdlog _ | .ldmq _ | .inst _ | .rsvi _ | .kill _ | .freeze _ | .setqw _
    | .setctx _ | .setkey _ | .hostTlbi _ | .pans _ | .mtasn _ | .fpool _ | .offline _ | .pwrcap _ | .setid _ | .admitDevice _
    | .dismiss _ | .rdcnt _ | .bpool _ | .rdpat _ | .rdpub _ | .rdsns _ | .rdwlog _ | .fwstage _ | .fwcommit _ | .rdacc _ => false
    | _ => true

end Sys2Proof
end

