-- ==== Sys2Proof/Machine/Fetch.lean ====
section
/-! DEFINITION. What a turn of the machine moves: a strand's fetch, a PE's firing slot, a tile's engines, a packet, a host command, an event
(04 R81, R95, R96, 05 R117, 06 R163, 08 R200, 12 R271, R272, log 1). -/
namespace Sys2Proof.Machine

/-- What a turn gives: a state, or an instruction to execute in a state. -/
inductive Move where
  | idle (s : State)
  | run (i : Instr) (s : State)

/-- The turn that comes next, and the state that has taken it (log 1). -/
def State.turn (s : State) : Turn × State :=
  match s.agenda with
  | t :: rest => (t, { s with agenda := rest })
  | [] => (Config.nextTurn s.freeCtr, { s with freeCtr := s.freeCtr + 1 })

/-! ### Strands -/

/-- Whether the strands of a tile may issue: its task is RUNNING and neither its end nor a freeze has been asked for, or it is an armature core
that runs firmware (01 R14, 02 R44, R51, 11 R264). -/
def State.strandsIssue (s : State) (d site : Nat) : Bool :=
  match (s.tile d site).task.bind (s.record d) with
  | some r => r.state == .running && r.endReq == .none
  | none => (s.tile d site).firmware.isSome

/-- Whether a word's opcode is that of LI, which takes a second word (14 R294). -/
def isLi (w : Nat) : Bool := bits w 25 7 == 0x22

/-- The instruction at the PC of the strand that has the move: a fetch fault, a word that fails a check of R293, or the decoded
instruction (04 R95, R96, 14 R293). -/
inductive Fetched where
  | fault
  | ill (detail : Nat) (w : Word)
  | instr (i : Instr)

/-- DETAIL of a word that the strand's decoder rejects; ra of ENRD is a bit that must be zero in a compute strand, which is judged before the
order field (13 R290, 14 R293). -/
def State.failDetail (s : State) (e : DecodeFail) (w : Nat) : Nat :=
  if e == .orderField && bits w 25 7 == 0x26 && bits w 15 5 != 0 && !s.me.prv then DecodeFail.reserved.detail else e.detail

/-- Fetches and decodes at the PC (04 R95, R96, 14 R293). -/
def State.fetch (s : State) : Fetched :=
  let t := s.here
  let pc := s.me.pc
  let w := t.codeWord pc.toNat
  let w2 := t.codeWord (pc.toNat + 4)
  if !t.targetOk pc || w.psn || (isLi w.bits.toNat && (w2.psn || decide (t.codeLen ≤ pc.toNat + 4))) then .fault
  else match decode w.bits.toNat w2.bits.toNat with
    | .ok i => .instr i
    | .error e => .ill (s.failDetail e w.bits.toNat) (w.bits.setWidth 64)

/-- A c-cycle of a tile: the issue slot of the strand that the count of c-cycles names (04 R81); a strand that yielded forfeits one slot (04
R106). -/
def State.strandMove (s : State) (d site : Nat) : Move :=
  let n := (s.tile (d % 8) (site % 144)).cycle
  let s := { s.modTile (d % 8) (site % 144) fun t => { t with cycle := (n + 1) % 4 } with cur := ⟨d % 8, site % 144, n % 4, 0, 0⟩ }
  let x := s.me
  if !s.strandsIssue (d % 8) (site % 144) || x.run != .run || x.stall then .idle s
  else if x.yielded then .idle (s.modMe fun x => { x with yielded := false })
  else match s.fetch with
    | .fault => .run .fetchFault s
    | .ill detail w => .idle (s.trapMe 1 detail w)
    | .instr i => .run i s

/-! ### The other agents -/

/-- An a-cycle of a PE: its BARN slots register their arrivals, and its lowest slot that triggers fires (05 R117, 15 R331). -/
def State.peMove (s : State) (d site pe : Nat) : Move :=
  let s := { s.registerArrivals (d % 8) (site % 144) (pe % 128) with cur := ⟨d % 8, site % 144, 0, pe % 128, 0⟩ }
  if !s.mayFire (d % 8) (site % 144) (pe % 128) then .idle s
  else match (s.here.pe (pe % 128)).firingSlot with
    | none => .idle s
    | some (k, w) => match decodePe w.toNat with
      | none => .idle s
      | some i => .run i (State.modHere { s with cur := ⟨d % 8, site % 144, 0, pe % 128, k⟩ } fun t => t.settleRaces .grid)

/-- Whether the Weniz throttles an F-die: for its temperature, or because module power exceeds the cap (01 R21, 13 R281). -/
def Plinth.throttles (p : Plinth) (d : Nat) : Bool := p.hot.contains d || p.capped
/-- The reserved tiles of a die's partitions, added to those of the a-cycles before: a region shared by a splice counts once, a FROZEN task has no
region (13 R285). -/
def State.tileTimes (s : State) (d : Nat) : Tbl Nat :=
  ((s.die d).records.filter fun e => e.2.state.holdsRegion && e.2.pred.isNone).foldl
    (fun t e => tput t e.2.part.toNat (tgetD t e.2.part.toNat 0 + e.2.area)) (s.die d).tileTime
/-- An a-cycle of a die begins: while the Weniz throttles the die it withholds the firing permission of some a-cycles, on a duty pattern that it
sets, which is a free choice (01 R21, log 60). -/
def State.aCycle (s : State) (d : Nat) : State :=
  let s := s.modDie d fun f => { f with tileTime := s.tileTimes d }
  if s.plinth.throttles d then
    let (k, s) := s.pick 2
    s.modDie d fun f => { f with withheld := k == 1 }
  else s.modDie d fun f => { f with withheld := false }

/-! ### Packets -/

/-- The nodes through which a packet may travel: the dies that serve, its own node and its destination, and the Plinth only at an end (08
R199). -/
def State.transit (s : State) (node dst : Nat) : List Nat := (List.range 17).filter fun n => s.liveDies.contains n || n == node || n == dst
/-- The next hops of the shortest paths from a node to another (08 R199). -/
def State.nextHops (s : State) (node dst : Nat) : List Nat :=
  let nodes := s.transit node dst
  match (List.range 17).find? fun k => (reach nodes k [dst]).contains node with
  | some (k + 1) => (reach nodes k [dst]).filter fun n => linkedDies n node
  | _ => []
/-- A packet takes one hop, on the virtual channel of its hop number; among next hops of equal length the load decides, which is a free choice
(08 R199, log 2). One that no path leads on stands at its destination. -/
def State.hopTo (s : State) (n : NetPacket) : NetPacket × State :=
  match s.nextHops n.node n.p.dst with
  | [] => ({ n with node := n.p.dst }, s)
  | l =>
    let (k, s) := s.pick l.length
    ({ n with node := (lget l k).getD n.p.dst, via := n.node, hop := n.hop + 1 }, s)

/-- The memory tile that a packet's word lies in (08 R211). -/
def NetPacket.tile (n : NetPacket) : Nat := (n.p.line * 128 + n.p.boff) / 0x200000
/-- The input port of a memory tile for the packets that come from a node: the place of the node among the links of its M-die (08 R213). -/
def inputPort (node via : Nat) : Nat := ((List.range 8).filter fun d => linkedDies d node).findIdx (· == via) % 4
/-- Whether a packet waits for room: a request at a full port of its memory tile, a reply in the reorder buffer of its port behind an older
request of its stream (08 R213). -/
def State.stays (s : State) (n : NetPacket) : Bool :=
  if n.opc = 16 then n.node == n.p.dst && decide (32 ≤ (tgetD s.tilePorts (n.tile * 4 + inputPort n.node n.via) []).length)
  else if n.opc = 17 then n.node == n.p.src && n.hop == 0 && (s.accessOf n.p.dst n.p.txn).any s.heldBack
  else false

/-- What a packet does at its destination: one for an F-die that is offline or failed finds no one, a decrement message is decoded as what it
carries, a memory-tile request joins the queue of its port, any other is taken as its row (08 R200, R213, 03 R75, 11 R269). -/
def State.deliverPacket (s : State) (n : NetPacket) : Move :=
  if n.p.dst < 8 ∧ 2 ≤ s.dieState n.p.dst then .idle (s.deadPacket n)
  else if n.opc = opcDecr ∧ !n.p.malformed n.reserved ∧ n.p.dst < 8 then .run (decodeDecr n.p n.w0 n.w1) s
  else if n.opc = 16 ∧ !n.p.malformed n.reserved then
    let k := n.tile * 4 + inputPort n.node n.via
    .idle { s with tilePorts := tput s.tilePorts k (tgetD s.tilePorts k [] ++ [n]) }
  else .run (decodePacket n.opc n.reserved n.p) s

/-- A packet takes a hop, waits, or has arrived (08 R199, R200, R213). -/
def State.packetMove (s : State) (k : Nat) : Move :=
  match lget s.net k with
  | none => .idle s
  | some n =>
    if s.stays n then .idle s
    else if n.node ≠ n.p.dst then
      let (x, s) := s.hopTo n
      .idle { s with net := lset s.net k x }
    else State.deliverPacket { s with net := ldel s.net k } n

/-- The bank that a memory-tile request works on: 8-byte word `w` lies in bank `w` mod 16 (08 R211). -/
def NetPacket.bank (n : NetPacket) : Nat := (n.p.line * 128 + n.p.boff) / 8 % 16
/-- The replies that wait in the reorder buffer of a port of a memory tile (08 R213). -/
def State.reorder (s : State) (tile port : Nat) : Nat :=
  (s.net.filter fun n => n.opc == 17 && n.hop == 0 && n.node == n.p.src && n.via == port && n.tile == tile).length
/-- The request at the head of a port of a memory tile that a bank may take: it lies in the bank, and the reorder buffer has room for a reply
that must wait (08 R213). -/
def State.portHead (s : State) (tile bank port : Nat) : Option NetPacket :=
  ((tgetD s.tilePorts (tile * 4 + port) []).head?).filter fun n =>
    n.bank == bank && (decide (s.reorder tile port < 64) || !(s.accessOf n.p.src n.p.txn).any s.heldBack)
/-- An a-cycle of a memory tile's bank: it takes one request, from the ports in rotating order, and starts one port later on the next (08
R213). -/
def State.bankMove (s : State) (tile bank : Nat) : Move :=
  let key := tile * 16 + bank
  let start := tgetD s.bankTurn key 0
  let s := { s with bankTurn := tput s.bankTurn key ((start + 1) % 4) }
  let order := (List.range 4).map fun i => (start + i) % 4
  match order.findSome? fun port => (s.portHead tile bank port).map fun n => (port, n) with
  | none => .idle s
  | some (port, n) =>
    let k := tile * 4 + port
    let s := { s with tilePorts := tput s.tilePorts k (tgetD s.tilePorts k []).tail }
    let s := match s.accessOf n.p.src n.p.txn with
      | some a => s.modAccess a.id fun b => { b with port := port }
      | none => s
    .run (decodePacket n.opc n.reserved n.p) s

/-! ### The host -/

/-- Doubleword `i` of the command at the head of the command ring (12 R271). -/
def State.commandWord (s : State) (i : Nat) : Word :=
  BitVec.ofNat 64 (mread s.hostMem (s.plinth.cmdBase + s.plinth.cmdHead % s.plinth.cmdSize * 64 + 8 * i) 8)

/-- The Plinth's next host command: an OFFLINE in progress goes on; then the oldest command that waits in order; then the next of the ring
(12 R271, R272). -/
def State.commandMove (s : State) : Move :=
  let s := s.continueOffline
  let p := s.plinth
  match p.progress, p.queue with
  | none, (opc, c) :: _ => .run (decodeCommand opc c) s
  | _, _ =>
    if p.mayPerform && decide (p.cmdHead < p.cmdTail) then
      let w := s.commandWord
      let (opc, c) := commandFields (w 0) (w 1) (w 2) (w 3) (w 4) (w 5) (w 6) (w 7)
      .run (decodeCommand opc c) s
    else .idle s

/-- The race of entry `k` of a tile ends: its writer's bytes have been performed; a strand's store completes (04 R93, 09 R230). -/
def State.settleRace (s : State) (d site k : Nat) : State :=
  match lget (s.tile d site).races k with
  | none => s
  | some r =>
    let s := s.modTile d site fun t => t.settleRaces r.writer
    match r.writer with
    | .store id => match s.access.find? fun a => a.id == id && a.phase == .scratch with
      | some a => s.finish a
      | none => s
    | .grid | .engine _ | .island => s

/-- What a turn moves (log 1). -/
def State.move (s : State) : Turn → Move
  | .strand d site => s.strandMove d site
  | .pe d site pe => s.peMove d site pe
  | .engine d site => .idle (s.tileTurn (d % 8) (site % 144))
  | .permission d => .idle (s.aCycle (d % 8))
  | .packet k => s.packetMove k
  | .bank tile bank => s.bankMove (tile % 512) (bank % 16)
  | .command => s.commandMove
  | .event i => if isEvent i then .run i s else .idle s
  | .hostWrite a bs => .idle { s with hostMem := mputs s.hostMem a bs }
  | .recordRead die rec => .idle (s.readRecord die rec)
  | .records => .idle s.makeRecords
  | .settle d site k => .idle (s.settleRace (d % 8) (site % 144) k)
  | .eventHead n => .idle (s.modPlinth fun p => { p with evtHead := n }).flushEvents

/-! ### Placing one instruction -/

/-- The launch record of a task of one tile that runs (log 6). -/
def Record.running : Record := { Record.blank with state := .running, w := 1, h := 1, bx := 0, by_ := 1 }

/-- A tile whose strand 0 fetches the two words at offset 0 (log 6). -/
def Tile.withWords (t : Tile) (w w2 : BitVec 32) : Tile :=
  { t with
    task := some 0, half := false, codeLen := 8, imem := tput (tput t.imem 0 ⟨w, true, false⟩) 1 ⟨w2, !isLi w.toNat, false⟩
    strands := vset t.strands 0 { vget t.strands 0 with run := .run, stall := false, yielded := false, pc := 0 }, cycle := 0 }

/-- The machine with an instruction where the strand that has the next turn fetches it: a task of one tile on F0, as its load would leave
it (log 6). -/
def State.placeWords (s : State) (w w2 : BitVec 32) : State :=
  { (s.setRecord 0 0 Record.running).modTile 0 12 fun t => t.withWords w w2 with agenda := [.strand 0 12] }

end Sys2Proof.Machine
end

