-- ==== Sys2Proof/Machine/Step.lean ====
section
/-! DEFINITION. One step of the machine: the turn that comes next moves what it names (log 1). -/
namespace Sys2Proof.Machine

/-- What an instruction that ran has done, with its activity counted (13 R285). -/
def State.metered (s : State) (turn : Turn) (i : Instr) : Out → Out
  | .next t => .next (s.meter t turn (some i))
  | .fault f => .fault f
  | .refused r => .refused r

/-- One step: the move, and the counts of the activity that energy is attributed by (log 1, 13 R285). -/
def step (s : State) : Host.Outcome State Fault Refusal :=
  match s.turn.2.move s.turn.1 with
  | .idle t => .next (s.turn.2.meter t s.turn.1 none)
  | .run i t => s.turn.2.metered s.turn.1 i (exec i t)

/-- The state whose next step fetches and runs the instruction whose bits are `w`: the first word is bits [31:0], the second bits [63:32]
(log 6). -/
def State.withFetchWord (s : State) (_nbits w : Nat) : State := s.placeWords (BitVec.ofNat 32 w) (BitVec.ofNat 32 (w / 2 ^ 32))

end Sys2Proof.Machine
end

