-- ==== Sys2Proof/Safety.lean ====
section
/-! DEFINITION. What statements say of a run: completion, what an issued instruction leaves, and what stays the same. -/
namespace Sys2Proof.Machine

/-- The meaning of an instruction answers a next state. -/
def Completes (i : Instr) (s : State) : Prop := ∃ t, exec i s = .next t

/-- The byte memories of a state keep their canonical form: local HBM, host memory and every scratchpad. -/
def State.memoryWf (s : State) : Bool := s.hbm.wf && s.hostMem.wf && s.tiles.all fun e => e.2.spad.wf

/-- What holds of every handle entry (06 R142 to R144): an unbound one is FREE without a length, a FREE one counts nothing, only one in DRAINING is
read, by at most 15, and a bound one has an aligned extent of the scratchpad. -/
def Handle.wf (e : Handle) : Bool :=
  (e.bnd || (e.state == .free && e.len == 0))
    && (e.state != .free || (e.filled == 0 && e.rd == 0 && !e.psn && !e.ws && e.swz == 0))
    && (e.state == .draining || e.rd == 0) && decide (e.rd ≤ 15)
    && (!e.bnd || (decide (64 ≤ e.len) && e.len % 64 == 0 && e.base % 64 == 0 && decide (e.base + e.len ≤ 2097152)))

/-- Every handle of every tile is well formed, and an HFREE waits only for FREE (06 R143). -/
def State.HandlesWf (s : State) : Prop :=
  ∀ d site, (∀ h, ((s.tile d site).handle h).wf = true) ∧ ∀ w ∈ (s.tile d site).hwaits, w.unbind = true → w.want = .free

/-- The tokens of a line at its home, in the die caches and in packets on their way (08 R202). -/
def State.tokensOf (s : State) (line : Nat) : Nat :=
  (s.home line).tok + ((List.range 8).map fun d => (s.cacheLine d line).tok).sum
    + ((s.net.filter fun n => (n.opc == 3 || n.opc == 4) && n.p.line == line).map fun n => n.p.tok).sum

/-- The owner token is a token: whoever holds it holds at least one (08 R196, R200). -/
def State.OwnersHold (s : State) : Prop :=
  ∀ line, ((s.home line).own = true → (s.home line).tok ≠ 0) ∧ ∀ d < 8, (s.cacheLine d line).own = true → (s.cacheLine d line).tok ≠ 0

/-- A reachable state: a number of steps leads from reset to it. -/
inductive Reachable : State → Prop where
  | reset : Reachable State.reset
  | step {s t : State} : Reachable s → Machine.step s = .next t → Reachable t

/-! ### Words -/

/-- A word of format A from its fields (14 R291, R296). -/
def formatA (op rd ra rb fn ord : Nat) : Nat := op * 2 ^ 25 + rd * 2 ^ 20 + ra * 2 ^ 15 + rb * 2 ^ 10 + fn * 2 ^ 6 + ord
/-- A word of format I from its fields (14 R291, R296). -/
def formatI (op rd ra imm : Nat) : Nat := op * 2 ^ 25 + rd * 2 ^ 20 + ra * 2 ^ 15 + imm

/-! ### Issue -/

/-- What an instruction that changes only its strand does when the strand is ready: the strand changes by `f` and the PC passes the
instruction. -/
def StrandResult (i : Instr) (regs : List Reg) (f : State → Strand → Strand) : Prop :=
  ∀ s : State, s.me.ready regs Order.none = true → exec i s = .next (s.modMe fun t => { f s t with pc := t.pc + 4 })

/-- What an instruction with a register result does when its strand is ready: the destination takes a value of which `P` holds, the PC
passes the instruction, and nothing else changes. -/
def RegResult (i : Instr) (regs : List Reg) (d : Reg) (P : State → Word → Prop) : Prop :=
  ∀ s : State, s.me.ready regs Order.none = true →
    ∃ v, P s v ∧ exec i s = .next (s.modMe fun t => { t.wr d v with pc := t.pc + 4 })

/-- What an instruction with a predicate result does when its strand is ready. -/
def PredResult (i : Instr) (regs : List Reg) (p : Fin 8) (P : State → Bool → Prop) : Prop :=
  ∀ s : State, s.me.ready regs Order.none = true →
    ∃ v, P s v ∧ exec i s = .next (s.modMe fun t => { t with p := predSet t.p p.val v, pc := t.pc + 4 })

/-- A strand that may issue a memory instruction: ready, with no acquire outstanding (04 R81, 09 R223). -/
def State.readyMem (s : State) (regs : List Reg) (o : Order) : Bool := s.me.ready regs o && s.me.acquires == 0
/-- A strand that may issue a command or a store: also no release fence outstanding (09 R224). -/
def State.readyCommand (s : State) (regs : List Reg) (o : Order) : Bool := s.readyMem regs o && !s.fenced

/-! ### Accesses -/

/-- What issuing an access does: ALIGN with DETAIL `logn` for a misaligned address, the window's own faults, otherwise the access is launched,
to the window or to translation (08 R192, 16 R374). -/
def State.Starts (s : State) (i : Instr) (x : Access) (logn : Nat) : Prop :=
  (x.va % 2 ^ logn ≠ 0 → exec i s = .next (s.trapMe 4 logn (BitVec.ofNat 64 x.va)))
  ∧ (x.va % 2 ^ logn = 0 → inWindow x.va = false → exec i s = .next ((s.launch x).translate x))
  ∧ (x.va % 2 ^ logn = 0 → inWindow x.va = true → s.windowFault x.part x.va = none → exec i s = .next ((s.launch x).enter x .window))
  ∧ ∀ r, x.va % 2 ^ logn = 0 → inWindow x.va = true → s.windowFault x.part x.va = some r → exec i s = .next (s.trapMe r.cause r.detail r.eval)

/-- What issuing a memory-tile operation does: PERM outside the window, the window's own faults, ALIGN, ILL with DETAIL 0x05 and EVAL
`bad` where the operand check `ok` fails, otherwise the access is launched to the window (15 R328, 18 R431). -/
def State.StartsWindow (s : State) (i : Instr) (bad : Word) (ok : Bool) (x : Access) (op logn : Nat) : Prop :=
  let va := BitVec.ofNat 64 x.va
  let y := { x with kind := AccessKind.window op, plain := false }
  (inWindow x.va = false → exec i s = .next (s.trapMe 6 0x11 va))
  ∧ (∀ r, inWindow x.va = true → s.windowFault x.part x.va = some r → exec i s = .next (s.trapMe r.cause r.detail r.eval))
  ∧ (inWindow x.va = true → s.windowFault x.part x.va = none → x.va % 2 ^ logn ≠ 0 → exec i s = .next (s.trapMe 4 logn va))
  ∧ (inWindow x.va = true → s.windowFault x.part x.va = none → x.va % 2 ^ logn = 0 → ok = false →
      exec i s = .next (s.trapMe 1 5 bad))
  ∧ (inWindow x.va = true → s.windowFault x.part x.va = none → x.va % 2 ^ logn = 0 → ok = true →
      exec i s = .next ((s.launch y).enter y .window))

/-! ### Firings -/

/-- Whether the PE that has the move fires a slot whose word has opcode `op` and fields `f` (05 R116, R117). -/
def State.fires (s : State) (op : Nat) (f : PeWord) : Bool :=
  let p := s.here.pe s.cur.pe
  s.mayFire s.cur.die s.cur.site s.cur.pe && p.trigger op f && p.opCondition op s.cur.slot

/-- What a firing gives when its operands are well paired and no poison is consumed: the result `r` is applied to the PE (05 R117). -/
def FiringResult (i : Instr) (op : Nat) (f : PeWord) (r : Ctx → Fired) : Prop :=
  ∀ s : State, s.fires op f = true →
    let c := s.firingCtx op f (op == 0x16)
    c.a.ok = true → c.b.ok = true → (f.pact = 3 → (r c).psn ≠ 0 → constantFlag op = true) →
      exec i s = .next (s.applyFiring c (r c) (if op = 0x16 then [f.sb.val - 8] else [])).1

/-- What a firing with a result lane by lane gives: a word of whose lane `i` the proposition `P` holds, with the flag that `g` gives. -/
def LaneResult (i : Instr) (op : Nat) (f : PeWord) (P : Ctx → Nat → Nat → Prop) (g : Ctx → QWord → Bool) : Prop :=
  ∀ s : State, s.fires op f = true →
    let c := s.firingCtx op f false
    c.a.ok = true → c.b.ok = true → (f.pact = 3 → (c.result 0 false).psn ≠ 0 → constantFlag op = true) →
      ∃ w : QWord, (∀ n < c.fmt.lanes, P c n (lane c.fmt w n)) ∧ exec i s = .next (s.applyFiring c (c.result w (g c w)) []).1

/-! ### Host commands -/

/-- The device once it has taken a command with the expected SEQ from the command ring (12 R271, R272). -/
def State.accept (s : State) (c : Cmd) : State := s.modPlinth fun p => { p with
  cmdHead := p.cmdHead + 1, lastTs := c.ts, expectSeq := nextSeq c.seq.toNat, seqWrapped := p.seqWrapped || c.seq.toNat == 0xFFFFFFFF }

/-- Whether a command is performed as it arrives: the Plinth may perform one, none is in progress or waits, the SEQ is the expected one and
no reserved bit is set (12 R271, R272). -/
def State.performs (s : State) (c : Cmd) : Bool :=
  s.plinth.mayPerform && s.plinth.progress.isNone && s.plinth.queue.isEmpty && c.seq.toNat == s.plinth.expectSeq && c.reserved == 0

/-- What a command that is performed as it arrives does where `P` holds: it changes the accepting device as `f` says and completes with
`f`'s status and results. -/
def CommandResult (i : Instr) (opc : Nat) (c : Cmd) (P : State → Prop) (f : State → State × Nat × Word × Word) : Prop :=
  ∀ s : State, s.performs c = true → P (s.accept c) →
    exec i s = .next ((f (s.accept c)).1.complete opc c.seq.toNat (f (s.accept c)).2.1 (f (s.accept c)).2.2.1 (f (s.accept c)).2.2.2)

end Sys2Proof.Machine
end

