-- ==== Sys2Proof/Certificates/Slice0/Obligations.lean ====
section
/-! DEFINITION. The statements about the model, each a proposition; OBLIGATIONS.json lists them. -/
section
open Sys2Proof Sys2Proof.Machine

/-- R81, R83, R91: what `Strand.ready`, the premise of the completion statements, says; one instruction of each issue form is named. -/
def Obligations.ReadinessAndForfeit : Prop :=
  (∀ (t : Strand) (regs : List Reg) (o : Order),
    t.ready regs o = true ↔
      t.run = .run ∧ t.stall = false ∧ (∀ r ∈ regs, t.busy.getLsbD r.val = false) ∧ (o.wait = 0 ∨ vget t.sb o.wait.val = 0)
        ∧ (o.set = 0 ∨ vget t.sb o.set.val < 63))
    ∧ ∀ (s : State) (d a b : Reg) (o : Order),
    (∀ u, s.me.ready [d, a, b] Order.none = false → exec (.add d a b) s = .next s ∧ exec (.div d a b u) s = .next s)
    ∧ (∀ t, s.me.ready [] Order.none = false → exec (.b t) s = .next s ∧ exec .halt s = .next s ∧ exec .sleep s = .next s)
    ∧ (∀ n, s.me.ready [] Order.none = false → exec (.svc n) s = .next s ∧ exec (.trap n) s = .next s ∧ exec (.brk n) s = .next s
        ∧ exec .eret s = .next s)
    ∧ (∀ r, s.me.ready [d] Order.none = false → exec (.srd d r) s = .next s ∧ exec (.swr d r) s = .next s)
    ∧ (∀ z e, s.me.ready [d, a] o = false → exec (.ldl d a z e o) s = .next s ∧ exec (.ldg d a z e o) s = .next s)
    ∧ (∀ z e, s.me.ready [d, a] o = false → exec (.stl d a z e o) s = .next s ∧ exec (.stg d a z e o) s = .next s)
    ∧ (∀ q c, s.me.ready [] o = false → exec (.fence q c o) s = .next s)
    ∧ (s.me.ready [d, a, b] o = false → exec (.tsb d a b o) s = .next s ∧ exec (.halloc d a b o) s = .next s)

/-- R321, R428, R380, R352, R398: the values, over the integers that the operands hold. -/
def Obligations.IntegerArithmeticResults : Prop :=
  ∀ (d a b : Reg) (u : Bool),
    StrandResult .nop [] (fun _ t => t)
    ∧ RegResult (.add d a b) [d, a, b] d (fun s v => v.toNat = ((s.me.rd a).toNat + (s.me.rd b).toNat) % 2 ^ 64)
    ∧ RegResult (.sub d a b) [d, a, b] d (fun s v => v.toNat = ((s.me.rd a).toNat + 2 ^ 64 - (s.me.rd b).toNat) % 2 ^ 64)
    ∧ RegResult (.mul d a b) [d, a, b] d (fun s v => v.toNat = (s.me.rd a).toNat * (s.me.rd b).toNat % 2 ^ 64)
    ∧ RegResult (.mulh d a b u) [d, a, b] d (fun s v =>
        if u then v.toNat = (s.me.rd a).toNat * (s.me.rd b).toNat / 2 ^ 64 else v.toInt = (s.me.rd a).toInt * (s.me.rd b).toInt / 2 ^ 64)
    ∧ RegResult (.div d a b u) [d, a, b] d (fun s v =>
        if s.me.rd b = 0 then v = 0xFFFFFFFFFFFFFFFF
        else if u then v.toNat = (s.me.rd a).toNat / (s.me.rd b).toNat
        else if (s.me.rd a).toInt = -2 ^ 63 ∧ (s.me.rd b).toInt = -1 then v.toInt = -2 ^ 63
        else v.toInt = (s.me.rd a).toInt.tdiv (s.me.rd b).toInt)
    ∧ RegResult (.rem d a b u) [d, a, b] d (fun s v =>
        if s.me.rd b = 0 then v = s.me.rd a
        else if u then v.toNat = (s.me.rd a).toNat % (s.me.rd b).toNat
        else v.toInt = (s.me.rd a).toInt.tmod (s.me.rd b).toInt)
    ∧ RegResult (.min d a b u) [d, a, b] d (fun s v =>
        if u then v.toNat = min (s.me.rd a).toNat (s.me.rd b).toNat else v.toInt = min (s.me.rd a).toInt (s.me.rd b).toInt)
    ∧ RegResult (.max d a b u) [d, a, b] d (fun s v =>
        if u then v.toNat = max (s.me.rd a).toNat (s.me.rd b).toNat else v.toInt = max (s.me.rd a).toInt (s.me.rd b).toInt)

/-- R321, R323, R380, R400, R420, R443: the result bit by bit. -/
def Obligations.LogicAndShiftResults : Prop :=
  ∀ (d a b : Reg) (imm : BitVec 15) (n : Fin 64),
    RegResult (.and d a b) [d, a, b] d (fun s v => ∀ k < 64, v.getLsbD k = ((s.me.rd a).getLsbD k && (s.me.rd b).getLsbD k))
    ∧ RegResult (.or d a b) [d, a, b] d (fun s v => ∀ k < 64, v.getLsbD k = ((s.me.rd a).getLsbD k || (s.me.rd b).getLsbD k))
    ∧ RegResult (.xor d a b) [d, a, b] d (fun s v => ∀ k < 64, v.getLsbD k = ((s.me.rd a).getLsbD k != (s.me.rd b).getLsbD k))
    ∧ RegResult (.addi d a imm) [d, a] d (fun s v => v = s.me.rd a + BitVec.ofInt 64 imm.toInt)
    ∧ RegResult (.andi d a imm) [d, a] d (fun s v => ∀ k < 64, v.getLsbD k = ((s.me.rd a).getLsbD k && imm.getLsbD k))
    ∧ RegResult (.ori d a imm) [d, a] d (fun s v => ∀ k < 64, v.getLsbD k = ((s.me.rd a).getLsbD k || imm.getLsbD k))
    ∧ RegResult (.xori d a imm) [d, a] d (fun s v => ∀ k < 64, v.getLsbD k = ((s.me.rd a).getLsbD k != imm.getLsbD k))
    ∧ RegResult (.shl d a b) [d, a, b] d (fun s v =>
        let n := (s.me.rd b).toNat % 64
        ∀ k < 64, v.getLsbD k = (decide (n ≤ k) && (s.me.rd a).getLsbD (k - n)))
    ∧ RegResult (.shr d a b) [d, a, b] d (fun s v => ∀ k < 64, v.getLsbD k = (s.me.rd a).getLsbD (k + (s.me.rd b).toNat % 64))
    ∧ RegResult (.sra d a b) [d, a, b] d (fun s v =>
        ∀ k < 64, v.getLsbD k = (s.me.rd a).getLsbD (min (k + (s.me.rd b).toNat % 64) 63))
    ∧ RegResult (.shli d a n) [d, a] d (fun s v => ∀ k < 64, v.getLsbD k = (decide (n.val ≤ k) && (s.me.rd a).getLsbD (k - n.val)))
    ∧ RegResult (.shri d a n) [d, a] d (fun s v => ∀ k < 64, v.getLsbD k = (s.me.rd a).getLsbD (k + n.val))
    ∧ RegResult (.srai d a n) [d, a] d (fun s v => ∀ k < 64, v.getLsbD k = (s.me.rd a).getLsbD (min (k + n.val) 63))

/-- R342 and R404, encoding and effect. -/
def Obligations.BitCountResults : Prop :=
  (∀ w w2 : Nat, w < 2 ^ 32 → ∀ i,
      (bits w 25 7 = 0x1A → (decode w w2 = .ok i ↔ ∃ d a : Reg, w = formatA 0x1A d.val a.val 0 0 0 ∧ i = .clz d a))
      ∧ (bits w 25 7 = 0x1B → (decode w w2 = .ok i ↔ ∃ d a : Reg, w = formatA 0x1B d.val a.val 0 0 0 ∧ i = .ctz d a))
      ∧ (bits w 25 7 = 0x1C → (decode w w2 = .ok i ↔ ∃ d a : Reg, w = formatA 0x1C d.val a.val 0 0 0 ∧ i = .popc d a)))
  ∧ ∀ d a : Reg,
    RegResult (.clz d a) [d, a] d (fun s v =>
      if s.me.rd a = 0 then v = 64
      else v.toNat < 64 ∧ (s.me.rd a).getLsbD (63 - v.toNat) = true ∧ ∀ k, 63 - v.toNat < k → (s.me.rd a).getLsbD k = false)
    ∧ RegResult (.ctz d a) [d, a] d (fun s v =>
      if s.me.rd a = 0 then v = 64
      else v.toNat < 64 ∧ (s.me.rd a).getLsbD v.toNat = true ∧ ∀ k < v.toNat, (s.me.rd a).getLsbD k = false)
    ∧ RegResult (.popc d a) [d, a] d (fun s v => v.toNat = ((List.range 64).map fun k => ((s.me.rd a).getLsbD k).toNat).sum)

/-- R336 and R419, encoding and effect; pos and len are the fields of the immediate. -/
def Obligations.BitFieldResults : Prop :=
  (∀ (w w2 : Nat), w < 2 ^ 32 →
      let p := bits w 6 6
      let n := bits w 0 6 + 1
      (bits w 25 7 = 0x1D → decode w w2 =
        if bits w 13 2 = 0 ∧ p + n ≤ 64 then .ok (.bfx (regOf w 20) (regOf w 15) (flagOf w 12) (Fin.ofNat 64 p) (Fin.ofNat 64 (n - 1)))
        else .error .reserved)
      ∧ (bits w 25 7 = 0x1E → decode w w2 =
        if bits w 12 3 = 0 ∧ p + n ≤ 64 then .ok (.bfi (regOf w 20) (regOf w 15) (Fin.ofNat 64 p) (Fin.ofNat 64 (n - 1)))
        else .error .reserved))
  ∧ (DecodeFail.reserved.detail = 2)
  ∧ (∀ (d a : Reg) (z : Size), z ≠ .d → decode (formatA 0x1F d.val a.val 0 z.code 0) 0 = .ok (.sext d a z))
  ∧ (∀ d a : Reg, decode (formatA 0x1F d.val a.val 0 3 0) 0 = .error .reserved)
  ∧ ∀ (d a : Reg) (x : Bool) (p l : Fin 64) (z : Size), p.val + (l.val + 1) ≤ 64 → z ≠ .d →
    RegResult (.bfx d a x p l) [d, a] d (fun s v => ∀ k < 64, v.getLsbD k =
      if k ≤ l.val then (s.me.rd a).getLsbD (p.val + k) else x && (s.me.rd a).getLsbD (p.val + l.val))
    ∧ RegResult (.bfi d a p l) [d, a] d (fun s v => ∀ k < 64, v.getLsbD k =
      if p.val ≤ k ∧ k ≤ p.val + l.val then (s.me.rd a).getLsbD (k - p.val) else (s.me.rd d).getLsbD k)
    ∧ RegResult (.sext d a z) [d, a] d (fun s v => ∀ k < 64, v.getLsbD k = (s.me.rd a).getLsbD (min k (8 * z.bytes - 1)))

/-- R343, R402, R417, R84: the conditions over the integers that the operands hold. -/
def Obligations.CompareSelectResults : Prop :=
  (∀ p : BitVec 8, predGet p 0 = true ∧ ∀ v, predSet p 0 v = p ∧ ∀ m n : Fin 8, n ≠ 0 → m ≠ n →
      predGet (predSet p n.val v) n.val = v ∧ predGet (predSet p n.val v) m.val = predGet p m.val)
  ∧ ∀ (p q : Fin 8) (d a b : Reg) (imm : BitVec 11) (m n : Fin 8),
    let less := fun (c : Cond) (x y : Int) (v : Bool) => v = match c with
      | .eq => decide (x = y) | .ne => decide (x ≠ y) | .lt => decide (x < y)
      | .le => decide (x ≤ y) | .gt => decide (y < x) | .ge => decide (y ≤ x)
    (∀ c, PredResult (.cmp p a b c false) [a, b] p (fun s v => less c (s.me.rd a).toInt (s.me.rd b).toInt v))
    ∧ (∀ c, PredResult (.cmp p a b c true) [a, b] p (fun s v => less c (s.me.rd a).toNat (s.me.rd b).toNat v))
    ∧ (∀ c, PredResult (.cmpi p a c false imm) [a] p (fun s v => less c (s.me.rd a).toInt imm.toInt v))
    ∧ (∀ c, PredResult (.cmpi p a c true imm) [a] p (fun s v => less c (s.me.rd a).toNat imm.toNat v))
    ∧ RegResult (.sel d a b q) [d, a, b] d (fun s v => v = if predGet s.me.p q.val then s.me.rd a else s.me.rd b)
    ∧ (∀ f, PredResult (.plog p m n f) [] p (fun s v =>
        let x := predGet s.me.p m.val
        let y := predGet s.me.p n.val
        v = match f with
          | .and => x && y | .or => x || y | .xor => x ^^ y | .andn => x && !y | .orn => x || !y | .not => !x))

/-- R384, R376, R292, R440, R45, R403: values and PC. -/
def Obligations.MoveResults : Prop :=
  ∀ (d a : Reg) (imm : BitVec 15) (v : BitVec 52) (n : Fin 6),
    RegResult (.mov d a) [d, a] d (fun s v => v = s.me.rd a)
    ∧ RegResult (.lis d imm) [d] d (fun _ v => v.toInt = imm.toInt)
    ∧ (∀ s : State, s.me.ready [d] Order.none = true →
        exec (.li d v) s = .next (s.modMe fun t => { t.wr d (BitVec.ofInt 64 v.toInt) with pc := t.pc + 8 }))
    ∧ RegResult (.widf d n) [d] d (fun s v =>
        let width := fun k => bits s.here.widw.toNat (7 * k) 7
        v.toNat = bits s.me.wid.toNat ((List.range n.val).map width).sum (width n.val))
    ∧ RegResult (.pmovToRegister d) [d] d (fun s v => v.toNat < 256 ∧ ∀ k < 8, v.getLsbD k = predGet s.me.p k)
    ∧ (∀ s : State, s.me.ready [a] Order.none = true →
        exec (.pmovToPredicates a) s = .next (s.modMe fun t => { t with p := ((s.me.rd a).setWidth 8 ||| 1), pc := t.pc + 4 }))

/-- R290: the two forms and the operand traps. -/
def Obligations.EnrdReadsAnAccount : Prop :=
  ∀ (d a : Reg) (s : State), s.me.ready [d, a] Order.none = true →
    let energy := fun (n : Nat) => BitVec.ofNat 64 ((lget s.plinth.accounts n).getD Account.init).energy
    let read := fun (n : Nat) => s.modMe fun t => { t.wr d (energy n) with pc := t.pc + 4 }
    let ill := fun (detail : Nat) => s.trapMe 1 detail (BitVec.ofNat 64 (formatA 0x26 d.val a.val 0 0 0))
    (s.me.prv = false → a = 0 → exec (.enrd d a) s = .next (read s.here.part.toNat))
    ∧ (s.me.prv = true → (s.me.rd a).toNat ≤ 16 → exec (.enrd d a) s = .next (read (s.me.rd a).toNat))
    ∧ (s.me.prv = true → 16 < (s.me.rd a).toNat → exec (.enrd d a) s = .next (ill 5))
    ∧ (s.me.prv = false → a ≠ 0 → exec (.enrd d a) s = .next (ill 2))

/-- The frame of the register-only instructions (R84, R98, R321 to R443); byte by byte for memory. -/
def Obligations.RegisterInstructionsFrame : Prop :=
  ∀ (s t : State) (d a b : Reg) (u : Bool) (c : Cond) (p m n : Fin 8) (f : PredOp) (imm : BitVec 15) (i11 : BitVec 11) (v : BitVec 52) (k : Fin 6),
    (∀ i ∈ [Instr.add d a b, .sub d a b, .mul d a b, .mulh d a b u, .div d a b u, .rem d a b u, .and d a b, .or d a b, .xor d a b,
        .min d a b u, .max d a b u, .sel d a b p, .mov d a, .lis d imm, .li d v, .widf d k],
      exec i s = .next t →
        (∀ r : Reg, r ≠ d → t.me.rd r = s.me.rd r) ∧ t.me.p = s.me.p)
    ∧ (∀ i ∈ [Instr.cmp p a b c u, .cmpi p a c u i11, .plog p m n f],
      exec i s = .next t → (∀ r : Reg, t.me.rd r = s.me.rd r) ∧ ∀ q : Fin 8, q ≠ p → predGet t.me.p q.val = predGet s.me.p q.val)
    ∧ (∀ i ∈ [Instr.add d a b, .sub d a b, .mul d a b, .mulh d a b u, .div d a b u, .rem d a b u, .and d a b, .or d a b, .xor d a b,
        .min d a b u, .max d a b u, .sel d a b p, .mov d a, .lis d imm, .li d v, .widf d k, .cmp p a b c u, .cmpi p a c u i11, .plog p m n f],
      exec i s = .next t →
        (∀ x, mget t.hbm x = mget s.hbm x) ∧ (∀ x, mget t.hostMem x = mget s.hostMem x)
        ∧ (∀ e q x, mget (t.tile e q).spad x = mget (s.tile e q).spad x)
        ∧ t.window = s.window ∧ t.access = s.access ∧ t.messages = s.messages ∧ t.dies = s.dies ∧ t.plinth = s.plinth ∧ t.cur = s.cur
        ∧ (∀ e q, tileKey e q ≠ tileKey s.cur.die s.cur.site → t.tile e q = s.tile e q)
        ∧ (∀ q, q % 4 ≠ s.cur.strand % 4 → t.here.strand q = s.here.strand q)
        ∧ t.me.k = s.me.k ∧ t.me.sb = s.me.sb ∧ t.me.prv = s.me.prv ∧ t.me.intrap = s.me.intrap ∧ t.me.imp = s.me.imp
        ∧ t.me.barbrk = s.me.barbrk ∧ t.me.causeCode = s.me.causeCode ∧ t.me.causeDetail = s.me.causeDetail ∧ t.me.epc = s.me.epc
        ∧ t.me.tvec = s.me.tvec ∧ t.me.eval = s.me.eval ∧ t.me.wid = s.me.wid ∧ t.me.run = s.me.run ∧ t.me.busy = s.me.busy)

/-- R96, R327, R338, R372, R408: the targets, the link register and the ITGT trap. The words of an armature tile are its firmware's (R14, log 2), so the statement gives the listed words only where the tile runs none. -/
def Obligations.ControlTransfers : Prop :=
  ∀ (s : State) (a : Reg) (t : BitVec 21) (p : Fin 8) (w : Bool),
    (∀ off : Word, s.here.targetOk off = true ↔ off.toNat % 4 = 0 ∧ off.toNat < s.here.codeLen ∧
      ∃ c, s.here.wordAt off.toNat = some c ∧ c.start = true)
    ∧ (s.here.firmware = none → ∀ off : Nat, s.here.wordAt off = tget s.here.imem ((if s.here.half then 16384 else 0) + off / 4))
    ∧ (let target : Word := s.me.pc + BitVec.ofInt 64 (4 * t.toInt)
      (s.me.ready [] Order.none = true →
        exec (.b t) s = .next (if s.here.targetOk target then s.modMe fun x => { x with pc := target } else s.trapMe 2 0 target))
      ∧ (s.me.ready [] Order.none = true →
        exec (.bc p w t) s = .next (
          if predGet s.me.p p.val = w then s.modMe fun x => { x with pc := x.pc + 4 }
          else if s.here.targetOk target then s.modMe fun x => { x with pc := target } else s.trapMe 2 0 target))
      ∧ (s.me.ready [31] Order.none = true →
        exec (.call t) s = .next (
          if s.here.targetOk target then s.modMe fun x => { x.wr 31 (x.pc + 4) with pc := target } else s.trapMe 2 0 target)))
    ∧ (let target := s.me.rd a
      (s.me.ready [a, 31] Order.none = true →
        exec (.callr a) s = .next (
          if s.here.targetOk target then s.modMe fun x => { x.wr 31 (x.pc + 4) with pc := target } else s.trapMe 2 0 target))
      ∧ (s.me.ready [a] Order.none = true →
        exec (.jmpr a) s = .next (if s.here.targetOk target then s.modMe fun x => { x with pc := target } else s.trapMe 2 0 target)))
    ∧ (let target := s.me.rd 31
      s.me.ready [31] Order.none = true →
        exec .ret s = .next (if s.here.targetOk target then s.modMe fun x => { x with pc := target } else s.trapMe 2 0 target))

/-- R85, R94, R439, R106. -/
def Obligations.WaitingInstructions : Prop :=
  ∀ (s : State) (m : BitVec 8) (q : BitVec 7),
    ((∀ n < 8, m.getLsbD n = true → (vget s.me.k n).full = true) → s.me.ready [] Order.none = true →
      exec (.waitk m) s = .next (s.modMe fun t => { t with pc := t.pc + 4 }))
    ∧ ((∃ n < 8, m.getLsbD n = true ∧ (vget s.me.k n).full = false) → exec (.waitk m) s = .next s)
    ∧ ((∀ n < 7, q.getLsbD n = true → vget s.me.sb (n + 1) = 0) → s.me.ready [] Order.none = true →
      exec (.sbwait q) s = .next (s.modMe fun t => { t with pc := t.pc + 4 }))
    ∧ ((∃ n < 7, q.getLsbD n = true ∧ vget s.me.sb (n + 1) ≠ 0) → exec (.sbwait q) s = .next s)
    ∧ (s.me.ready [] Order.none = true → exec .yield s = .next (s.modMe fun t => { t with yielded := true, pc := t.pc + 4 }))
    ∧ ∀ d q, let n := (s.tile (d % 8) (q % 144)).cycle
      let s' : State := { s.modTile (d % 8) (q % 144) (fun t => { t with cycle := (n + 1) % 4 }) with cur := ⟨d % 8, q % 144, n % 4, 0, 0⟩ }
      s'.strandsIssue (d % 8) (q % 144) = true → s'.me.run = .run → s'.me.stall = false → s'.me.yielded = true →
        s.strandMove d q = .idle (s'.modMe fun x => { x with yielded := false })

/-- R105, R106, R108, R423. `checkHalted` is the end of a region whose strands are all HALTED, which RegionEndsWhenAllHalted states. -/
def Obligations.StrandControl : Prop :=
  ∀ (s : State) (a b : Reg),
    let n := (s.me.rd a).toNat
    let s1 := s.modMe fun t => { t with pc := t.pc + 4 }
    (s.me.ready [a, b] Order.none = true → n ≤ 3 →
      exec (.strgo a b) s = .next (if (s1.here.strand n).run = .halted
        then s1.modStrand s.cur.die s.cur.site n fun x => { x with run := .run, pc := s.me.rd b } else s1))
    ∧ (s.me.ready [a] Order.none = true → n ≤ 3 →
      exec (.strhlt a) s = .next ((if (s1.here.strand n).run = .run ∨ (s1.here.strand n).run = .sleep
        then s1.modStrand s.cur.die s.cur.site n fun x => { x with run := .halted } else s1).checkHalted s.cur.die s.cur.site))
    ∧ (s.me.ready [a] Order.none = true → n ≤ 3 →
      exec (.wake a) s = .next (s1.modStrand s.cur.die s.cur.site n fun x =>
        if x.run = .sleep then { x with run := .run } else { x with wake := true }))
    ∧ (s.me.ready [] Order.none = true →
      exec .sleep s = .next (s.modMe fun t =>
        if t.wake then { t with wake := false, pc := t.pc + 4 } else { t with run := .sleep, pc := t.pc + 4 }))
    ∧ (s.me.ready [] Order.none = true →
      exec .halt s = .next ((s.modMe fun t => { t with pc := t.pc + 4, run := .halted }).checkHalted s.cur.die s.cur.site))
    ∧ (s.me.ready [a, b] Order.none = true → 3 < n → exec (.strgo a b) s = .next (s.trapMe 1 5 (s.me.rd a)))
    ∧ (s.me.ready [a] Order.none = true → 3 < n → exec (.strhlt a) s = .next (s.trapMe 1 5 (s.me.rd a))
        ∧ exec (.wake a) s = .next (s.trapMe 1 5 (s.me.rd a)))

/-- R44, R51, R108. -/
def Obligations.RegionEndsWhenAllHalted : Prop :=
  ∀ (s : State) (d site r : Nat) (x : Record), (s.tile d site).task = some r → s.record d r = some x →
    ((x.endReq = .none ∧ x.state = .running ∧ (∀ y ∈ x.sites, ∀ n < 4, (s.strand d y n).run = .halted)) →
      s.checkHalted d site = s.setRecord d r { x with endReq := .done })
    ∧ (¬(x.endReq = .none ∧ x.state = .running ∧ (∀ y ∈ x.sites, ∀ n < 4, (s.strand d y n).run = .halted)) → s.checkHalted d site = s)

/-- R87, R88, R39. That reserved header bits trap before the credit is looked at is the model's choice, log 86. -/
def Obligations.MessagesAreSent : Prop :=
  ∀ (s : State) (a b : Reg) (o : Order),
    let h := (s.me.rd a).toNat
    let site := s.here.siteAt (bits h 0 4) (bits h 4 4)
    let inside := bits h 0 4 < s.here.regionW ∧ bits h 4 4 < s.here.regionH
    let me := (s.cur.site, s.cur.strand, s.me.pc.toNat)
    let asked := (s.tile s.cur.die site).requests.filter fun e =>
      (s.strand s.cur.die e.1 e.2.1).run == .run && (s.strand s.cur.die e.1 e.2.1).pc.toNat == e.2.2
    let queue := if me ∈ asked then asked else asked ++ [me]
    let free := (s.tile s.cur.die site).credits
    (s.me.ready [a, b] o = true → bits h 13 51 = 0 → inside → me ∈ queue.take free →
      exec (.send a b o) s = .next
        { (s.modMe fun t => { t.raise o.set.val with pc := t.pc + 4 }).modTile s.cur.die site
            (fun t => { t with credits := t.credits - 1, requests := queue.filter fun e => e != me }) with
          messages := s.messages ++ [⟨s.cur.die, site, bits h 8 2, bits h 10 3, s.me.rd b, false, s.cur.site, s.cur.strand,
            s.here.gen, o.set.val⟩] })
    ∧ (s.me.ready [a, b] o = true → bits h 13 51 = 0 → inside → me ∉ queue.take free →
      exec (.send a b o) s = .next (s.modTile s.cur.die site fun t => { t with requests := queue }))
    ∧ (s.me.ready [a, b] o = false → exec (.send a b o) s = .next s)
    ∧ (s.me.ready [a, b] o = true → bits h 13 51 ≠ 0 →
      exec (.send a b o) s = .next (s.trapMe 1 5 (BitVec.ofNat 64 (formatA 0x4C 0 a.val b.val 0 o.code))))
    ∧ (s.me.ready [a, b] o = true → bits h 13 51 = 0 → ¬inside → exec (.send a b o) s = .next (s.trapMe 6 0x10 (s.me.rd a)))

/-- R85, R86, R88, R89, R384; R253 for a message whose generation the tile no longer holds. -/
def Obligations.MessagesArriveInOrder : Prop :=
  (∀ (s : State) (k : Nat) (m : Message), lget s.messages k = some m → (s.tile m.die m.site).holds m.gen = true →
    (∀ b ∈ s.messages.take k, ¬(b.die = m.die ∧ b.site = m.site ∧ b.strand = m.strand ∧ b.chan = m.chan ∧ b.srcSite = m.srcSite
      ∧ b.srcStrand = m.srcStrand)) →
    exec (.continuationMessageArrival k) s = .next
      ((({ s with messages := ldel s.messages k } : State).modTile m.die m.site fun t => t.deliver m).modStrand m.die m.srcSite m.srcStrand
        fun x => x.lower m.slot))
  ∧ (∀ (s : State) (k : Nat) (m : Message), lget s.messages k = some m → (s.tile m.die m.site).holds m.gen = false →
    (∀ b ∈ s.messages.take k, ¬(b.die = m.die ∧ b.site = m.site ∧ b.strand = m.strand ∧ b.chan = m.chan ∧ b.srcSite = m.srcSite
      ∧ b.srcStrand = m.srcStrand)) →
    exec (.continuationMessageArrival k) s = .next ((State.countGen { s with messages := ldel s.messages k } m.die).send 20
      { Packet.zero with src := m.die, dst := m.die, gen := m.gen, stat := 2 }))
  ∧ (∀ (t : Tile) (m : Message),
      ((vget (t.strand m.strand).k m.chan).full = false ∧ (∀ b ∈ t.inbuf, ¬(b.strand = m.strand ∧ b.chan = m.chan)) →
        vget ((t.deliver m).strand m.strand).k m.chan = ⟨true, m.payload, m.psn⟩ ∧ (t.deliver m).inbuf = t.inbuf
          ∧ (t.deliver m).credits = t.credits + 1)
      ∧ (¬((vget (t.strand m.strand).k m.chan).full = false ∧ (∀ b ∈ t.inbuf, ¬(b.strand = m.strand ∧ b.chan = m.chan))) →
        t.deliver m = { t with inbuf := t.inbuf ++ [m] }))
  ∧ (∀ (t : Tile) (n c : Nat),
      ((∀ b ∈ t.inbuf, ¬(b.strand = n ∧ b.chan = c)) →
        (vget ((t.takeChannel n c).strand n).k c).full = false ∧ (t.takeChannel n c).inbuf = t.inbuf ∧ (t.takeChannel n c).credits = t.credits)
      ∧ (∀ pre m post, t.inbuf = pre ++ m :: post → (∀ b ∈ pre, ¬(b.strand = n ∧ b.chan = c)) → m.strand = n → m.chan = c →
        vget ((t.takeChannel n c).strand n).k c = ⟨true, m.payload, m.psn⟩ ∧ (t.takeChannel n c).inbuf = pre ++ post
          ∧ (t.takeChannel n c).credits = t.credits + 1))
  ∧ (∀ (s : State) (d : Reg) (k : Fin 8),
      let c := vget s.me.k k.val
      (c.full = true → c.psn = false → s.me.ready [d] Order.none = true →
        exec (.movChannel d k) s = .next
          ((s.modMe fun t => { t.wr d c.payload with pc := t.pc + 4 }).modHere fun t => t.takeChannel s.cur.strand k.val))
      ∧ (c.full = true → c.psn = true → s.me.ready [d] Order.none = true →
        exec (.movChannel d k) s = .next
          (((s.modMe fun t => { t with pc := t.pc + 4 }).modHere fun t => t.takeChannel s.cur.strand k.val).report s.cur.die s.cur.site
            s.cur.strand ⟨8, 1, BitVec.ofNat 64 k.val⟩))
      ∧ (c.full = false → exec (.movChannel d k) s = .next s))

/-- R257: the sequence, the exceptions to EPC, and reports to strands that are not in RUN; R115 and R153 with R256 for routed faults. What an armature strand without a handler does (it HALTs) is the model's choice, log 85; a trap ends a standing HWAIT, log 64. -/
def Obligations.TrapSequence : Prop :=
  (∀ (s : State) (d q n : Nat) (c : Report) (imp : Bool) (off : Word),
    let x := s.strand d q n
    (x.intrap = false → x.tvec ≠ 0 →
      s.takeTrap d q n c imp off = s.modStrand d q n fun x =>
        { x with epc := BitVec.ofNat 15 (off.toNat / 4), causeCode := BitVec.ofNat 8 c.cause, causeDetail := BitVec.ofNat 8 c.detail,
                 eval := c.eval, imp := imp, intrap := true, stand := none,
                 pc := BitVec.ofNat 64 (4 * x.tvec.toNat) })
    ∧ (x.intrap = true → imp = true → x.pending.length < 4 →
      s.takeTrap d q n c imp off = s.modStrand d q n fun x => { x with pending := x.pending ++ [c] })
    ∧ ((x.intrap = true ∧ (imp = false ∨ 4 ≤ x.pending.length)) ∨ (x.intrap = false ∧ x.tvec = 0) →
      s.takeTrap d q n c imp off = s.failAt d q n c))
  ∧ (∀ (s : State) (n : BitVec 8), s.me.ready [] Order.none = true →
      let take := fun (cause : Nat) (off : Word) => s.takeTrap s.cur.die s.cur.site s.cur.strand ⟨cause, n.toNat, 0⟩ false off
      exec (.svc n) s = .next (take 0x11 (s.me.pc + 4)) ∧ exec (.trap n) s = .next (take 0x13 (s.me.pc + 4))
        ∧ exec (.brk n) s = .next (take 0x12 s.me.pc))
  ∧ (∀ (s : State) (cause detail : Nat) (v : Word),
      s.trapMe cause detail v = s.takeTrap s.cur.die s.cur.site s.cur.strand ⟨cause, detail, v⟩ false s.me.pc)
  ∧ (∀ (s : State) (k d q n : Nat) (c : Report), lget s.reports k = some (.strand d q n, c) →
      let s1 := { s with reports := ldel s.reports k }
      let held := (s.tile d q).task ≠ none ∨ (s.tile d q).firmware ≠ none
      (held → (s.strand d q n).run = .run → exec (.impreciseTrap k) s = .next (s1.takeTrap d q n c true (s.strand d q n).pc))
      ∧ (held → (s.strand d q n).run ≠ .run → exec (.impreciseTrap k) s = .next (s1.failAt d q n c)))
  ∧ (∀ (s : State) (d q n : Nat) (c : Report),
      (∀ r, (s.tile d q).task = some r → s.failAt d q n c
        = s.failTask d r c ⟨(s.strand d q n).wid, (s.tile d q).relX q, (s.tile d q).relY q, n⟩)
      ∧ ((s.tile d q).task = none → (s.tile d q).firmware ≠ none →
        s.failAt d q n c = s.modStrand d q n fun x => { x with run := .halted }))
  ∧ (∀ (s : State) (k d q n r : Nat) (c : Report), lget s.reports k = some (.routed d q n, c) → (s.tile d q).task = some r →
      let s1 := { s with reports := ldel s.reports k }
      ((s.strand d q n).run = .run → exec (.impreciseTrap k) s = .next (s1.takeTrap d q n c true (s.strand d q n).pc))
      ∧ ((s.strand d q n).run ≠ .run → exec (.impreciseTrap k) s = .next (s1.failTask d r c (s.routedAt d q))))

/-- R258: ERET. -/
def Obligations.ReturnFromTrap : Prop :=
  ∀ s : State, s.me.ready [] Order.none = true →
    let t : Word := BitVec.ofNat 64 (4 * s.me.epc.toNat)
    (s.me.intrap = false → exec .eret s = .next (s.trapMe 1 5 0xF6000000))
    ∧ (s.me.intrap = true → s.me.pending = [] → s.here.targetOk t = true →
      exec .eret s = .next (s.modMe fun x => { x with intrap := false, pc := t }))
    ∧ (s.me.intrap = true → s.me.pending = [] → s.here.targetOk t = false → exec .eret s = .next (s.trapMe 2 0 t))
    ∧ (∀ r rest, s.me.intrap = true → s.me.pending = r :: rest → s.me.tvec ≠ 0 →
      ∃ u, exec .eret s = .next u ∧ u.me.intrap = true ∧ u.me.imp = true ∧ u.me.epc = s.me.epc ∧ u.me.eval = r.eval ∧ u.me.pending = rest
        ∧ u.me.pc = BitVec.ofNat 64 (4 * s.me.tvec.toNat))

/-- R95, R96, R257. The clauses about LI's second word are the model's choice, log 32. -/
def Obligations.FetchFaults : Prop :=
  ∀ s : State, s.me.run = .run → s.me.stall = false →
    let pc := s.me.pc
    let w := s.here.codeWord pc.toNat
    let next := pc + 4
    let w2 := s.here.codeWord next.toNat
    (s.here.targetOk pc = false → exec .fetchFault s = .next (s.takeTrap s.cur.die s.cur.site s.cur.strand ⟨2, 0, pc⟩ false pc))
    ∧ (s.here.targetOk pc = true → w.psn = true → exec .fetchFault s = .next (s.takeTrap s.cur.die s.cur.site s.cur.strand ⟨8, 2, pc⟩ false pc))
    ∧ (s.here.targetOk pc = true → w.psn = false → bits w.bits.toNat 25 7 = 0x22 → s.here.codeLen ≤ next.toNat →
      exec .fetchFault s = .next (s.takeTrap s.cur.die s.cur.site s.cur.strand ⟨2, 0, next⟩ false next))
    ∧ (s.here.targetOk pc = true → w.psn = false → bits w.bits.toNat 25 7 = 0x22 → next.toNat < s.here.codeLen → w2.psn = true →
      exec .fetchFault s = .next (s.takeTrap s.cur.die s.cur.site s.cur.strand ⟨8, 2, next⟩ false pc))
    ∧ (s.here.targetOk pc = true → w.psn = false → bits w.bits.toNat 25 7 ≠ 0x22 → exec .fetchFault s = .next s)

/-- R97, R99 to R104, R424. -/
def Obligations.SystemRegisters : Prop :=
  (∀ (s : State) (d : Reg) (r : SysReg), s.me.ready [d] Order.none = true →
    let n := s.cur.strand % 4
    let v : Nat := match r with
      | .status => s.me.prv.toNat * 128 + s.me.intrap.toNat * 64 + s.me.imp.toNat * 32 + s.me.barbrk.toNat * 16 + n
      | .cause => s.me.causeDetail.toNat * 256 + s.me.causeCode.toNat
      | .epc => s.me.epc.toNat * 4 | .eval => s.me.eval.toNat | .tvec => s.me.tvec.toNat * 4
      | .sbst => ((List.range 7).map fun k => vget s.me.sb (k + 1) % 64 * 2 ^ (6 * k)).sum
      | .wid => s.me.wid.toNat | .widw => s.here.widw.toNat | .rgnb => s.here.rgnb.toNat | .genr => s.here.gen
      | .part => s.here.part.toNat | .gkey => s.here.gkey.toNat | .zscf => s.here.zsc.toNat | .satf => s.here.sat.toNat
      | .rndm => s.here.rnd.toNat
    exec (.srd d r) s = .next (s.modMe fun t => { t.wr d (BitVec.ofNat 64 v) with pc := t.pc + 4 }))
  ∧ (∀ (s : State) (a : Reg), s.me.ready [a] Order.none = true →
    let v := s.me.rd a
    let strand := fun (f : Strand → Strand) => Host.Outcome.next (φ := Fault) (ρ := Refusal) (s.modMe fun t => { f t with pc := t.pc + 4 })
    let tile := fun (f : Tile → Tile) => Host.Outcome.next (φ := Fault) (ρ := Refusal) ((s.modHere f).modMe fun t => { t with pc := t.pc + 4 })
    exec (.swr a .status) s = strand (fun t => { t with barbrk := t.barbrk && !v.getLsbD 4 })
    ∧ exec (.swr a .cause) s = strand id ∧ exec (.swr a .sbst) s = strand id
    ∧ exec (.swr a .epc) s = strand (fun t => { t with epc := v.extractLsb' 2 15 })
    ∧ exec (.swr a .tvec) s = strand (fun t => { t with tvec := v.extractLsb' 2 15 })
    ∧ exec (.swr a .eval) s = strand (fun t => { t with eval := v })
    ∧ exec (.swr a .wid) s = strand (fun t => { t with wid := v })
    ∧ exec (.swr a .zscf) s = tile (fun t => { t with zsc := v.getLsbD 0 })
    ∧ exec (.swr a .satf) s = tile (fun t => { t with sat := v.getLsbD 0 })
    ∧ (v.toNat % 8 ≤ 3 → exec (.swr a .rndm) s = tile (fun t => { t with rnd := v.setWidth 3 }))
    ∧ (3 < v.toNat % 8 → exec (.swr a .rndm) s = .next (s.trapMe 1 5 (BitVec.ofNat 64 (formatI 0x7D 0 a.val 14))))
    ∧ exec (.swr a .widw) s = .next (s.trapMe 3 7 0) ∧ exec (.swr a .rgnb) s = .next (s.trapMe 3 8 0)
    ∧ exec (.swr a .genr) s = .next (s.trapMe 3 9 0) ∧ exec (.swr a .part) s = .next (s.trapMe 3 10 0)
    ∧ exec (.swr a .gkey) s = .next (s.trapMe 3 11 0))

/-- R374, R426, R373, R427, R324, R339, R192, R195: address, size, operands and the precise checks; `Starts` and `launch` say what each means. -/
def Obligations.GlobalAccessesIssue : Prop :=
  ∀ (s : State) (d a : Reg) (e : BitVec 6) (q : Ord) (c : Scp) (wide : Bool) (f : AtomicOp) (z : Size) (l : LoadSize) (o : Order),
    let at_ := fun (n : Nat) => s.me.rd a + BitVec.ofInt 64 (e.toInt * n)
    let ordered := fun (k : AccessKind) (n : Nat) => { s.newAccess k (s.me.rd a) n o.set.val with ord := q, scp := c, plain := false }
    let n := if wide then 8 else 4
    let logn := if wide then 3 else 2
    (s.readyMem [d, a] o = true →
      s.Starts (.ldg d a l e o) { s.newAccess .load (at_ l.size.bytes) l.size.bytes o.set.val with dst := d, signed := l.signed } l.size.log
      ∧ ((s.storesFull = false ∨ inWindow (at_ z.bytes).toNat = true) →
        s.Starts (.stg d a z e o) { s.newAccess .store (at_ z.bytes) z.bytes o.set.val with data := s.me.rd d } z.log)
      ∧ s.Starts (.lda d a q c z o) { ordered .load z.bytes with dst := d } z.log
      ∧ s.Starts (.strl d a q c z o) { ordered .store z.bytes with data := s.me.rd d } z.log
      ∧ s.Starts (.amo d a q c wide f o) { ordered (.atomic f) n with data := s.me.rd d, dst := d } logn)
    ∧ (s.readyMem [d, nextReg d, a] o = true →
      s.Starts (.cas d a q c wide o) { ordered .cas n with data := s.me.rd d, data2 := s.me.rd (nextReg d), dst := d } logn)
    ∧ (s.storesFull = true → inWindow (at_ z.bytes).toNat = false → exec (.stg d a z e o) s = .next s)

/-- R83, R91, R223, R244, R253: issue of an access. -/
def Obligations.LaunchedAccess : Prop :=
  ∀ (s : State) (a : Access),
    (s.launch a).access = s.access ++ [a] ∧ (s.launch a).nextId = s.nextId + 1 ∧ (s.launch a).me.pc = s.me.pc + 4
    ∧ (s.launch a).me.busy = ((s.me.mark a.dst).mark a.dst2).busy ∧ (s.launch a).me.sb = (s.me.raise a.slot).sb
    ∧ (s.launch a).me.acquires = s.me.acquires + (if a.acquires then 1 else 0)
    ∧ (s.launch a).me.x = s.me.x ∧ (s.launch a).me.p = s.me.p ∧ (s.launch a).hbm = s.hbm ∧ (s.launch a).hostMem = s.hostMem
    ∧ (s.launch a).window = s.window ∧ (s.launch a).dies = s.dies ∧ (s.launch a).net = s.net ∧ (s.launch a).plinth = s.plinth
    ∧ (∀ e q, tileKey e q ≠ tileKey s.cur.die s.cur.site → (s.launch a).tile e q = s.tile e q)
    ∧ ∀ k va n slot, let x := s.newAccess k va n slot
      x.part = s.here.part ∧ x.gkey = s.here.gkey ∧ x.gen = s.here.gen ∧ x.va = va.toNat ∧ x.bytes = n ∧ x.id = s.nextId
        ∧ x.agent = .strand s.cur.die s.cur.site s.cur.strand ∧ x.dst = 0

/-- R244, R246 and the detail codes of R255. -/
def Obligations.TranslationChecks : Prop :=
  (∀ (s : State) (a : Access),
    let fault := fun (cause detail : Nat) => s.faultAccess a ⟨cause, detail, BitVec.ofNat 64 a.va⟩
    ((2 ^ 57 ≤ a.va ∨ (s.context a.part).valid = false) → s.translate a = fault 5 1)
    ∧ (a.va < 2 ^ 57 → (s.context a.part).valid = true →
      (s.tlbFind a.agent a.part a.va = none → s.translate a = s.waitWalk a)
      ∧ ∀ e, s.tlbFind a.agent a.part a.va = some e →
        let pa := e.pbase + (a.va - e.vbase)
        let beyond := bits pa 50 2 = 0 ∧ s.hbmSize ≤ pa ∨ bits pa 50 2 = 2 ∧ 0xFF00000000 ≤ bits pa 0 40
        (beyond → s.translate a = fault 5 3)
        ∧ (¬beyond → e.gk ≠ 0 → e.gk ≠ a.gkey → s.translate a = fault 7 e.gk.toNat)
        ∧ (¬beyond → (e.gk = 0 ∨ e.gk = a.gkey) →
          let lacks := match a.kind with
            | .load => !e.r | .store => !e.w | .atomic _ | .cas => !(e.r && e.w) | .fence | .xlt | .flush _ | .pref | .window _ => false
          let keyless := bits e.pbase 50 2 = 0 ∧ s.keyOf a.part e.kidx = none
          (lacks = true → s.translate a = fault 6 5)
          ∧ (lacks = false → keyless → s.translate a = fault 6 6)
          ∧ (lacks = false → ¬keyless → s.translate a = s.route a e))))
  ∧ ∀ (s : State) (a : Access) (r : Report), s.live a = true → (s.faultAccess a r).reports = s.reports ++ [(a.agent, r)]

/-- R374, R194, R221, R252: the whole of a load that the L1 serves. -/
def Obligations.LoadHitsTheL1 : Prop :=
  ∀ (s : State) (d a : Reg) (l : LoadSize) (e : BitVec 6) (o : Order) (t : TlbEntry) (c : L1Line),
    let n := l.size.bytes
    let va := (s.me.rd a + BitVec.ofInt 64 (e.toInt * n)).toNat
    let pa := t.pbase + (va - t.vbase)
    s.readyMem [d, a] o = true → s.access = [] → d ≠ 0 → s.cur.site < 144 → va % 2 ^ l.size.log = 0 → va < 2 ^ 57 → inWindow va = false →
    (s.context s.here.part).valid = true → s.tlbFind (.strand s.cur.die s.cur.site s.cur.strand) s.here.part va = some t →
    checkEntry s t s.here.part s.here.gkey .read va = none → bits pa 50 2 = 0 → t.c = true → s.lostHome (pa / 128) = false →
    s.l1Line s.cur.die s.cur.site pa = some c → c.psn = false →
    ∃ u, exec (.ldg d a l e o) s = .next u
      ∧ u.me.rd d = extend l.signed n (if c.part = s.here.part then bits c.data.toNat (8 * (pa % 128)) (8 * n) else 0)
      ∧ u.me.pc = s.me.pc + 4 ∧ (∀ k, vget u.me.sb k = vget s.me.sb k) ∧ (∀ r : Reg, r ≠ d → u.me.rd r = s.me.rd r) ∧ u.access = []
      ∧ u.hbm = s.hbm ∧ u.hostMem = s.hostMem ∧ u.window = s.window ∧ u.dies = s.dies ∧ u.reports = s.reports

/-- R374, R426, R325, R260, R230, R223. ScratchpadBytes says which bytes spadRead, spadWrite, view, spadStore and spadPerform touch. That an AMOL leaves a poisoned word poisoned unless it is a SWAP is the model's choice, log 10; when a race ends, and that an AMOL with a slot or an acquire is performed at once, is log 87's. -/
def Obligations.ScratchpadLoadsAndStores : Prop :=
  ∀ (s : State) (d a : Reg) (l : LoadSize) (z : Size) (e : BitVec 6) (q : Ord) (c : Scp) (wide : Bool) (f : AtomicOp) (o : Order),
    let passed := s.modMe fun t => { t with pc := t.pc + 4 }
    let t := (passed.view s.cur.die s.cur.site false).1
    let u := (passed.view s.cur.die s.cur.site false).2
    let seen := fun (va n : Nat) => u.modHere fun x => x.observe passed.ownStore va n
    (s.here.races = [] → t = passed.here ∧ u = passed)
    ∧ (s.readyMem [d, a] o = true →
      let n := l.size.bytes
      let va := s.me.rd a + BitVec.ofInt 64 (e.toInt * n)
      (0x200000 < va.toNat + n → exec (.ldl d a l e o) s = .next (s.trapMe 1 5 (BitVec.ofNat 64 (encode (.ldl d a l e o)))))
      ∧ (va.toNat + n ≤ 0x200000 → va.toNat % n ≠ 0 → exec (.ldl d a l e o) s = .next (s.trapMe 4 l.size.log va))
      ∧ (va.toNat + n ≤ 0x200000 → va.toNat % n = 0 → t.spadPoisoned t.part va.toNat n = false →
        exec (.ldl d a l e o) s = .next ((seen va.toNat n).modMe fun x => x.wr d (extend l.signed n (t.spadRead t.part va.toNat n))))
      ∧ (va.toNat + n ≤ 0x200000 → va.toNat % n = 0 → t.spadPoisoned t.part va.toNat n = true →
        exec (.ldl d a l e o) s = .next ((seen va.toNat n).report s.cur.die s.cur.site s.cur.strand
          ⟨8, 1, BitVec.ofNat 64 (t.firstPoison va.toNat n)⟩)))
    ∧ (s.readyCommand [d, a] o = true →
      let n := z.bytes
      let va := s.me.rd a + BitVec.ofInt 64 (e.toInt * n)
      (0x200000 < va.toNat + n → exec (.stl d a z e o) s = .next (s.trapMe 1 5 (BitVec.ofNat 64 (encode (.stl d a z e o)))))
      ∧ (va.toNat + n ≤ 0x200000 → va.toNat % n ≠ 0 → exec (.stl d a z e o) s = .next (s.trapMe 4 z.log va))
      ∧ (va.toNat + n ≤ 0x200000 → va.toNat % n = 0 →
        exec (.stl d a z e o) s = .next (passed.spadStore .store va (toBytes (s.me.rd d).toNat n) false o.set.val)))
    ∧ (s.readyCommand [d, a] o = true → (q.releases && s.unperformed) = false →
      let n := if wide then 8 else 4
      let va := s.me.rd a
      let old := t.spadRead t.part va.toNat n
      let write := fun (v : State) (psn : Bool) =>
        let bytes := toBytes (f.apply n old (s.me.rd d).toNat) n
        if o.set = 0 ∧ q.acquires = false then v.spadStore (.atomic f) va bytes psn 0 else v.spadPerform va bytes psn
      (va.toNat < 0x200000 → va.toNat % n ≠ 0 → exec (.amol d a q c wide f o) s = .next (s.trapMe 4 (if wide then 3 else 2) va))
      ∧ (0x200000 ≤ va.toNat → exec (.amol d a q c wide f o) s = .next (s.trapMe 1 5 (BitVec.ofNat 64 (encode (.amol d a q c wide f o)))))
      ∧ (va.toNat < 0x200000 → va.toNat % n = 0 → t.spadPoisoned t.part va.toNat n = false →
        exec (.amol d a q c wide f o) s = .next (write ((seen va.toNat n).modMe fun x => x.wr d (BitVec.ofNat 64 old)) false))
      ∧ (va.toNat < 0x200000 → va.toNat % n = 0 → t.spadPoisoned t.part va.toNat n = true →
        exec (.amol d a q c wide f o) s = .next (write ((seen va.toNat n).report s.cur.die s.cur.site s.cur.strand
          ⟨8, 1, BitVec.ofNat 64 (t.firstPoison va.toNat n)⟩) (f != .swap))))

/-- R252: tags of scratchpad granules; byte by byte. R230: the words that race; when a race ends is the model's choice (log 87). -/
def Obligations.ScratchpadBytes : Prop :=
  (∀ (t : Tile) (part : BitVec 4) (a n k : Nat), k < n →
    (t.spadBytes part a n)[k]? = some (if tgetD t.spadTag ((a + k) / 64) 0 = part then mget t.spad (a + k) else 0))
  ∧ ∀ (t : Tile) (part : BitVec 4) (a : Nat) (bs : List Byte) (psn : Bool), bs ≠ [] →
    let u := t.spadWrite part a bs psn
    let touched := fun (g : Nat) => a / 64 ≤ g ∧ g ≤ (a + bs.length - 1) / 64
    (∀ x, mget u.spad x =
      if a ≤ x ∧ x < a + bs.length then bs.getD (x - a) 0
      else if touched (x / 64) ∧ tgetD t.spadTag (x / 64) 0 ≠ part then 0 else mget t.spad x)
    ∧ (∀ g, tgetD u.spadTag g 0 = if touched g then part else tgetD t.spadTag g 0)
    ∧ u.strands = t.strands ∧ u.handles = t.handles ∧ u.pes = t.pes ∧ u.island = t.island ∧ u.imem = t.imem ∧ u.l1 = t.l1
    ∧ (∀ (w : Racer) (coin : Nat → Nat), (∀ r ∈ t.races, r.writer.isEngine = w.isEngine) →
      (t.raceWrite w coin part a bs psn).spad = u.spad ∧ (t.raceWrite w coin part a bs psn).spadTag = u.spadTag
        ∧ (t.raceWrite w coin part a bs psn).spadPsn = u.spadPsn)
    ∧ (∀ (engine : Bool) (coin : Nat → Nat) (n : Nat),
      let word := fun (x : Tile) => (List.range 4).map fun k => mget x.spad (4 * n + k)
      word (t.view engine coin) = word t
        ∨ ∃ r ∈ t.races, r.word = n ∧ r.past = false ∧ r.writer.isEngine ≠ engine ∧ word (t.view engine coin) = toBytes r.value.toNat 4)
    ∧ (∀ w : Racer, ∀ r ∈ (t.settleRaces w).races, r.writer ≠ w)
    ∧ (∀ (s : State) (va : Word),
      let v := s.spadPerform va bs psn
      v.here.spad = (s.here.raceWrite (.store s.nextId) s.coin s.here.part va.toNat bs psn).spad
      ∧ (∀ r ∈ v.here.races, r.writer ≠ .store s.nextId)
      ∧ v.me.sb = s.me.sb ∧ v.me.x = s.me.x ∧ v.me.pc = s.me.pc ∧ v.access = s.access
      ∧ v.hbm = s.hbm ∧ v.hostMem = s.hostMem ∧ v.window = s.window ∧ v.dies = s.dies ∧ v.net = s.net)
    ∧ (∀ (s : State) (kind : AccessKind) (va : Word) (slot : Nat), s.cur.site < 144 →
      let v := s.spadStore kind va bs psn slot
      v.here.spad = (s.here.raceWrite (.store s.nextId) s.coin s.here.part va.toNat bs psn).spad
      ∧ v.me.sb = (s.me.raise slot).sb ∧ v.me.x = s.me.x ∧ v.me.pc = s.me.pc ∧ v.access.length = s.access.length + 1
      ∧ v.hbm = s.hbm ∧ v.hostMem = s.hostMem ∧ v.window = s.window ∧ v.dies = s.dies ∧ v.net = s.net)

/-- R358, R224, R233, R341, R405. -/
def Obligations.FencesAndLineOperations : Prop :=
  ∀ (s : State) (q : Ord) (c : Scp) (a : Reg) (e : BitVec 9) (o : Order),
    let va := (s.me.rd a + BitVec.ofInt 64 (e.toInt * 128)).toNat
    let passed := s.modMe fun t => { t with pc := t.pc + 4 }
    let asks := fun (k : AccessKind) => { s.newAccess k (BitVec.ofNat 64 (va / 128 * 128)) 128 o.set.val with plain := false }
    let page := va / 128 * 128
    let nowhere := 2 ^ 57 ≤ page ∨ inWindow page = true ∨ (s.context s.here.part).valid = false
    let found := s.tlbFind (.strand s.cur.die s.cur.site s.cur.strand) s.here.part page
    (s.readyMem [] o = true → s.access = [] → (s.die s.cur.die).rwb = [] → q ≠ .sc →
      ∃ t, exec (.fence q c o) s = .next t ∧ t.access = [] ∧ t.me.pc = s.me.pc + 4 ∧ t.me.x = s.me.x ∧ t.me.acquires = 0
        ∧ t.hbm = s.hbm ∧ t.hostMem = s.hostMem ∧ t.window = s.window ∧ t.dies = s.dies
        ∧ (q.acquires = true → c ≠ .tile → t.here.l1 = []))
    ∧ (s.readyMem [] o = true → s.access = [] → (s.die s.cur.die).rwb = [] → s.newTxn s.cur.die < 65536 →
      ∃ t x, exec (.fence .sc c o) s = .next t ∧ t.access = [x] ∧ x.kind = .fence ∧ x.phase = .serial ∧ x.sent = true ∧ t.me.pc = s.me.pc + 4
        ∧ (s.firstNode, s.cur.die, x.txn) ∈ t.scQueue ++ t.scInput)
    ∧ (s.readyMem [a] o = true → s.touches page 128 = false → ∀ owner : Bool,
      let i := if owner then Instr.cflush a e o else .cinv a e o
      let x := asks (.flush owner)
      (nowhere → exec i s = .next passed)
      ∧ (¬nowhere → found = none → exec i s = .next ((s.launch x).waitWalk x))
      ∧ ∀ t, ¬nowhere → found = some t →
        ((s.launch x).hintLine x t (fun e => e.r || e.w) = none → exec i s = .next ((s.launch x).finish x))
        ∧ ∀ line, (s.launch x).hintLine x t (fun e => e.r || e.w) = some line →
          let dropped := (s.launch x).modTile s.cur.die s.cur.site fun t => { t with l1 := tdel t.l1 line }
          let held := dropped.cacheLine s.cur.die line
          (held.tok ≠ 0 → (owner = true ∨ held.own = false) → exec i s = .next ((dropped.evictLine s.cur.die line).finish x))
          ∧ ((held.tok = 0 ∨ (owner = false ∧ held.own = true)) → exec i s = .next (dropped.finish x)))
    ∧ (s.touches page 128 = true → exec (.cflush a e o) s = .next s ∧ exec (.cinv a e o) s = .next s)
    ∧ (s.readyMem [a] o = true →
      let x := asks .pref
      let u := s.launch x
      (nowhere → exec (.pref a e o) s = .next passed)
      ∧ (¬nowhere → found = none → exec (.pref a e o) s = .next (u.waitWalk x))
      ∧ ∀ t, ¬nowhere → found = some t →
        (u.hintLine x t (fun e => e.r) = none → exec (.pref a e o) s = .next (u.finish x))
        ∧ ∀ line, u.hintLine x t (fun e => e.r) = some line →
          ((u.cacheLine s.cur.die line).serves false = true → exec (.pref a e o) s = .next (u.finish x))
          ∧ ((u.cacheLine s.cur.die line).serves false = false →
            exec (.pref a e o) s = .next ((u.modAccess x.id fun b => { b with phase := .cache, pa := line * 128 }).openMiss s.cur.die line false
              s.here.part true)))

/-- R328, R431, R330, R329, R333, R435, R377, R355; the order of the ILL check after the address checks is R431's, taken for the barriers and locks too (log 44). -/
def Obligations.WindowOperationsIssue : Prop :=
  ∀ (s : State) (d a b : Reg) (k : Bool) (o : Order),
    let at_ := fun (n : Nat) => s.newAccess .load (s.me.rd a) n o.set.val
    let v := (s.me.rd b).toNat
    let word := fun (i : Instr) => (BitVec.ofNat 64 (encode i) : Word)
    (s.readyMem [d, a, b] o = true →
      s.StartsWindow (.tlook d a b o) (s.me.rd a) (decide (v / 2 ^ 47 = 0)) { at_ 16 with dst := d, data := s.me.rd b } opTlook 4
      ∧ s.StartsWindow (.tins d a b o) (s.me.rd a) true { at_ 16 with dst := d, data := s.me.rd b } opTins 4
      ∧ s.StartsWindow (.tevict d a b o) (s.me.rd a) (decide (v / 2 ^ 47 = 0)) { at_ 16 with dst := d, data := s.me.rd b } opTevict 4
      ∧ s.StartsWindow (.tsb d a b o) (word (.tsb d a b o)) (decide (v / 2 ^ 63 = 0)) { at_ 8 with dst := d, data := s.me.rd b } opTsb 3
      ∧ s.StartsWindow (.eqput d a b k o) (s.me.rd a) true { at_ 32 with dst := d, data := s.me.rd b } (opEqput k) 5
      ∧ s.StartsWindow (.eqget d a b k o) (s.me.rd a) true { at_ 32 with dst := d, dst2 := b } (opEqget k) 5)
    ∧ (s.readyMem [a, b] o = true →
      s.StartsWindow (.bari a b o) (word (.bari a b o)) (decide (1 ≤ v ∧ v ≤ 65535)) { at_ 8 with data := s.me.rd b } opBari 3
      ∧ s.StartsWindow (.barw a b o) (word (.barw a b o)) (decide (v / 2 ^ 16 = 0)) { at_ 8 with data := s.me.rd b } opBarw 3)
    ∧ (s.readyMem [d, a] o = true → s.StartsWindow (.bara d a o) (s.me.rd a) true { at_ 8 with dst := d } opBara 3)
    ∧ (s.readyMem [a] o = true → s.StartsWindow (.lrel a o) (s.me.rd a) true (at_ 8) opLrel 3)

/-- R329, R330, R333, R377, R435, R211, R212: one indivisible step. -/
def Obligations.BarriersAndLocks : Prop :=
  ∀ (s : State) (a : Access),
    let off := a.va - windowBase
    let w := s.wordFor a.part off
    off % 8 = 0 → s.lostWord off = false → s.waitersOf off = [] → w.psn = false →
    (s.descriptorHeld (queueBase off) = false → s.windowStep a = (s.windowPerform a).serveAll (queueBase off))
    ∧
    (a.kind = .window opBara → w.kind = .barrier → bits w.bits.toNat 16 16 + 1 ≠ bits w.bits.toNat 0 16 →
      s.windowPerform a = (s.setWord off { w with bits := BitVec.ofNat 64 (setBits w.bits.toNat 16 16 (bits w.bits.toNat 16 16 + 1)) }).tileReply
        a (BitVec.ofNat 64 (bits w.bits.toNat 32 16)) 0 0 false)
    ∧ (a.kind = .window opBara → w.kind = .barrier → bits w.bits.toNat 16 16 + 1 = bits w.bits.toNat 0 16 →
      s.windowPerform a = (s.setWord off { w with
          bits := BitVec.ofNat 64 (setBits (setBits w.bits.toNat 16 16 0) 32 16 (bits w.bits.toNat 32 16 + 1)) }).tileReply
        a (BitVec.ofNat 64 (bits w.bits.toNat 32 16)) 0 0 false)
    ∧ (a.kind = .window opBara → w.kind ≠ .barrier → s.windowPerform a = s.tileReply a 0 0 1 false)
    ∧ (a.kind = .window opBarw → w.kind ≠ .barrier → s.windowPerform a = s.tileReply a 0 0 1 false)
    ∧ (a.kind = .window opBarw → w.kind = .barrier → bits w.bits.toNat 32 16 ≠ a.data.toNat → s.windowPerform a = s.tileReply a 0 0 0 false)
    ∧ (a.kind = .window opBarw → w.kind = .barrier → bits w.bits.toNat 32 16 = a.data.toNat →
      (off, a.id) ∉ s.windowWait →
      s.windowPerform a = { s.modAccess a.id (fun b => { b with phase := .waiter }) with windowWait := s.windowWait ++ [(off, a.id)] })
    ∧ (a.kind = .window opTsb → w.kind = .lock → w.bits.getLsbD 63 = false →
      s.windowPerform a = (s.setWord off { w with bits := a.data ||| BitVec.twoPow 64 63 }).tileReply a
        (BitVec.ofNat 64 (bits w.bits.toNat 0 63)) 0 0 false)
    ∧ (a.kind = .window opTsb → w.kind = .lock → w.bits.getLsbD 63 = true → s.windowPerform a = (s.setWord off w).join off a)
    ∧ (a.kind = .window opTsb → w.kind = .plain →
      s.windowPerform a = (s.setWord off { w with kind := .lock, bits := a.data ||| BitVec.twoPow 64 63 }).tileReply a 0 0 0 false)
    ∧ (a.kind = .window opTsb → w.kind = .barrier → s.windowPerform a = s.tileReply a (BitVec.allOnes 64) 0 3 false)
    ∧ (a.kind = .window opLrel → w.kind = .lock → w.bits.getLsbD 63 = true →
      s.windowPerform a = (s.setWord off { w with bits := BitVec.ofNat 64 (bits w.bits.toNat 0 63) }).tileReply a 0 0 0 false)
    ∧ (a.kind = .window opBari → w.kind = .plain → (s.word off).kind = .plain →
      s.windowPerform a = (s.setWord off ⟨BitVec.ofNat 64 (a.data.toNat % 65536), .barrier, a.part, false⟩).tileReply a 0 0 0 false)

/-- R441, R249, R247, R434, R240, R243, R244, R246, R250, R356. That TLBI completes in its own step is the model's choice, log 7. -/
def Obligations.XltAndTlbi : Prop :=
  (∀ (s : State) (d a : Reg) (o : Order), s.me.ready [d, a] o = true →
    let x := { s.newAccess .xlt (s.me.rd a) 1 o.set.val with dst := d, data2 := 4 }
    let t := s.launch x
    ((2 ^ 57 ≤ x.va ∨ inWindow x.va = true ∨ (t.context x.part).valid = false) →
      exec (.xlt d a o) s = .next (t.reply x (BitVec.ofNat 64 (bits x.va 16 41 * 65536 + 5))))
    ∧ (x.va < 2 ^ 57 → inWindow x.va = false → (t.context x.part).valid = true →
      (t.tlbFind x.agent x.part x.va = none → exec (.xlt d a o) s = .next (t.waitWalk x))
      ∧ (∀ e r, t.tlbFind x.agent x.part x.va = some e → checkEntry t e x.part x.gkey .none x.va = some r →
        exec (.xlt d a o) s = .next (t.reply x (BitVec.ofNat 64 (bits x.va 16 41 * 65536 + r.cause))))
      ∧ (∀ e, t.tlbFind x.agent x.part x.va = some e → checkEntry t e x.part x.gkey .none x.va = none →
        exec (.xlt d a o) s = .next ((t.modTile s.cur.die s.cur.site fun y => y.pin e).reply x
          (capabilityWord e (t.tile s.cur.die s.cur.site).capNext)))))
  ∧ (∀ (s : State) (a b : Reg), s.me.ready [a, b] Order.none = true →
      let lo := (s.me.rd a).toNat
      let hi := (s.me.rd b).toNat
      ((hi < lo ∨ 2 ^ 57 ≤ lo ∨ 2 ^ 57 ≤ hi) → exec (.tlbi a b) s = .next (s.trapMe 1 5 (BitVec.ofNat 64 (formatA 0x78 0 a.val b.val 0 0))))
      ∧ (lo ≤ hi → hi < 2 ^ 57 →
        exec (.tlbi a b) s = .next ((s.modMe fun t => { t with pc := t.pc + 4 }).dropTranslations s.here.part lo hi)))
  ∧ (∀ (s : State) (part : BitVec 4) (lo hi d n : Nat) (e : TlbEntry),
      (e ∈ ((s.dropTranslations part lo hi).die d).tlb ↔
        e ∈ (s.die d).tlb ∧ ¬(e.part = part ∧ e.vbase ≤ hi ∧ lo < e.vbase + e.size))
      ∧ (∀ g, (e ∈ vget ((s.dropTranslations part lo hi).tile d n).utlb g ↔
        e ∈ vget (s.tile d n).utlb g ∧ ¬(e.part = part ∧ e.vbase ≤ hi ∧ lo < e.vbase + e.size)))
      ∧ ∀ k, ((k, e) ∈ ((s.dropTranslations part lo hi).tile d n).caps ↔
        (k, e) ∈ (s.tile d n).caps ∧ ¬(e.part = part ∧ e.vbase ≤ hi ∧ lo < e.vbase + e.size)))
  ∧ (∀ (s : State) (k : Nat) (a : Access) (w : PageWalk), s.access? k = some a → a.phase = .walk → s.walkOf a = some w →
      let ended : State := { s with walks := s.walks.filter fun x => !x.is w.node w.txn }
      (∀ r, w.result = some r → s.walkWaiters w = [a] → exec (.walkCompletion k) s = .next (ended.endWait a r))
      ∧ (∀ r, w.result = some r → exec (.walkCompletion k) s = .next (ended.over (s.walkWaiters w) fun b t =>
        match t.access? b.id with
        | some b => if b.phase = .walk then t.endWait b r else t
        | none => t))
      ∧ (w.result = none → exec (.walkCompletion k) s = .next s))
  ∧ (∀ (s : State) (k : Nat) (a : Access), s.access? k = some a → a.phase = .walk → s.walkOf a = none →
      ((s.context a.part).valid = false → exec (.walkCompletion k) s = .next (s.endWait a .context))
      ∧ ((s.context a.part).valid = true → s.tlbFind a.agent a.part a.walkVa = none → exec (.walkCompletion k) s = .next (s.openWalk a))
      ∧ ∀ e, (s.context a.part).valid = true → s.tlbFind a.agent a.part a.walkVa = some e →
        exec (.walkCompletion k) s = .next (s.translated a e))
  ∧ (∀ (s : State) (a : Access), a.kind = .load →
      let fault := fun (cause detail : Nat) => s.faultAccess a ⟨cause, detail, BitVec.ofNat 64 a.va⟩
      (∀ d t n, a.agent = .strand d t n →
        s.endWait a .context = fault 5 1 ∧ s.endWait a .malformed = fault 5 3 ∧ s.endWait a .poisoned = fault 8 6)
      ∧ s.endWait a .notPresent = s.pageRequest a.agent.dieNo a
      ∧ ∀ e, (∀ d t n, a.agent = .strand d t n → s.beyond e a.va = true → s.endWait a (.leaf e) = fault 5 3)
        ∧ (s.beyond e a.va = false →
          let t := s.tlbInstall a.agent e
          s.endWait a (.leaf e) = match checkEntry t e a.part a.gkey .read a.va with
            | some r => t.faultAccess a r
            | none => t.route a e))
  ∧ (∀ (s : State) (k : Nat) (a : Access), s.access? k = some a →
      (a.phase = .retry →
        exec (.waiterRetry k) s = .next ((s.modAccess k fun b => { b with sent := false }).enter { a with sent := false } .window))
      ∧ (a.phase = .held → exec (.waiterRetry k) s = .next (s.serveAll (queueBase (a.va - windowBase))))
      ∧ (a.phase = .waiter → isEdge a.op = false → exec (.waiterRetry k) s = .next s))

/-- R81, R93, R142 to R144, R367 to R371. When HWAIT and HFREE issue and complete is the model's reading, log 64. -/
def Obligations.HandleInstructions : Prop :=
  ∀ (s : State) (d a b : Reg) (h : Fin 128) (t : HState) (o : Order),
    let e := s.here.handle h.val
    let passed := s.modMe fun x => { x with pc := x.pc + 4 }
    let trap := s.trapMe 0xA e.state.code (BitVec.ofNat 64 h.val)
    let put := fun (e : Handle) => passed.putHandle s.cur.die s.cur.site h.val e
    let sent := fun (want : HState) (unbind : Bool) => (s.modMe fun x => { x.raise o.set.val with pc := x.pc + 4 }).modHere fun x =>
      { x with hwaits := x.hwaits ++ [⟨s.cur.strand, o.set.val, h.val, want, unbind⟩] }
    (s.me.ready [d, a, b] o = true →
      let base := (s.me.rd a).toNat
      let len := (s.me.rd b).toNat
      let bad := 0x200000 < base + len ∨ len = 0 ∨ base % 64 ≠ 0 ∨ len % 64 ≠ 0
      (bad → exec (.halloc d a b o) s = .next (s.trapMe 1 5 (BitVec.ofNat 64 (encode (.halloc d a b o)))))
      ∧ (¬bad → (∀ n < 128, (s.here.handle n).bnd = true) →
        exec (.halloc d a b o) s = .next (s.modMe fun x => { x.wr d (BitVec.allOnes 64) with pc := x.pc + 4 }))
      ∧ (∀ n < 128, ¬bad → (s.here.handle n).bnd = false → (∀ m < n, (s.here.handle m).bnd = true) →
        exec (.halloc d a b o) s = .next
          ((s.modHere fun x => x.setHandle n { x.handle n with bnd := true, base := base, len := len }).modMe fun x =>
            { x.wr d (BitVec.ofNat 64 n) with pc := x.pc + 4 })))
    ∧ (s.me.ready [] o = true →
      (e.bnd = false → exec (.hfree h o) s = .next passed) ∧ (e.bnd = true → e.state = .free →
        exec (.hfree h o) s = .next (put { e with bnd := false, len := 0 }))
      ∧ (e.bnd = true → e.state ≠ .free → o.set ≠ 0 → exec (.hfree h o) s = .next (sent .free true))
      ∧ (e.bnd = false → t ≠ .free → s.me.stand ≠ some (h.val, t, true) → exec (.hwait h t o) s = .next trap)
      ∧ ((e.bnd = false ∧ t = .free ∨ e.bnd = true ∧ e.state = t ∨ s.me.stand = some (h.val, t, true)) →
        exec (.hwait h t o) s = .next (s.modMe fun x => { x with pc := x.pc + 4, stand := none }))
      ∧ (e.bnd = true → e.state ≠ t → s.me.stand ≠ some (h.val, t, true) →
        (o.set = 0 → exec (.hwait h t o) s = .next (s.modMe fun x => { x with stand := some (h.val, t, false) }))
        ∧ (o.set ≠ 0 → exec (.hwait h t o) s = .next (sent t false))))
    ∧ (e.bnd = true → e.state ≠ .free → o.set = 0 → exec (.hfree h o) s = .next s)
    ∧ (s.me.ready [] o = false → exec (.hfree h o) s = .next s ∧ exec (.hwait h t o) s = .next s)
    ∧ (s.readyMem [] o = true →
      (e.bnd = false → exec (.hset h t o) s = .next trap)
      ∧ (e.bnd = true → e.state = .free → exec (.hset h .filling o) s = .next (put { e.release with state := .filling, ws := true }))
      ∧ (e.bnd = true → e.state = .filling → e.ws = true → s.unperformed = false →
        exec (.hset h .full o) s = .next (put { e with state := .full }))
      ∧ (e.bnd = true → e.state = .full → exec (.hset h .draining o) s = .next (put { e with state := .draining }))
      ∧ (e.bnd = true → e.state = .draining → exec (.hset h .draining o) s = .next passed)
      ∧ (e.bnd = true → e.state = .draining → e.rd = 0 → exec (.hset h .free o) s = .next (put e.release))
      ∧ (e.bnd = true → (t = .filling ∧ e.state ≠ .free ∨ t = .full ∧ ¬(e.state = .filling ∧ e.ws = true)
          ∨ t = .draining ∧ (e.state = .free ∨ e.state = .filling) ∨ t = .free ∧ e.state ≠ .draining) → exec (.hset h t o) s = .next trap))
    ∧ (e.bnd = true → e.state = .draining → e.rd ≠ 0 → exec (.hset h .free o) s = .next s)
    ∧ (e.bnd = true → e.state = .filling → e.ws = true → s.unperformed = true → exec (.hset h .full o) s = .next s)
    ∧ (s.me.ready [d] o = true → exec (.hstat d h o) s = .next (s.modMe fun x => { x.wr d e.entry with pc := x.pc + 4 }))
    ∧ ∀ (d y n : Nat) (e : Handle),
      let was := (s.tile d y).handle n
      let u := s.putHandle d y n e
      let waits := (s.tile d y).hwaits
      (was.state = e.state → u = s.modTile d y fun x => x.setHandle n e)
      ∧ (was.state ≠ e.state →
        (u.tile d y).hwaits = waits.filter (fun w => !(w.handle == n && w.want == e.state))
        ∧ (∀ k < 4, (u.strand d y k).stand =
            if (s.strand d y k).stand = some (n, e.state, false) then some (n, e.state, true) else (s.strand d y k).stand)
        ∧ (∀ w, waits.filter (fun w => w.handle == n && w.want == e.state) = [w] → ∀ k < 8,
            vget (u.strand d y w.strand).sb k = vget ((s.strand d y w.strand).lower w.slot).sb k)
        ∧ ((∀ w ∈ waits, w.handle = n → w.want = e.state → w.unbind = false) → (u.tile d y).handle n = e)
        ∧ (∀ w ∈ waits, w.handle = n → w.want = e.state → w.unbind = true → (u.tile d y).handle n = { e with bnd := false, len := 0 }))

/-- R163, R230, R346, R347, R348, R410 to R415. That a bad offset of SCFG or CPY is ILL before it is ALIGN is the model's choice, log 45. -/
def Obligations.EngineCommandsIssue : Prop :=
  ∀ (s : State) (d a : Reg) (q : Fin 64) (e : Fin 8) (o : Order),
    (let v := s.me.rd a
    let queued := fun (kind unit : Nat) (arg : Word) =>
      (s.modMe fun t => { t.raise o.set.val with pc := t.pc + 4 }).modHere fun t =>
        { t with cmdq := t.cmdq ++ [⟨kind, s.cur.strand, o.set.val, arg, unit⟩] }
    let x := s.here.stream e.val
    let free := ∀ c ∈ s.here.cmdq, ¬(4 ≤ c.kind ∧ c.unit = e.val)
    let still := x.state ≠ .run ∧ x.state ≠ .parked
    (s.here.cmdq.length < 16 → s.readyCommand [a] o = true →
      (v.toNat < 0x200000 → v.toNat % 32 = 0 →
        exec (.cpy a o) s = .next (queued 0 0 v) ∧ exec (.cpyc a o) s = .next (queued 1 0 v) ∧ exec (.cpyt a q o) s = .next (queued 2 q.val v))
      ∧ (v.toNat < 0x200000 → v.toNat % 32 ≠ 0 →
        exec (.cpy a o) s = .next (s.trapMe 4 5 v) ∧ exec (.cpyc a o) s = .next (s.trapMe 4 5 v) ∧ exec (.cpyt a q o) s = .next (s.trapMe 4 5 v))
      ∧ (0x200000 ≤ v.toNat → exec (.cpy a o) s = .next (s.trapMe 1 5 (BitVec.ofNat 64 (encode (.cpy a o)))))
      ∧ ((s.here.queue q.val).length < 8 → exec (.cpyq a q o) s = .next (queued 3 q.val v))
      ∧ (free → still → v.toNat + 47 < 0x200000 → v.toNat % 16 = 0 → exec (.scfg a e o) s = .next (queued 4 e.val v))
      ∧ (free → still → 0x200000 ≤ v.toNat + 47 → exec (.scfg a e o) s = .next (s.trapMe 1 5 (BitVec.ofNat 64 (encode (.scfg a e o)))))
      ∧ (free → still → v.toNat + 47 < 0x200000 → v.toNat % 16 ≠ 0 → exec (.scfg a e o) s = .next (s.trapMe 4 4 v))
      ∧ (free → x.windowBad v = false → exec (.swin a e o) s = .next (queued 5 e.val v))
      ∧ (free → x.windowBad v = true → exec (.swin a e o) s = .next (s.trapMe 1 5 (BitVec.ofNat 64 (encode (.swin a e o))))))
    ∧ (s.here.cmdq.length < 16 → s.readyCommand [] o = true → free →
      (x.state = .ready → exec (.sgo e o) s = .next (queued 6 e.val 0))
      ∧ (x.state = .idle ∨ x.state = .fault → exec (.sgo e o) s = .next (s.trapMe 1 5 (BitVec.ofNat 64 e.val)))
      ∧ exec (.shalt e o) s = .next (queued 7 e.val 0))
    ∧ (16 ≤ s.here.cmdq.length → exec (.cpy a o) s = .next s ∧ exec (.cpyc a o) s = .next s ∧ exec (.cpyt a q o) s = .next s
        ∧ exec (.cpyq a q o) s = .next s ∧ exec (.scfg a e o) s = .next s ∧ exec (.swin a e o) s = .next s ∧ exec (.sgo e o) s = .next s
        ∧ exec (.shalt e o) s = .next s)
    ∧ (¬free → exec (.scfg a e o) s = .next s ∧ exec (.swin a e o) s = .next s ∧ exec (.sgo e o) s = .next s ∧ exec (.shalt e o) s = .next s
        ∧ exec (.sstat d e o) s = .next s)
    ∧ (¬still → exec (.scfg a e o) s = .next s ∧ exec (.sgo e o) s = .next s)
    ∧ (8 ≤ (s.here.queue q.val).length → exec (.cpyq a q o) s = .next s)
    ∧ (free → s.me.ready [d] o = true → exec (.sstat d e o) s = .next (s.modMe fun t => { t.wr d x.status with pc := t.pc + 4 })))
    ∧ ∀ (k t : Nat) (c : EngineCmd) (rest : List EngineCmd), (s.tile k t).cmdq = c :: rest →
      let x := s.tile k t
      let does := fun (u : State) => s.engineTurn k t = u.modTile k t fun x => { x with cmdq := rest }
      let ended := fun (u : State) => does (u.modStrand k t c.strand fun x => x.lower c.slot)
      let v := (s.view k t true).1
      let seen := (s.view k t true).2
      (∀ y, c.kind ≤ 1 → x.jobs.length < 128 → v.copyDesc c.arg.toNat (c.kind == 1) = .ok y → does (seen.startCopy k t y c.strand c.slot false))
      ∧ (∀ r, c.kind ≤ 1 ∧ x.jobs.length < 128 ∨ c.kind = 2 ∧ c.arg ≠ 0 → v.copyDesc c.arg.toNat (c.kind == 1) = .error r →
        does (seen.endCommand k t c.strand c.slot (some r)))
      ∧ (c.kind ≤ 1 → 128 ≤ x.jobs.length → s.engineTurn k t = s)
      ∧ (∀ y, c.kind = 2 → c.arg ≠ 0 → v.copyDesc c.arg.toNat false = .ok y →
        ended (seen.modTile k t fun x => x.arm c.unit ⟨y, c.strand⟩))
      ∧ (c.kind = 2 → c.arg = 0 → ended (s.modTile k t fun x => x.disarm c.unit))
      ∧ (c.kind = 3 → (x.queue c.unit).length < 8 → ended (s.modTile k t fun x => x.putToken c.unit ⟨c.arg, false, .none, none⟩))
      ∧ (c.kind = 4 → does (s.configureStream k t c))
      ∧ (c.kind = 5 → ended (s.modTile k t fun x => x.setStream c.unit { x.stream c.unit with window := some c.arg }))
      ∧ (c.kind = 6 → does (s.startStream k t c))
      ∧ (c.kind = 7 → (x.stream c.unit).state ≠ .run → (x.stream c.unit).state ≠ .parked → ended s)
      ∧ (c.kind = 7 → ∀ u, s.haltStream k t c = some u → does u)

/-- R148 to R153, R155 to R158, R161, R144: the events of 06. The numbering of copies as id + 8 is the model's (log 20), and so are the moments at which races settle (log 87). -/
def Obligations.EngineEvents : Prop :=
  (∀ (s : State) (d t id : Nat) (j : Job), (s.tile d t).job id = some j →
    (j.wait = false → j.done < j.desc.len → (j.desc.sk ≠ 2 ∨ j.acquired = true) → exec (.engineWrite d t id) s = .next (if j.staging.isSome then s.stageUnit d t j else s.copyUnit d t j))
    ∧ (j.desc.len ≤ j.done → j.acquired = false →
      let left := s.modTile d t fun x => { x with jobs := x.jobs.filter fun q => q.id != id }
      let settled := left.over (left.tile d t).sites fun y s => s.modTile d y fun z => z.settleRaces (.engine (8 + id))
      (j.staging = none → exec (.copyCompletion d t id) s = .next (settled.modStrand d t j.strand fun x => x.lower j.slot))
      ∧ (j.staging ≠ none → exec (.copyCompletion d t id) s = .next settled)))
  ∧ (∀ (s : State) (d t id : Nat) (j : Job), (s.tile d t).job id = some j → j.acquired = true → j.desc.len ≤ j.done →
      exec (.engineConsumerEnd d t (id + 8)) s = .next ((s.endConsumer d ((s.tile d t).siteAt j.desc.sx j.desc.sy) j.desc.sh j.desc.rel).modTile d t
        fun x => { x with jobs := x.jobs.map fun j => if j.id = id then { j with acquired := false } else j }))
  ∧ (∀ (s : State) (d t id : Nat) (j : Job), (s.tile d t).job id = some j → j.desc.sk = 2 → j.acquired = false → j.done = 0 →
      exec (.engineConsumerStart d t (id + 8)) s = .next (s.acquireSource d t j))
  ∧ (∀ (s : State) (d t e : Nat), e < 8 →
      let x := (s.tile d t).stream e
      let start := ((s.tile d t).handle x.hnd).startConsumer x.hnd x.swz
      let held := fun (u : State) (b : Bool) => u.modTile d t fun y => y.setStream e { y.stream e with acquired := b }
      (x.state = .run → x.kind = 0 → x.hu = true → x.acquired = false → x.pos < x.total →
        (start = .go → exec (.engineConsumerStart d t e) s = .next (held (s.beginConsumer d t x.hnd) true))
        ∧ (start = .wait → exec (.engineConsumerStart d t e) s = .next s)
        ∧ (∀ r, start = .fault r →
          exec (.engineConsumerStart d t e) s = .next (s.streamFault d t e r (BitVec.ofInt 64 (x.address (x.visit 0))))))
      ∧ (x.acquired = true → x.total ≤ x.pos →
        exec (.engineConsumerEnd d t e) s = .next (held (s.endConsumer d t x.hnd x.rel) false)))
  ∧ (∀ (s : State) (d t q : Nat) (p : Template) (k : Token) (rest : List Token),
      k.tpl = some p → (s.tile d t).queue q = k :: rest →
      let nl := bits k.bits.toNat 10 15
      let left := (s.modTile d t fun x => ((x.setQueue q rest).headToken q).settleRaces .grid).returnCredit d t k.src
      let ok := nl ≠ 0 ∧ bits k.bits.toNat 0 10 = 0
      (k.psn = true → exec (.tokenFire d t q) s = .next (left.routeReport d t p.strand ⟨8, 3, 0⟩))
      ∧ (k.psn = false → ¬ok → exec (.tokenFire d t q) s = .next (left.routeReport d t p.strand ⟨1, 6, k.bits⟩))
      ∧ (k.psn = false → ok → (s.tile d t).jobs.length < 128 →
        exec (.tokenFire d t q) s = .next (left.startCopy d t
          { p.desc with saddr := p.desc.saddr + 64 * bits k.bits.toNat 40 24, daddr := p.desc.daddr + 64 * bits k.bits.toNat 25 15,
                        len := 64 * nl } p.strand 0 true))
      ∧ (k.psn = false → ok → 128 ≤ (s.tile d t).jobs.length → exec (.tokenFire d t q) s = .next s))
  ∧ (∀ (s : State) (d t q : Nat) (k : Token) (rest : List Token), k.tpl = none → (s.tile d t).queue q = k :: rest →
      exec (.tokenFire d t q) s = .next s)
  ∧ (∀ (s : State) (d t e : Nat),
      let x := (s.tile d t).stream e
      (x.out ≠ [] → exec (.streamElement d t e) s = .next (s.deliver d t e))
      ∧ (x.out = [] → x.state = .run → x.wait = false → x.pos < x.total →
        (x.kind = 6 → exec (.streamElement d t e) s = .next (s.forwardStep d t e))
        ∧ (x.kind ≠ 6 → readKind x.kind = true → (x.kind ≠ 0 ∨ x.hu = false ∨ x.acquired = true) →
          exec (.streamElement d t e) s = .next (s.readStep d t e))
        ∧ (x.kind ≠ 6 → readKind x.kind = false → exec (.streamElement d t e) s = .next (s.writeStep d t e)))
      ∧ (x.out = [] → x.state = .run → x.wait = false → x.total ≤ x.pos → x.rowsLeft = true →
        exec (.streamElement d t e) s = .next (s.takeRow d t e))
      ∧ (x.out = [] → x.state = .run → x.wait = false → x.total ≤ x.pos → x.rowsLeft = false → x.acquired = false →
        exec (.streamRunEnd d t e) s = .next (((s.modTile d t fun y => (y.dropForward e).settleRaces (.engine e)).modStream d t e
          Stream.rewind).modStrand d t x.strand fun y => y.lower x.slot)))

/-- R360 to R367, R130, R132, R230: issue and effect of the grid commands. The order of ILL, PERM and ALIGN is the model's (logs 45, 51), the EVAL of that PERM is free (log 43), and so are the one step of a commit (log 65) and the races that GRECV settles (log 87). -/
def Obligations.GridCommandsIssue : Prop :=
  ∀ (s : State) (d a b : Reg) (sel : TileSel) (n : Fin 4) (h : Bool) (o : Order),
    let passed := s.modMe fun t => { t with pc := t.pc + 4 }
    let raised := s.modMe fun t => { t.raise o.set.val with pc := t.pc + 4 }
    let chosen := s.here.select (selAll sel) (s.me.selValue sel)
    let ill := fun (i : Instr) => s.trapMe 1 5 (BitVec.ofNat 64 (encode i))
    let v := (s.me.rd a).toNat
    (s.me.ready (selRegs sel) o = true →
      (∀ l, chosen = some l →
        exec (.grun sel o) s = .next (passed.over l fun y s => s.modTile s.cur.die y fun t => { t with firing := true, heldPf := false })
        ∧ (let held := raised.over l fun y s => s.modTile s.cur.die y fun t => { t with firing := false }
          let sent := fun (kind : Nat) =>
            (held.modHere fun t => { t with gridCmds := t.gridCmds ++ [⟨kind, held.cur.strand, o.set.val, l⟩] }).settleGrid held.cur.die held.cur.site
          exec (.gfrz sel o) s = .next (sent 4) ∧ exec (.gdrain sel o) s = .next (sent 2)))
      ∧ (chosen = none → exec (.grun sel o) s = .next (ill (.grun sel o)) ∧ exec (.gfrz sel o) s = .next (ill (.gfrz sel o))
        ∧ exec (.gdrain sel o) s = .next (ill (.gdrain sel o))))
    ∧ (s.readyMem (a :: selRegs sel) o = true → s.gridBusy s.cur.die (s.selected sel) = false → s.splicePending = false →
      (0x200000 < v + 53248 → exec (.gload a sel o) s = .next (ill (.gload a sel o)) ∧ exec (.gsplice a sel o) s = .next (ill (.gsplice a sel o)))
      ∧ (v + 53248 ≤ 0x200000 → v % 64 ≠ 0 →
        exec (.gload a sel o) s = .next (s.trapMe 4 6 (s.me.rd a)) ∧ exec (.gsplice a sel o) s = .next (s.trapMe 4 6 (s.me.rd a)))
      ∧ (∀ l, v + 53248 ≤ 0x200000 → v % 64 = 0 → chosen = some l →
        let src := (s.view s.cur.die s.cur.site true).1
        let loaded := ((s.view s.cur.die s.cur.site true).2.modMe fun t => { t.raise o.set.val with pc := t.pc + 4 }).over l fun y s => s.modTile s.cur.die y fun t =>
          t.loadImage y (fun off n => src.spadRead src.part (v + off) n) (fun off n => src.spadPoisoned src.part (v + off) n)
        let done := fun (kind : Nat) =>
          loaded.modHere fun t => { t with gridCmds := t.gridCmds ++ [⟨kind, loaded.cur.strand, o.set.val, l⟩] }
        exec (.gload a sel o) s = .next (done 0) ∧ exec (.gsplice a sel o) s = .next (done 1))
      ∧ (v + 53248 ≤ 0x200000 → v % 64 = 0 → chosen = none →
        exec (.gload a sel o) s = .next (ill (.gload a sel o)) ∧ exec (.gsplice a sel o) s = .next (ill (.gsplice a sel o))))
    ∧ (s.splicePending = false → s.gridBusy s.cur.die (s.selected sel) = true →
      exec (.gload a sel o) s = .next s ∧ exec (.gsplice a sel o) s = .next s)
    ∧ (s.splicePending = true → s.readyMem (a :: selRegs sel) o = true → ∃ w : Word,
      exec (.gload a sel o) s = .next (s.freeWord.2.trapMe 6 0x12 w) ∧ exec (.gsplice a sel o) s = .next (s.freeWord.2.trapMe 6 0x12 w))
    ∧ (s.me.ready [] o = true → s.gridBusy s.cur.die s.here.sites = false → s.splicePending = false →
      exec (.gcommit o) s = .next passed.commit)
    ∧ (s.splicePending = false → s.gridBusy s.cur.die s.here.sites = true → exec (.gcommit o) s = .next s)
    ∧ (s.splicePending = true → s.me.ready [] o = true → ∃ w : Word, exec (.gcommit o) s = .next (s.freeWord.2.trapMe 6 0x12 w))
    ∧ (s.readyMem [a, b] o = true → (vget (s.here.pe (portPe n.val)).inq 3).length < 4 →
      exec (.gsend a b n o) s = .next (passed.modHere fun t => t.modPe (portPe n.val) fun p =>
        p.put 3 ⟨⟨BitVec.ofNat 128 (v + (s.me.rd b).toNat * 2 ^ 64), 31, 0, false, false⟩, .none⟩))
    ∧ (4 ≤ (vget (s.here.pe (portPe n.val)).inq 3).length → exec (.gsend a b n o) s = .next s)
    ∧ (∀ w rest, s.here.port n.val = w :: rest → s.readyMem [d] o = true →
      let left := fun (u : State) => (u.modHere fun t => t.setPort n.val rest).returnCredit s.cur.die s.cur.site w.src
      let took := fun (k : Nat) =>
        (s.modMe fun t => { t.wr d (BitVec.ofNat 64 (bits w.word.bits.toNat k 64)) with pc := t.pc + 4 }).modHere fun t => t.settleRaces .grid
      let bad := (passed.modHere fun t => t.settleRaces .grid).report s.cur.die s.cur.site s.cur.strand ⟨8, 1, BitVec.ofNat 64 n.val⟩
      (w.word.psn.getLsbD 0 = false → exec (.grecv d false n o) s = .next (took 0))
      ∧ (w.word.psn.getLsbD 1 = false → exec (.grecv d true n o) s = .next (left (took 64)))
      ∧ (w.word.psn.getLsbD 0 = true → exec (.grecv d false n o) s = .next bad)
      ∧ (w.word.psn.getLsbD 1 = true → exec (.grecv d true n o) s = .next (left bad)))
    ∧ (s.here.port n.val = [] → exec (.grecv d h n o) s = .next s)
    ∧ (let x := (s.me.rd b).toNat
      let all := flagOf x 18
      let k := bits x 15 2
      let legal := v + 16 ≤ 0x200000 ∧ x < 2 ^ 19 ∧ (all = true → x % 256 = 0) ∧ (all = false → s.here.inRegion (bits x 0 4) (bits x 4 4) = true)
      let src := (s.view s.cur.die s.cur.site true).1
      let psn := BitVec.ofNat 8 (flagCode (src.spadPoisoned src.part v 8) + 2 * flagCode (src.spadPoisoned src.part (v + 8) 8))
      let put := fun (y : Plane) => { y with
        consts := vset y.consts k (BitVec.ofNat 128 (src.spadRead src.part v 16)),
        constPsn := (y.constPsn &&& ~~~(3#8 <<< (2 * k))) ||| (psn <<< (2 * k)) }
      s.readyMem [a, b] o = true →
      (legal → v % 16 = 0 → exec (.gconst a b o) s = .next
        (((s.view s.cur.die s.cur.site true).2.modMe fun t => { t with pc := t.pc + 4 }).over (if all then s.here.sites else [s.here.siteAt (bits x 0 4) (bits x 4 4)]) fun y u => u.modTile u.cur.die y fun t =>
          t.modPe (peNumber (bits x 8 4) (bits x 12 3)) fun p => if flagOf x 17 then p.setShadow (put p.shadow) else p.setPlane (put p.plane)))
      ∧ (legal → v % 16 ≠ 0 → exec (.gconst a b o) s = .next (s.trapMe 4 4 (s.me.rd a)))
      ∧ (¬legal → exec (.gconst a b o) s = .next (ill (.gconst a b o))))
    ∧ (s.me.ready [d, b] o = true → (∀ y l, s.here.select false (s.me.rd b) ≠ some (y :: l)) →
      exec (.gstat d b o) s = .next (ill (.gstat d b o)))
    ∧ (∀ y, s.me.ready [d, b] o = true → s.here.select false (s.me.rd b) = some [y] →
      exec (.gstat d b o) s = .next (s.modMe fun t => { t.wr d (s.tile s.cur.die y).gridStatus with pc := t.pc + 4 }))

/-- R387 to R396: what the strand sees at issue. That an unconfigured island is ILL before a misaligned operand is ALIGN is the model's choice, log 53. -/
def Obligations.IslandCommandsIssue : Prop :=
  ∀ (s : State) (d a b : Reg) (st : Bool) (o : Order),
    let v := s.me.rd a
    let sent := fun (kind : Nat) (x y : Word) (dst : Reg) (st : Bool) =>
      (s.modMe fun t => { (t.raise o.set.val).mark dst with pc := t.pc + 4 }).modHere fun t => { t with island := { t.island with
        cmds := t.island.cmds ++ [⟨kind, s.cur.strand, o.set.val, x, y, dst, s.here.rnd, st, false⟩] } }
    let ill := fun (i : Instr) => s.trapMe 1 5 (BitVec.ofNat 64 (encode i))
    (s.me.ready [a] o = true →
      (mxConfigBad (s.queueTaken (mxPe v) (mxQueue v)) v = false → exec (.mxcfg a o) s = .next (sent 0 v 0 0 false))
      ∧ (mxConfigBad (s.queueTaken (mxPe v) (mxQueue v)) v = true → exec (.mxcfg a o) s = .next (ill (.mxcfg a o)))
      ∧ (rowRangeBad true v = false → exec (.mxzero a o) s = .next (sent 3 v 0 0 false))
      ∧ (rowRangeBad true v = true → exec (.mxzero a o) s = .next (ill (.mxzero a o))))
    ∧ (s.readyMem [a] o = true →
      (s.here.island.judged = none → exec (.mxldb a o) s = .next (ill (.mxldb a o)))
      ∧ ∀ c, s.here.island.judged = some c →
        (v.toNat % 64 ≠ 0 → exec (.mxldb a o) s = .next (s.trapMe 4 6 v))
        ∧ (v.toNat % 64 = 0 → 0x200000 < v.toNat + mxExtent c → exec (.mxldb a o) s = .next (ill (.mxldb a o)))
        ∧ (v.toNat % 64 = 0 → v.toNat + mxExtent c ≤ 0x200000 → exec (.mxldb a o) s = .next (sent 1 v 0 0 false)))
    ∧ (s.readyMem [] o = true →
      (s.here.island.judged = none → exec (.mxrot o) s = .next (ill (.mxrot o)))
      ∧ ∀ c, s.here.island.judged = some c → exec (.mxrot o) s = .next (sent 2 (BitVec.ofNat 64 (encode (.mxrot o))) 0 0 false))
    ∧ (s.readyCommand [a, b] o = true →
      (s.here.island.judged = none → exec (.mxrd a b st o) s = .next (ill (.mxrd a b st o)))
      ∧ ∀ c, s.here.island.judged = some c →
        (v.toNat % 64 ≠ 0 → exec (.mxrd a b st o) s = .next (s.trapMe 4 6 v))
        ∧ (v.toNat % 64 = 0 → mxReadBad c v (s.me.rd b) st = true → exec (.mxrd a b st o) s = .next (ill (.mxrd a b st o)))
        ∧ (v.toNat % 64 = 0 → mxReadBad c v (s.me.rd b) st = false → exec (.mxrd a b st o) s = .next (sent 4 v (s.me.rd b) 0 st)))
    ∧ (s.me.ready [d] o = true → exec (.mxchk d o) s = .next (sent 5 0 0 d false))

/-- R51, R363, R430, R436, R438. trySignal and tryGinst perform the dispatcher's part once the release has taken effect; that TSIG and GINST wait as accesses is the model's choice, log 22. -/
def Obligations.TaskInstructions : Prop :=
  ∀ (s : State) (d a b : Reg) (c : BitVec 8) (o : Order) (n : Nat) (r : Record),
    s.here.task = some n → s.record s.cur.die n = some r →
    let stalled := s.modMe fun t => { t with stall := true }
    (s.me.ready [] Order.none = true → r.endReq = .none →
      exec .tdone s = .next (stalled.setRecord s.cur.die n { r with endReq := .done })
      ∧ exec (.tfail c) s = .next (s.failAt s.cur.die s.cur.site s.cur.strand ⟨c.toNat, 0, 0⟩))
    ∧ (s.me.ready [] Order.none = true → r.endReq ≠ .none → exec .tdone s = .next stalled ∧ exec (.tfail c) s = .next stalled)
    ∧ (s.me.ready [a] o = true →
      let x := { s.newAccess .xlt 0 1 o.set.val with phase := .drained, data := s.me.rd a, data2 := 16 }
      (r.nsucc ≤ (s.me.rd a).toNat → exec (.tsig a o) s = .next (s.trapMe 1 5 (s.me.rd a)))
      ∧ ((s.me.rd a).toNat < r.nsucc → exec (.tsig a o) s = .next ((s.launch x).trySignal x)))
    ∧ (s.readyMem [d, a, b] Order.none = true →
      let x := { s.newAccess .xlt (s.me.rd b) 1 0 with phase := .drained, data := s.me.rd a, data2 := 24, pa := (s.me.rd b).toNat, dst := d }
      exec (.ginst d a b) s = .next ((s.launch x).tryGinst x))
    ∧ (s.me.ready [d, a] Order.none = true →
      let v := s.me.rd a
      let put := fun (w : Word) => s.modMe fun t => { t.wr d w with pc := t.pc + 4 }
      (tstatBad v = true → exec (.tstat d a) s = .next (s.trapMe 1 5 (BitVec.ofNat 64 (formatA 0x75 d.val a.val 0 0 0))))
      ∧ (tstatBad v = false → bits v.toNat 62 2 = 0 → exec (.tstat d a) s = .next (put (r.word (bits v.toNat 0 4))))
      ∧ (tstatBad v = false → bits v.toNat 62 2 ≠ 0 →
        exec (.tstat d a) s = .next (put (s.instStatusWord s.cur.die s.here.part (bits v.toNat 20 16)))))

/-- R116, R117, R124, R260: the shared frame of a firing; log entry 46 says when heldPf is set and that nothing orders the two faults. -/
def Obligations.FiringFrame : Prop :=
  ∀ (s : State) (w : PeWord),
    let eval := gridEval (s.here.relX s.cur.site) (s.here.relY s.cur.site) s.cur.pe s.cur.slot 0
    let unpaired := fun (u : State) => u.gridFault s.cur.die s.cur.site s.cur.pe 0xB 0x10 (eval 0x10) true
    let lost := fun (u : State) => u.gridFault s.cur.die s.cur.site s.cur.pe 8 4 (eval 0) false
    let consumes := fun (i : Instr) (c : Ctx) =>
      (c.a.ok = true → c.b.ok = true → exec i s = .next (lost s))
      ∧ (c.a.ok = false ∨ c.b.ok = false → exec i s = .next (unpaired (s.pick 2).2) ∨ exec i s = .next (lost (s.pick 2).2))
    (∀ x ∈ ([
      (0, Instr.gridNop), (1, Instr.move), (2, Instr.dup), (3, Instr.gridAdd), (4, Instr.gridSub), (5, Instr.gridMul), (6, Instr.fma), (7, Instr.fms),
      (8, Instr.gridMin), (9, Instr.gridMax), (10, Instr.abs), (11, Instr.neg), (12, Instr.gridCmp), (13, Instr.gridSel), (14, Instr.gridAnd), (15, Instr.gridOr),
      (16, Instr.gridXor), (17, Instr.not), (18, Instr.gridShl), (19, Instr.gridShr), (20, Instr.gridSra), (21, Instr.cvt), (22, Instr.cvts), (23, Instr.exp2),
      (24, Instr.log2), (25, Instr.rcp), (26, Instr.rsq), (27, Instr.red), (28, Instr.bcst), (29, Instr.shuf), (30, Instr.tag), (31, Instr.steer),
      (32, Instr.merge), (33, Instr.lgen), (34, Instr.cnt), (35, Instr.rand), (35, Instr.randSeed), (36, Instr.mld), (37, Instr.mst), (38, Instr.mamo),
      (39, Instr.mtas), (40, Instr.xltn), (41, Instr.barn), (42, Instr.endk)] : List (Nat × (PeWord → Instr))),
    (s.fires x.1 w = false → exec (x.2 w) s = .next s)
    ∧ (s.fires x.1 w = true →
      let c := s.firingCtx x.1 w (x.1 == 0x16)
      c.a.ok = false ∨ c.b.ok = false → c.a.psn = 0 → c.b.psn = 0 → exec (x.2 w) s = .next (unpaired s)))
    ∧ (s.fires 0x21 w = true → (s.firingCtx 0x21 w false).a.psn ≠ 0 → consumes (.lgen w) (s.firingCtx 0x21 w false))
    ∧ (∀ x ∈ ([(0x24, Instr.mld), (0x25, Instr.mst), (0x26, Instr.mamo), (0x27, Instr.mtas), (0x28, Instr.xltn), (0x22, Instr.cnt)] :
        List (Nat × (PeWord → Instr))),
      s.fires x.1 w = true → (s.firingCtx x.1 w false).a.psn.getLsbD 0 = true → consumes (x.2 w) (s.firingCtx x.1 w false))
    ∧ (∀ x ∈ ([(0x22, Instr.cnt), (0x1E, Instr.tag)] : List (Nat × (PeWord → Instr))),
      s.fires x.1 w = true → (s.firingCtx x.1 w false).b.psn.getLsbD 0 = true → consumes (x.2 w) (s.firingCtx x.1 w false))
    ∧ (∀ x ∈ ([(3, Instr.gridAdd), (0xE, Instr.gridAnd), (1, Instr.move)] : List (Nat × (PeWord → Instr))),
      s.fires x.1 w = true → (s.firingCtx x.1 w false).a.psn ≠ 0 → w.pact = 3 → consumes (x.2 w) (s.firingCtx x.1 w false))

/-- R399, R385, R353, R335, R422, R326, R400, R443, R418, R429, R425, R382. -/
def Obligations.GridMovesAndLogic : Prop :=
  ∀ w : PeWord,
    FiringResult (.gridNop w) 0 w (fun c => c.result 0 false)
    ∧ FiringResult (.move w) 1 w (fun c => { c.result c.a.word (c.a.word == 0) with psn := c.a.psn })
    ∧ LaneResult (.dup w) 2 w (fun c n v => v = lane c.fmt c.a.word (n / 2) % 2 ^ c.fmt.width) (fun _ _ => false)
    ∧ LaneResult (.bcst w) 0x1C w (fun c _ v => v = lane c.fmt c.a.word 0 % 2 ^ c.fmt.width) (fun _ _ => false)
    ∧ LaneResult (.shuf w) 0x1D w (fun c n v => v = lane c.fmt c.a.word (bits c.b.word.toNat (4 * n) 4 % c.fmt.lanes) % 2 ^ c.fmt.width)
        (fun _ _ => false)
    ∧ FiringResult (.gridAnd w) 0xE w (fun c => c.result (c.a.word &&& c.b.word) (c.a.word &&& c.b.word == 0))
    ∧ FiringResult (.gridOr w) 0xF w (fun c => c.result (c.a.word ||| c.b.word) (c.a.word ||| c.b.word == 0))
    ∧ FiringResult (.gridXor w) 0x10 w (fun c => c.result (c.a.word ^^^ c.b.word) (c.a.word ^^^ c.b.word == 0))
    ∧ FiringResult (.not w) 0x11 w (fun c => c.result (~~~c.a.word) (~~~c.a.word == 0))
    ∧ FiringResult (.gridSel w) 0xD w (fun c =>
        { c.result (ofLanes c.fmt ((List.range c.fmt.lanes).map fun n =>
            if lane c.fmt c.c n ≠ 0 then lane c.fmt c.a.word n else lane c.fmt c.b.word n)) (lane c.fmt c.c 0 != 0) with
          psn := bothHalves (c.a.psn != 0 || c.b.psn != 0 || c.cPsn) })
    ∧ (∀ s : State, s.fires 0x1E w = true → let c := s.firingCtx 0x1E w false
        c.a.ok = true → c.b.ok = true → c.b.psn.getLsbD 0 = false → exec (.tag w) s =
          .next (s.applyFiring c { c.result c.a.word false with psn := c.a.psn, tag := some (BitVec.ofNat 5 c.b.word.toNat) } []).1)
    ∧ FiringResult (.steer w) 0x1F w (fun c =>
        { c.result c.a.word (lane c.fmt c.b.word 0 != 0) with dst := if lane c.fmt c.b.word 0 ≠ 0 then 8 else 9 })
    ∧ (isQueue w.sa = true → isQueue w.sb = true → w.sa ≠ w.sb →
        FiringResult (.merge w) 0x20 w (fun c =>
          let useB := cmpLane c.fmt (lane c.fmt c.a.word 0) (lane c.fmt c.b.word 0) == 2
          { c.result (if useB then c.b.word else c.a.word) useB with
            tag := some ((if useB then c.b.tag else c.a.tag).getD 0), keep := [if useB then w.sa.val - 8 else w.sb.val - 8] }))

/-- R322, R428, R386, R359, R381, R320, R397, R344, R421, R407. FMA and FMS also carry the poison of the third operand. -/
def Obligations.GridArithmetic : Prop :=
  ∀ w : PeWord,
    let zero := fun (c : Ctx) (r : QWord) => laneZero c.fmt (lane c.fmt r 0)
    let clear := fun (c : Ctx) (r : QWord) => lane c.fmt r 0 == 0
    LaneResult (.gridAdd w) 3 w (fun c n v => v = addLane c.fmt c.mode (lane c.fmt c.a.word n) (lane c.fmt c.b.word n) % 2 ^ c.fmt.width
        ∧ (c.fmt.isInt = true → v = (lane c.fmt c.a.word n + lane c.fmt c.b.word n) % 2 ^ c.fmt.width)) zero
    ∧ LaneResult (.gridSub w) 4 w (fun c n v => v = subLane c.fmt c.mode (lane c.fmt c.a.word n) (lane c.fmt c.b.word n) % 2 ^ c.fmt.width
        ∧ (c.fmt.isInt = true → (v + lane c.fmt c.b.word n) % 2 ^ c.fmt.width = lane c.fmt c.a.word n % 2 ^ c.fmt.width)) zero
    ∧ LaneResult (.gridMul w) 5 w (fun c n v => v = mulLane c.fmt c.mode (lane c.fmt c.a.word n) (lane c.fmt c.b.word n) % 2 ^ c.fmt.width
        ∧ (c.fmt.isInt = true → v = lane c.fmt c.a.word n * lane c.fmt c.b.word n % 2 ^ c.fmt.width)) zero
    ∧ LaneResult (.gridMin w) 8 w
        (fun c n v => v = minMaxLane c.fmt false (lane c.fmt c.a.word n) (lane c.fmt c.b.word n) % 2 ^ c.fmt.width)
        (fun c _ => takesB c.fmt false (lane c.fmt c.a.word 0) (lane c.fmt c.b.word 0))
    ∧ LaneResult (.gridMax w) 9 w
        (fun c n v => v = minMaxLane c.fmt true (lane c.fmt c.a.word n) (lane c.fmt c.b.word n) % 2 ^ c.fmt.width)
        (fun c _ => takesB c.fmt true (lane c.fmt c.a.word 0) (lane c.fmt c.b.word 0))
    ∧ LaneResult (.gridCmp w) 0xC w (fun c n v => v = cmpLane c.fmt (lane c.fmt c.a.word n) (lane c.fmt c.b.word n) % 2 ^ c.fmt.width)
        (fun c _ => cmpLane c.fmt (lane c.fmt c.a.word 0) (lane c.fmt c.b.word 0) == 1)
    ∧ LaneResult (.gridShl w) 0x12 w
        (fun c n v => v = lane c.fmt c.a.word n * 2 ^ (lane c.fmt c.b.word n % c.fmt.width) % 2 ^ c.fmt.width) clear
    ∧ LaneResult (.gridShr w) 0x13 w (fun c n v => v = lane c.fmt c.a.word n / 2 ^ (lane c.fmt c.b.word n % c.fmt.width)) clear
    ∧ LaneResult (.gridSra w) 0x14 w (fun c n v =>
        v = ((BitVec.ofNat c.fmt.width (lane c.fmt c.a.word n)).sshiftRight (lane c.fmt c.b.word n % c.fmt.width)).toNat) clear
    ∧ (∀ neg : Bool, FiringResult (if neg then .fms w else .fma w) (if neg then 7 else 6) w (fun c =>
        let r := ofLanes c.fmt ((List.range c.fmt.lanes).map fun n =>
          fmaLane c.fmt c.mode neg (lane c.fmt c.a.word n) (lane c.fmt c.b.word n) (lane c.fmt c.c n))
        { c.result r (zero c r) with psn := bothHalves (c.a.psn != 0 || c.b.psn != 0 || c.cPsn) }))
    ∧ FiringResult (.abs w) 0xA w (fun c =>
        { c.result (ofLanes c.fmt ((List.range c.fmt.lanes).map fun n => (absLane c.fmt (lane c.fmt c.a.word n)).1))
            ((lane c.fmt c.a.word 0).testBit (c.fmt.width - 1)) with
          sat := (List.range c.fmt.lanes).any fun n => (absLane c.fmt (lane c.fmt c.a.word n)).2 })
    ∧ FiringResult (.neg w) 0xB w (fun c =>
        let r := ofLanes c.fmt ((List.range c.fmt.lanes).map fun n => (negLane c.fmt (lane c.fmt c.a.word n)).1)
        { c.result r ((lane c.fmt r 0).testBit (c.fmt.width - 1)) with
          sat := (List.range c.fmt.lanes).any fun n => (negLane c.fmt (lane c.fmt c.a.word n)).2 })
    ∧ (∀ s : State, s.fires 0x1B w = true → let c := s.firingCtx 0x1B w false
        let k := bits c.b.word.toNat 0 32
        let r := reduceLanes (if k = 0 then addLane c.fmt c.mode else minMaxLane c.fmt (k == 2)) 4
          ((List.range c.fmt.lanes).map fun n => lane c.fmt c.a.word n)
        c.a.ok = true → c.b.ok = true → k ≤ 2 → (w.pact = 3 → (c.result 0 false).psn = 0) →
          exec (.red w) s = .next (s.applyFiring c (c.result (ofLanes c.fmt [r]) (laneZero c.fmt r)) []).1)

/-- R350, R351, R357, R119. -/
def Obligations.GridConversionsAndFunctions : Prop :=
  ∀ w : PeWord,
    (∀ (s : State) (t : Format), s.fires 0x15 w = true → let c := s.firingCtx 0x15 w false
      let k := bits c.b.word.toNat 0 32
      let l := (List.range (min c.fmt.lanes t.lanes)).map fun j =>
        let i := bits k 4 2 * min c.fmt.lanes t.lanes + j
        if i < c.fmt.lanes then convert c.fmt t c.mode (lane c.fmt c.a.word i) else (0, false)
      c.a.ok = true → c.b.ok = true → Format.ofCode (bits k 0 4) = some t → bits k 6 26 = 0 → (w.pact = 3 → (c.result 0 false).psn = 0) →
        exec (.cvt w) s =
          .next (s.applyFiring c { c.result (ofLanes t (l.map (·.1))) (l.any (·.2)) with sat := l.any (·.2) } []).1)
    ∧ (∀ s : State, s.fires 0x15 w = true → let c := s.firingCtx 0x15 w false
      let k := bits c.b.word.toNat 0 32
      c.a.ok = true → c.b.ok = true → (Format.ofCode (bits k 0 4) = none ∨ bits k 6 26 ≠ 0) →
        (w.pact = 3 → (c.result 0 false).psn = 0) →
        exec (.cvt w) s = .next (s.gridFault s.cur.die s.cur.site s.cur.pe 0xB 0x10
          (gridEval (s.here.relX s.cur.site) (s.here.relY s.cur.site) s.cur.pe s.cur.slot 0 0x10) true))
    ∧ (∀ s : State, s.fires 0x16 w = true → let c := s.firingCtx 0x16 w true
      let tf := bits (c.p.vcEntry (c.b.tag.getD 0)) 12 4
      let l := (List.range c.fmt.lanes).map fun i =>
        let r := if c.fmt.lanes = 4 then bits c.b.word.toNat (32 * i) 32 else bits c.b.word.toNat (16 * i) 16 * 2 ^ 16
        toFormat (laneFormat tf) (.stochastic r) (decodeVal c.fmt (lane c.fmt c.a.word i))
      c.a.ok = true → c.b.ok = true → tf ∈ [1, 2, 7, 8, 9] → tf ≠ w.lt.val → (w.pact = 3 → (c.result 0 false).psn = 0) →
        exec (.cvts w) s = .next (s.applyFiring c
          { c.result (ofLanes (laneFormat tf) (l.map (·.1))) (l.any (·.2)) with sat := l.any (·.2) } [w.sb.val - 8]).1)
    ∧ (∀ x ∈ ([(0x17, Instr.exp2, exp2Lane), (0x18, Instr.log2, log2Lane), (0x19, Instr.rcp, rcpLane), (0x1A, Instr.rsq, rsqLane)] :
        List (Nat × (PeWord → Instr) × (Format → Rounding → Nat → Nat))),
      FiringResult (x.2.1 w) x.1 w (fun c =>
        let r := mapLanes c.fmt (x.2.2 c.fmt c.mode) c.a.word
        { c.result r (match decodeVal c.fmt (lane c.fmt r 0) with
            | .nan _ _ _ => true
            | .inf _ => true
            | .fin _ _ _ => false) with delay := some 0 }))

/-- R125, R375, R126, R345, R406, R331: operands that are not poisoned; the form for a poisoned operand is stated beside. What LGEN emits for a count of 0 while its counter is not 0 is the model's choice, log 90. -/
def Obligations.GridControlNodes : Prop :=
  ∀ (s : State) (w : PeWord),
    (s.fires 0x21 w = true → let c := s.firingCtx 0x21 w false
      let n := lane .i32 c.a.word 1
      let k := tgetD c.p.lgen c.slot 0
      let m := (k + 1) % 2 ^ 32
      let ends := n == 0 || m == n
      let flags := flagCode (k == 0 && n != 0) + 2 * flagCode (n != 0 && m == n) + 4 * flagCode (n == 0)
      c.a.ok = true → c.b.ok = true → c.a.psn = 0 → c.b.psn = 0 → exec (.lgen w) s = .next ((s.applyFiring c
        { c.result (ofLanes .i32 [lane .i32 c.a.word 0 + k * lane .i32 c.a.word 2, k, flags, 0]) ends with
          keep := if ends then [] else [w.sa.val - 8] } []).1.modPeHere fun p =>
            { p with lgen := if ends then tdel p.lgen c.slot else tput p.lgen c.slot m }))
    ∧ (s.fires 0x22 w = true → let c := s.firingCtx 0x22 w false
      let old := vget c.p.d w.dst.val
      let v := (BitVec.ofInt 32 ((lane .i32 old 0 : Int) + lane .i32 c.a.word 0 - lane .i32 c.b.word 0)).toNat
      c.a.ok = true → c.b.ok = true → c.a.psn = 0 → c.b.psn = 0 → (w.pact = 3 → vget c.p.dPsn w.dst.val = 0) →
        exec (.cnt w) s = .next (s.applyFiring c
          { c.result (BitVec.ofNat 128 (setBits old.toNat 0 32 v)) (v == 0) with psn := vget c.p.dPsn w.dst.val } []).1)
    ∧ (s.fires 0x23 w = true → let c := s.firingCtx 0x23 w false
      c.a.ok = true → c.b.ok = true →
        exec (.rand w) s = .next ((s.applyFiring c { c.result (philox c.p.rand c.a.word) false with delay := some 0 } []).1.modPeHere
          fun p => { p with rand := p.rand + 1 })
        ∧ exec (.randSeed w) s = .next ((s.applyFiring c (c.result 0 false) []).1.modPeHere fun p => { p with rand := c.b.word }))
    ∧ (s.fires 0x29 w = true → let c := s.firingCtx 0x29 w false
      let data := if w.sa = 0 then 0 else lane .i32 c.a.word 0
      c.a.ok = true → c.b.ok = true → exec (.barn w) s = .next ((s.applyFiring c
        (c.result (ofLanes .i32 [lane .i32 c.b.word 0 % 8, tgetD c.p.arrivalPhase c.slot 0, data, 0]) true) []).1.modPeHere fun p =>
          { p with
            arrivals := tdel p.arrivals c.slot
            arrivalPhase := tdel p.arrivalPhase c.slot
            arrivalGroup := tdel p.arrivalGroup c.slot }))

/-- R383, R378, R379, R442, R354, R230, R260. The status that MAMO and MTAS judge first follows the model's reading of R25 and R192, log 100; races end as log 87 says. -/
def Obligations.GridMemoryNodes : Prop :=
  ∀ (s : State) (w : PeWord),
    (s.fires 0x24 w = true → let c := s.firingCtx 0x24 w false
      let t := (s.view s.cur.die s.cur.site false).1
      let o := bits c.a.word.toNat 4 17 * 16
      let v := BitVec.ofNat 128 (t.spadRead t.part o 16)
      let p := BitVec.ofNat 2 (flagCode (t.spadPoisoned t.part o 8) + 2 * flagCode (t.spadPoisoned t.part (o + 8) 8))
      c.a.ok = true → c.b.ok = true → c.a.psn.getLsbD 0 = false → (w.pact = 3 → c.a.psn = 0 ∧ p = 0) →
        let u := (s.applyFiring c { c.result v (v == 0) with psn := p, delay := some 0 } []).1
        exec (.mld w) s = .next ({ u with freeCtr := u.freeCtr + t.races.length }.modHere fun x =>
          { x with races := t.races }.observe (· == Racer.grid) o 16))
    ∧ (s.fires 0x25 w = true → let c := s.firingCtx 0x25 w false
      let o := bits c.a.word.toNat 4 17 * 16
      let b := toBytes c.b.word.toNat 16
      c.a.ok = true → c.b.ok = true → c.a.psn.getLsbD 0 = false →
        let u := (s.applyFiring c { c.result 0 true with psn := 0 } []).1
        exec (.mst w) s = .next (u.modHere fun t =>
          (t.raceWrite .grid u.coin t.part o (b.take 8) (c.b.psn.getLsbD 0)).raceWrite .grid u.coin t.part (o + 8) (b.drop 8)
            (c.b.psn.getLsbD 1)).coined)
    ∧ (s.fires 0x26 w = true → let c := s.firingCtx 0x26 w false
      let a := c.a.word
      let va := bits a.toNat 0 64
      let bytes := if flagOf a.toNat 67 then 8 else 4
      let st := s.windowStatus c.tile.part va bytes (bits a.toNat 68 60 != 0 || bits a.toNat 64 3 == 7)
      let bad := c.a.psn.getLsbD 1
      c.a.ok = true → c.b.ok = true → c.a.psn.getLsbD 0 = false → (w.pact = 3 → bad = false) →
        (st ≠ 0 → exec (.mamo w) s =
          .next (s.applyFiring c { c.result (BitVec.ofNat 128 (st * 2 ^ 64)) true with psn := bothHalves bad, delay := some 0 } []).1)
        ∧ (st = 0 → exec (.mamo w) s =
          let r := s.applyFiring c { c.result 0 false with psn := bothHalves bad, delay := some 3 } []
          .next (r.1.gridWindow c r.2 va bytes ((AtomicOp.ofCode (bits a.toNat 64 3)).getD .add) (BitVec.ofNat 64 c.b.word.toNat)
            (c.b.psn.getLsbD 0 || bad))))
    ∧ (s.fires 0x27 w = true → let c := s.firingCtx 0x27 w false
      let a := c.a.word
      let va := bits a.toNat 0 64
      let st := s.windowStatus c.tile.part va 8 (bits a.toNat 70 58 != 0)
      let bad := c.a.psn.getLsbD 1
      c.a.ok = true → c.b.ok = true → c.a.psn.getLsbD 0 = false → (w.pact = 3 → bad = false) →
        (st ≠ 0 → exec (.mtas w) s =
          .next (s.applyFiring c { c.result (BitVec.ofNat 128 (st * 2 ^ 64)) false with psn := bothHalves bad, delay := some 0 } []).1)
        ∧ (st = 0 → exec (.mtas w) s =
          let r := s.applyFiring c { c.result 0 false with psn := bothHalves bad, delay := some 4 } []
          .next (r.1.gridWindow c r.2 va 8 .or (BitVec.ofNat 64 (2 ^ bits a.toNat 64 6)) (c.b.psn.getLsbD 0 || bad))))
    ∧ (s.fires 0x28 w = true → let c := s.firingCtx 0x28 w false
      let r := s.applyFiring c { c.result 0 false with delay := some 5 } []
      c.a.ok = true → c.b.ok = true → c.a.psn.getLsbD 0 = false → (w.pact = 3 → c.a.psn = 0) →
        ∃ x : Access, x.id = r.1.nextId ∧ x.agent = .pe r.1.cur.die r.1.cur.site r.1.cur.pe r.2 ∧ x.va = bits c.a.word.toNat 0 64
          ∧ x.part = c.tile.part ∧ x.gkey = c.tile.gkey ∧ x.kind = .xlt ∧ x.phase = .translate
          ∧ exec (.xltn w) s = .next (({ r.1 with nextId := r.1.nextId + 1 }.addAccess x).startXlt x))
    ∧ (s.fires 0x2A w = true → let c := s.firingCtx 0x2A w false
      let t := ((s.applyFiring c (c.result 0 true) []).1.modPeHere fun p =>
        { (List.range 4).foldl (fun p q => if routeValid (p.plane.route q) then p.enqueue q 0 (some ⟨0, 0, 0, true, false⟩) else p) p with ended := true })
      let u := t.departPe t.cur.die t.cur.site t.cur.pe
      c.a.ok = true → c.b.ok = true →
        (c.p.switched = true ∨ c.tile.succ = none → exec (.endk w) s = .next u)
        ∧ ∀ n, c.p.switched = false → c.tile.succ = some n → exec (.endk w) s = .next (u.startSuccessor u.cur.die n))

/-- R113, R117: the destination, the predicate action and the frame. Output queues may send on what waits. -/
def Obligations.FiringDelivers : Prop :=
  ∀ (s : State) (c : Ctx) (r : Fired), r.delay = none → r.dst < 8 → c.f.deq = 0 →
    let t := (s.applyFiring c r []).1
    let p := (s.tile s.cur.die s.cur.site).pe s.cur.pe
    let q := (t.tile s.cur.die s.cur.site).pe s.cur.pe
    vget q.d r.dst = r.word ∧ vget q.dPsn r.dst = r.psn ∧ (∀ n < 8, n ≠ r.dst → vget q.d n = vget p.d n ∧ vget q.dPsn n = vget p.dPsn n)
    ∧ (c.f.pact = 0 → q.p = p.p)
    ∧ (c.f.pact = 1 → q.p = predSet p.p c.f.pidx.val true)
    ∧ (c.f.pact = 2 → q.p = predSet p.p c.f.pidx.val false)
    ∧ (c.f.pact = 3 → q.p = predSet p.p c.f.pidx.val r.flag)
    ∧ q.inq = p.inq ∧ q.part = p.part ∧ q.rand = p.rand
    ∧ (∀ n, n ≠ s.cur.pe → ((t.tile s.cur.die s.cur.site).pe n).d = ((s.tile s.cur.die s.cur.site).pe n).d
        ∧ ((t.tile s.cur.die s.cur.site).pe n).p = ((s.tile s.cur.die s.cur.site).pe n).p)
    ∧ (∀ d n, t.record d n = s.record d n) ∧ t.hbm = s.hbm ∧ t.hostMem = s.hostMem

/-- R331, R119, R121, R72, R129, R137, R391, R394, R395, R387, R135, R136, R14: the tile's events that no strand commands. When a command is due and a latch fills is the model's reading, log 53. -/
def Obligations.GridAndIslandEvents : Prop :=
  ∀ (s : State) (d y : Nat),
    let t := s.tile d y
    (∀ (pe slot r : Nat) (w : BitVec 64), tget (t.pe pe).plane.slots slot = some w → t.planeTask (t.pe pe) = some r →
      bits w.toNat 25 7 = 0x29 → s.mayFire d y pe = true → tget (t.pe pe).arrivals slot = none →
      (t.pe pe).trigger 0x29 (peFields w.toNat) = true →
        let c := (vget (t.pe pe).plane.consts ((peFields w.toNat).sb.val - 12)).toNat
        exec (.barnArrival d y pe slot) s = .next (s.barrierArrive d y pe slot r (bits c 0 3) (bits c 32 16)))
    ∧ (∀ (k pe : Nat) (p : Pe) (r : Delayed), t.pes.find? (fun e => e.2.delayed.any fun x => x.id == k && x.kind == 0) = some (pe, p) →
      p.delayed.find? (fun x => x.id == k) = some r →
        exec (.delayedResult d y k) s =
          .next (((s.modTile d y fun t => t.modPe pe fun p => p.settle r).departPe d y pe).settleGrid d y))
    ∧ (∀ (k : Nat) (x : InFlight), lget t.routes k = some x → (∀ z ∈ t.routes.take k, z.pe ≠ x.pe ∨ z.q ≠ x.q) →
        let u := (s.modTile d y fun t => { t with routes := ldel t.routes k }).landWord d y x
        (∀ v, u = some v → exec (.routeWordArrival d y k) s = .next (v.settleGrid d y))
        ∧ (u = none → exec (.routeWordArrival d y k) s = .next s))
    ∧ (∀ pe < 128, t.splicing = true → (t.pe pe).maySwitch = true →
        exec (.pePlaneSwitch d y pe) s = .next ((((s.modTile d y fun t => if t.succ.isSome then t.markOld y pe else t).takeEndTokens d y pe).modTile d y fun t => t.modPe pe fun p =>
          { p with onB := !p.onB, lgen := [], arrivals := [], arrivalPhase := [], arrivalGroup := [], ended := false, switched := true }).modTile d y Tile.endBoundary))
    ∧ (t.shadow = .loading →
        let u := s.modTile d y fun t => { t with shadow := if t.pes.any fun e => e.2.loadCode != 0 then .failed else .loaded }
        exec (.configLoadComplete d y) s = .next (u.over t.sites fun z u =>
          let due := (u.tile d z).gridCmds.filter fun c => decide (c.kind ≤ 1) && c.sites.all fun z => (u.tile d z).shadow != .loading
          (u.modTile d z fun t => { t with gridCmds := t.gridCmds.filter fun c => !due.contains c }).over due fun c u => u.endLoad d z c))
    ∧ (let x := t.island
    let next := t.ringNext y
    let far := (s.tile d next).island
    (t.firmware ≠ none → exec (.latchFillStart d y) s = .next s ∧ exec (.latchFillComplete d y) s = .next s
      ∧ ∀ u, exec (.islandBeat d y u) s = .next s)
    ∧ (∀ c, t.firmware = none → x.loadReady = some c → x.rotReady far = none →
      exec (.latchFillStart d y) s =
        .next ((s.view d y true).2.modIsland d y fun x => { x.filling c with back := (s.view d y true).1.readLatch x.config c.arg.toNat }))
    ∧ (∀ c, t.firmware = none → x.loadReady = none → x.rotReady far = some c →
      (far.configured = true ∧ mxFmt far.config = mxFmt x.config ∧ mxScaled far.config = mxScaled x.config →
        exec (.latchFillStart d y) s =
          .next ((s.modIsland d y fun x => x.filling c).modIsland d next fun z => { z with back := { x.front with state := 1 } }))
      ∧ (far.configured = false ∨ mxFmt far.config ≠ mxFmt x.config ∨ mxScaled far.config ≠ mxScaled x.config →
        exec (.latchFillStart d y) s = .next ((s.endIsland d y c).report d y c.strand ⟨1, 5, c.arg⟩)))
    ∧ (∀ c, t.firmware = none → x.back.state = 1 → x.cmds.find? (fun c => c.kind == 1 && c.fill) = some c →
      exec (.latchFillComplete d y) s = .next ((s.modIsland d y fun x => { x with back := { x.back with state := 2 } }).endIsland d y c))
    ∧ (∀ c u, t.firmware = none → x.dueCmd = some c → exec (.islandBeat d y u) s = .next (s.performIsland d y c))
    ∧ (∀ u w lanes, x.dueCmd = none → x.configured = true → (s.die d).withheld = false → t.firmware = none → x.half = none → mxWide x.config = false →
      x.nextBeat = some (w :: lanes) → t.takesBeat (some w) = true →
        let v := s.takeBeat d y
        let v := if w.bits.getLsbD 9 then v.modIsland d y Island.swap else v
        exec (.islandBeat d y u) s = .next (v.over ((islandRows x.config w lanes).zip [u % 3, u / 3 % 3]) fun r v => v.islandApply d y r.1 r.2))
    ∧ (∀ u w lanes, x.dueCmd = none → x.configured = true → (s.die d).withheld = false → t.firmware = none → x.half = none →
      mxWide x.config = true → x.nextBeat = some (w :: lanes) → t.takesBeat (some w) = true →
        let v := s.takeBeat d y
        let v := if w.bits.getLsbD 9 then v.modIsland d y Island.swap else v
        exec (.islandBeat d y u) s = .next (v.modIsland d y fun x => { x with half := some (w :: lanes) }))
    ∧ (∀ u w first lanes, x.dueCmd = none → x.configured = true → (s.die d).withheld = false → t.firmware = none →
      x.half = some (w :: first) → x.nextBeat = some lanes → t.takesBeat none = true →
        exec (.islandBeat d y u) s = .next (((s.takeBeat d y).modIsland d y fun x => { x with half := none }).islandApply d y
          (islandRow x.config w 0 32 (first ++ lanes)) (u % 3))))

/-- R77, R49, R30, R31, R68: messages at a dispatcher. That a reservation's early count stops at 65,535 is its width, R30. -/
def Obligations.DecrementMessagesAreApplied : Prop :=
  ∀ (s : State) (d : Nat) (m : DecrMsg),
    let key := m.sdev * 8 + m.sdie
    let w := tgetD (s.die d).windows key (0, 0)
    let diff := (BitVec.ofNat 32 m.seq - BitVec.ofNat 32 w.1).toInt
    let put := fun (hi : Nat) (map : BitVec 64) => s.modDie d fun f => { f with windows := tput f.windows key (hi, map) }
    let up := put m.seq ((w.2 <<< diff.toNat) ||| 1)
    let old := put w.1 (w.2 ||| (1#64 <<< (-diff).toNat))
    let twice := s.modDie d fun f => { f with dropDup := f.dropDup + 1 }
    let late := s.modDie d fun f => { f with dropStale := f.dropStale + 1 }
    (0 < diff →
      exec (.decrement d m) s = .next ((up.applyDecrement d m false).acknowledge d m)
      ∧ exec (.forwardDecrement d m) s = .next ((up.applyDecrement d m true).acknowledge d m)
      ∧ exec (.abortMessage d m) s = .next ((up.abortInstance m.tinst).acknowledge d m))
    ∧ (diff ≤ 0 → -64 < diff → w.2.getLsbD (-diff).toNat = false →
      exec (.decrement d m) s = .next ((old.applyDecrement d m false).acknowledge d m)
      ∧ exec (.forwardDecrement d m) s = .next ((old.applyDecrement d m true).acknowledge d m)
      ∧ exec (.abortMessage d m) s = .next ((old.abortInstance m.tinst).acknowledge d m))
    ∧ (diff ≤ 0 → -64 < diff → w.2.getLsbD (-diff).toNat = true →
      exec (.decrement d m) s = .next (twice.acknowledge d m)
      ∧ exec (.forwardDecrement d m) s = .next (twice.acknowledge d m)
      ∧ exec (.abortMessage d m) s = .next (twice.acknowledge d m))
    ∧ (diff ≤ -64 →
      exec (.decrement d m) s = .next (late.acknowledge d m)
      ∧ exec (.forwardDecrement d m) s = .next (late.acknowledge d m)
      ∧ exec (.abortMessage d m) s = .next (late.acknowledge d m))
    ∧ (∀ r, s.record d m.record = some r → r.inst = m.tinst → r.reserved = false → r.state = .dormant →
      (1 < r.dcnt → s.applyDecrement d m false = s.setRecord d m.record { r with dcnt := r.dcnt - 1 })
      ∧ (r.dcnt = 1 → s.applyDecrement d m false = (s.setRecord d m.record { r with dcnt := 0 }).enterReady d m.record false))
    ∧ (∀ r, s.record d m.record = some r → r.inst = m.tinst → r.reserved = false → r.state = .dormant → r.fwd = true → 1 < r.dcnt →
      s.applyDecrement d m true = s.setRecord d m.record { r with dcnt := r.dcnt - 1, producer := some (m.pbx, m.pby, m.pw, m.ph) })
    ∧ (∀ r forward, s.record d m.record = some r → r.inst = m.tinst → r.reserved = true →
      s.applyDecrement d m forward = s.setRecord d m.record
        { r with dcnt := min (r.dcnt + 1) 65535, producer := if forward then some (m.pbx, m.pby, m.pw, m.ph) else r.producer })
    ∧ (∀ forward, (s.record d m.record = none ∨ ∃ r, s.record d m.record = some r ∧ r.inst ≠ m.tinst) →
      s.applyDecrement d m forward = s.modDie d fun f => { f with dropDecr := f.dropDecr + 1 })
    ∧ (∀ r, s.record d m.record = some r → r.inst = m.tinst → r.reserved = false → r.state ≠ .dormant →
      s.applyDecrement d m false = s.modDie d fun f => { f with dropDecr := f.dropDecr + 1 })

/-- R76, R77, R75, R274, R259, R278: the window write of a peer carries four slots of 16 bytes. The reason and header of a malformed message's log entry are the model's reading, log 26. -/
def Obligations.DecrementMessagesAreKept : Prop :=
  ∀ (s : State) (d k : Nat) (m : DecrMsg) (x : Kept) (w0 w1 : Word),
    let kept := s.keptTo d m.sdev m.sdie
    ((∀ y ∈ kept, y.msg.seq ≠ m.seq) → exec (.acknowledgement d m) s = .next s)
    ∧ (kept.find? (fun y => y.msg.seq == m.seq) = some x →
      let t := s.modDie d fun f => { f with kept := f.kept.erase x }
      let left := t.keptTo d m.sdev m.sdie
      exec (.acknowledgement d m) s = .next
        (t.over (left.filter fun y => inWindowOf left y.msg.seq && !inWindowOf kept y.msg.seq) fun y t => t.transmit d y.dev y.die y.kind y.msg))
    ∧ (∀ seq y rest, inWindowOf [] seq = true
      ∧ (inWindowOf (y :: rest) seq = true ↔ (BitVec.ofNat 32 seq - BitVec.ofNat 32 y.msg.seq).toInt < 64))
    ∧ (∀ dev die kind,
      let seq := tgetD (s.die d).seqOut (dev * 8 + die) 1
      let out := { m with sdev := s.plinth.podId, sdie := d, seq := seq }
      let t := s.modDie d fun f => { f with
        seqOut := tput f.seqOut (dev * 8 + die) (if seq = 0xFFFFFFFF then 1 else seq + 1), kept := f.kept ++ [⟨dev, die, kind, out⟩] }
      (inWindowOf (s.keptTo d dev die) seq = true → s.sendMessage d dev die kind m = t.transmit d dev die kind out)
      ∧ (inWindowOf (s.keptTo d dev die) seq = false → s.sendMessage d dev die kind m = t))
    ∧ (lget (s.die d).kept k = some x →
      (inWindowOf (s.keptTo d x.dev x.die) x.msg.seq = true → exec (.decrementResend d k) s = .next (s.transmit d x.dev x.die x.kind x.msg))
      ∧ (inWindowOf (s.keptTo d x.dev x.die) x.msg.seq = false → exec (.decrementResend d k) s = .next s))
    ∧ (lget (s.die d).kept k = some x →
      exec (.linklost d k) s = .next (s.raiseEvent 3 d (BitVec.ofNat 64 (x.dev + x.die * 2 ^ 10)) (BitVec.ofNat 64 x.msg.seq)))
    ∧ (∀ p : Packet, exec (.malformedDecrementMessage p w0 w1) s =
        .next (s.logDrop p.dst opcDecr 0 p (if bits w1.toNat 49 15 ≠ 0 ∨ bits w1.toNat 0 18 ≠ 0 then 1 else 2)))
    ∧ s.windowSlot d 0 0 = s
    ∧ (m.ok = true →
      (let e := encodeDecr .decrement m; (e.1 ≠ 0 ∨ e.2 ≠ 0) → exec (.decrement d m) s = .next (s.windowSlot d e.1 e.2))
      ∧ (let e := encodeDecr .forward m; exec (.forwardDecrement d m) s = .next (s.windowSlot d e.1 e.2))
      ∧ (let e := encodeDecr .abort m; exec (.abortMessage d m) s = .next (s.windowSlot d e.1 e.2))
      ∧ (let e := encodeDecr .ack m; exec (.acknowledgement d m) s = .next (s.windowSlot d e.1 e.2)))
    ∧ ∀ r : UaReq,
      let word := fun (i : Nat) => BitVec.ofNat 64 (fromBytes ((r.data.drop (8 * i)).take 8))
      let slot := fun (i : Nat) (t : State) => t.windowSlot d (word (2 * i)) (word (2 * i + 1))
      (s.plinth.admitted.contains r.src = true → r.op = .write → r.bytes = 64 → r.off % 64 = 0 → r.mask = List.replicate 64 true →
        s.windowWrite d r = (slot 3 (slot 2 (slot 1 (slot 0 s)))).answerPeer r false [] false)
      ∧ ((s.plinth.admitted.contains r.src = false ∨ r.op ≠ .write ∨ r.bytes ≠ 64 ∨ r.off % 64 ≠ 0) →
        s.windowWrite d r = (s.logDrop d opcDecr 0 { Packet.zero with dst := d, data := BitVec.ofNat 1024 (fromBytes r.data) } 2).answerPeer
          r true [] false)

/-- R48, R43, R44, R58, R63, R71, R264, R265, R266, R267. The fault of a reserved swizzle is the model's choice, log 56; that an image goes through the die's cache is log 35's reading, what the writes of a retiring region are is log 25's and that slots lost since the request give NOROOM is log 38's. -/
def Obligations.DispatcherEvents : Prop :=
  ∀ (s : State) (d n : Nat) (r : Record), s.record d n = some r →
    (s.mayPlace d = true → (s.die d).spliceReady = none → exec (.placementPass d) s =
      .next (((s.modDie d fun f => { f with freed := false }).askReservation d).passFrom d 8 []))
    ∧ (∀ p q, s.mayPlace d = true → (s.die d).spliceReady = some (p, q) → exec (.placementPass d) s = .next (s.placeSpliced d p q))
    ∧ (r.state = .placed →
      let go := s.setRecord d n { r with state := .staging, peer := [] }
      (r.restore = true → exec (.stagingAccepted d n) s = .next go)
      ∧ (r.restore = false → (∀ o ∈ r.opds, (s.tile d (r.stageHost o.2)).jobs.length + r.opds.length ≤ 128) →
        ((∀ o ∈ r.opds, swizzleReserved (BitVec.ofNat 5 (bits o.2.toNat 43 5)) = false) → exec (.stagingAccepted d n) s = .next (go.stage d n r))
        ∧ ((∃ o ∈ r.opds, swizzleReserved (BitVec.ofNat 5 (bits o.2.toNat 43 5)) = true) →
          exec (.stagingAccepted d n) s = .next (go.failTask d n ⟨1, 6, 0⟩ FaultAt.none))))
    ∧ (r.state = .staging → r.restore = false → r.codeResident = true → r.pred = none → s.staged d n r = true →
      exec (.taskRunnable d n) s = .next (s.setRecord d n { r with state := .runnable, frz := false }))
    ∧ (∀ q, r.state = .staging → r.restore = false → r.codeResident = false → (s.loadTask d n r).record d n = some q → q.state = .staging →
      q.codeResident = true → q.pred = none → (s.loadTask d n r).staged d n q = true →
      exec (.taskRunnable d n) s = .next ((s.loadTask d n r).setRecord d n { q with state := .runnable, frz := false }))
    ∧ (r.state = .runnable → r.pred = none →
      (r.restore = true → exec (.taskStart d n) s = .next (s.resume d n))
      ∧ (r.restore = false → exec (.taskStart d n) s = .next ((s.setRecord d n { r with state := .running, endReq := .none }).over r.sites
        fun y s => s.modTile d y fun t => t.start y n r)))
    ∧ (r.state = .running → r.pred = none → r.succRec = none → r.endReq = .done → s.writesDone d r = true → r.succPsn = false →
      exec (.taskRetirement d n) s =
        .next (((((s.sendSuccessors d n r).closePlace d n 7 0).vacateRegion d r.sites).modRecord d n fun r =>
          { r with state := .done, endReq := .none, codeResident := false }).retireInstance r.inst))
    ∧ (∀ q, r.state = .running → r.pred = none → r.succRec = some q → s.boundaryDone d n q = true → r.endReq = .done → s.writesDone d r = true →
      r.succPsn = false → exec (.taskRetirement d n) s =
        .next (((((s.sendSuccessors d n r).closePlace d n 7 0).handOver d n q).modRecord d n fun r =>
          { r with state := .done, endReq := .none, codeResident := false }).retireInstance r.inst))
    ∧ (r.state = .running → r.pred = none → r.succRec = none → r.endReq = .freeze → s.regionAtRest d r.sites = true →
      let slots := s.freeSlots r.part r.area
      (s.freezeRoom [(d, n)] = true → s.slotsInReach d true slots = false →
        exec (.freezeSaveComplete d n) s = .next (s.fetchLines d true r.part slots))
      ∧ (s.freezeRoom [(d, n)] = true → s.slotsInReach d true slots = true →
        exec (.freezeSaveComplete d n) s = .next (((s.freeze d n r none).markFrozen r.part).answerFreeze d n 0))
      ∧ (s.freezeRoom [(d, n)] = false →
        exec (.freezeSaveComplete d n) s = .next ((s.modRecord d n fun x => { x with endReq := .none }).answerFreeze d n 3)))
    ∧ (r.state = .staging → r.restore = true → r.pred = none → s.slotsInReach d false (r.image.filterMap (·.slot)) = false →
      exec (.restoreComplete d n) s = .next (s.fetchLines d false r.part (r.image.filterMap (·.slot))))
    ∧ (r.state = .staging → r.restore = true → r.pred = none → r.succRec = none →
      s.slotsInReach d false (r.image.filterMap (·.slot)) = true →
      (∀ i, s.badTile r = some i →
        exec (.restoreComplete d n) s = .next (s.failTask d n ⟨8, 5, BitVec.ofNat 64 (i / r.w * 16 + i % r.w)⟩ ⟨0, i % r.w, i / r.w, 0⟩))
      ∧ (s.badTile r = none →
        let bad := s.poisonedParts r
        (r.poisonedTile bad.1 = none → exec (.restoreComplete d n) s = .next ((bad.2.writeBack d n r bad.1).markFrozen r.part))
        ∧ ∀ i, r.poisonedTile bad.1 = some i → exec (.restoreComplete d n) s =
          .next (bad.2.failTask d n ⟨8, 5, BitVec.ofNat 64 (i / r.w * 16 + i % r.w)⟩ ⟨0, i % r.w, i / r.w, 0⟩)))

/-- R270 to R273: order and acceptance, with the opcodes of the commands. The four performed on arrival are RDINV, RDLOG, PANS and RDCNT. -/
def Obligations.HostCommandOrder : Prop :=
  ∀ (s : State) (c : Cmd),
    (∀ x ∈ ([
        (1, false, Instr.hostNop), (2, true, Instr.rdinv), (3, true, Instr.rdlog), (4, false, Instr.ldmq), (5, false, Instr.inst), (6, false, Instr.rsvi),
        (7, false, Instr.kill), (8, false, Instr.freeze), (9, false, Instr.setqw), (10, false, Instr.setctx), (11, false, Instr.setkey), (12, false, Instr.hostTlbi),
        (13, true, Instr.pans), (14, false, Instr.mtasn), (15, false, Instr.fpool), (16, false, Instr.offline), (17, false, Instr.pwrcap), (18, false, Instr.setid),
        (19, false, Instr.admitDevice), (20, false, Instr.dismiss), (21, true, Instr.rdcnt), (22, false, Instr.rdpat), (23, false, Instr.rdpub), (24, false, Instr.rdsns),
        (25, false, Instr.rdwlog), (26, false, Instr.fwstage), (27, false, Instr.fwcommit), (28, false, Instr.rdacc), (32, false, Instr.bpool)] : List (Nat × Bool × (Cmd → Instr))),
      let i := x.2.2 c
      (s.plinth.mayPerform = false → exec i s = .next s)
      ∧ (s.plinth.mayPerform = true → s.plinth.progress = none → s.plinth.queue = [] → c.seq.toNat = s.plinth.expectSeq → c.reserved ≠ 0 →
        exec i s = .next ((s.accept c).complete x.1 c.seq.toNat 1 0 0))
      ∧ (∀ g, x.2.1 = false → s.plinth.mayPerform = true → s.plinth.progress = some g → c.seq.toNat = s.plinth.expectSeq →
        exec i s = .next ((s.accept c).modPlinth fun p => { p with queue := p.queue ++ [(x.1, c)] }))
      ∧ (s.plinth.mayPerform = true → s.plinth.queue = [] → c.seq.toNat ≠ s.plinth.expectSeq → s.plinth.accepted c.seq.toNat = false →
        let t := s.modPlinth fun p => { p with cmdHead := p.cmdHead + 1, lastTs := c.ts }
        exec i s = .next (t.postCompletions (t.plinth.cplQueue ++ [⟨x.1, 1, c.seq.toNat, 0, 0⟩]))))
    ∧ ∀ o : BitVec 8, CommandResult (.reservedCommand o c) o.toNat c (fun _ => True) (fun s => (s, 1, 0, 0))

/-- R273 with R23, R62, R26, R29, R30, R48, R264, R57, R251, R28: one arm for each command's effect; other arguments complete with the status that the command's rule gives. The model's readings: RDLOG's ranges and numbers (log 26), INSTST 4 for an argument table that cannot be read (log 54), the indices of the command ring (log 57), RSVI's statuses for an unknown maquette and a die that does not serve (log 58), and where the bases of an instance's runs are returned (log 105). -/
def Obligations.HostCommandsOfTasks : Prop :=
  ∀ c : Cmd,
    CommandResult (.hostNop c) 1 c (fun _ => True) (fun s => (s, 0, 0, 0))
    ∧ CommandResult (.rdinv c) 2 c (fun _ => c.arg0.toNat ≤ 16) (fun s => (s, 0, (lget s.plinth.inventory c.arg0.toNat).getD 0, 0))
    ∧ CommandResult (.rdinv c) 2 c (fun _ => 16 < c.arg0.toNat) (fun s => (s, 1, 0, 0))
    ∧ CommandResult (.rdlog c) 3 c (fun _ => c.arg1.toNat ≤ 1 ∧ c.arg0.toNat < 8 ∨ c.arg1.toNat = 2 ∧ c.arg0.toNat < 17) (fun s =>
        let es := (s.logEntries c.arg0.toNat c.arg1.toNat).filter fun e =>
          decide (c.arg3.toNat ≤ e.1) && decide (e.1 < c.arg3.toNat + c.arg2.toNat)
        (s.hostPut c.arg4 (es.flatMap (·.2)), 0, BitVec.ofNat 64 es.length, 0))
    ∧ (let m := fun (s : State) => (⟨mputs [] 0 (s.hostBytes c.arg1 c.arg2.toNat), c.arg2.toNat, false⟩ : Maquette)
       let free := fun (s : State) => (List.range 65536).filter fun n => (tget (s.die c.arg0.toNat).maquettes n).isNone
       CommandResult (.ldmq c) 4 c (fun s => c.arg0.toNat ≤ 7 ∧ c.arg2.toNat ≤ 8388608 ∧ s.serving c.arg0.toNat = true ∧ (m s).bad = true)
         (fun s => (s, 1, 0, 0))
       ∧ CommandResult (.ldmq c) 4 c (fun s => c.arg0.toNat ≤ 7 ∧ c.arg2.toNat ≤ 8388608 ∧ s.serving c.arg0.toNat = true ∧ (m s).bad = false
            ∧ (s.die c.arg0.toNat).graphUsed + c.arg2.toNat ≤ 8388608)
         (fun s => match s.pickFrom (free s) with
           | none => (s, 3, 0, 0)
           | some (n, t) => (t.modDie c.arg0.toNat fun f => { f with maquettes := tput f.maquettes n (m s) }, 0,
             BitVec.ofNat 64 (c.arg0.toNat * 2 ^ 16 + n), 0)))
    ∧ CommandResult (.inst c) 5 c (fun s => c.arg2 = 0 ∧ s.maquetteOf c.arg0 = none) (fun s => (s, 7, 4, 0))
    ∧ (∀ m, CommandResult (.inst c) 5 c (fun s => c.arg2 = 0 ∧ s.maquetteOf c.arg0 = some m ∧ m.part = c.part.toNat)
        (fun s =>
          let r := s.instantiate m (m.args.foldl (fun t k => tput t k (BitVec.ofNat 64 (mread s.hostMem (c.arg1.toNat + 8 * k) 8))) []) none none
          if m.args.any fun k => Config.hostReadFails (c.arg1.toNat + 8 * k) then (s, 7, 4, 0)
          else if r.1 = 0 then
            let kept := if r.2.1 = 0 then ((tget s.insts 0).map Inst.runs).getD [] else []
            let runs := (((tget r.2.2.insts r.2.1).map Inst.runs).getD kept).map fun x => (x.1, x.2.1)
            (r.2.2.modPlinth fun p => { p with hostRuns := p.hostRuns ++ [(r.2.1, runs)] }, 0, BitVec.ofNat 64 (r.2.1 * 2 ^ 48), 0)
          else (r.2.2, 7, BitVec.ofNat 64 r.1, 0)))
    ∧ CommandResult (.rsvi c) 6 c (fun s => s.maquetteOf c.arg0 = none) (fun s => (s, 1, 0, 0))
    ∧ (∀ m, CommandResult (.rsvi c) 6 c (fun s => s.maquetteOf c.arg0 = some m ∧ m.dies.any (fun d => !s.serving d) = true)
        (fun s => (s, 3, 0, 0)))
    ∧ (∀ m, CommandResult (.rsvi c) 6 c (fun s => s.maquetteOf c.arg0 = some m ∧ m.dies.all s.serving = true)
        (fun s => match s.reserve c.arg0.toNat m with
          | none => (s, 3, 0, 0)
          | some (n, runs, t) => (t.hostPut c.arg1 ((List.range 8).flatMap fun d => toBytes (match runs.find? fun r => r.1 == d with
            | some r => 2 ^ 63 + r.2.1
            | none => 0) 8), 0, BitVec.ofNat 64 n, 0)))
    ∧ CommandResult (.kill c) 7 c (fun s => tget s.insts c.arg0.toNat = none) (fun s => (s, 6, 0, 0))
    ∧ (∀ x, CommandResult (.kill c) 7 c (fun s => tget s.insts c.arg0.toNat = some x)
        (fun s => (if x.reserved.isSome then s.releaseReservation c.arg0.toNat x else s.killInstance c.arg0.toNat, 0, 0, 0)))
    ∧ (∀ t st, CommandResult (.freeze c) 8 c (fun s => c.arg0.toNat ≤ 7 ∧ s.online c.arg0.toNat = true
          ∧ s.requestFreeze c.arg0.toNat c.arg1.toNat = (t, some st)) (fun _ => (t, st, 0, 0)))
    ∧ (∀ s t : State, s.performs c = true → c.arg0.toNat ≤ 7 → (s.accept c).online c.arg0.toNat = true →
        (s.accept c).requestFreeze c.arg0.toNat c.arg1.toNat = (t, none) → exec (.freeze c) s =
          .next (t.modPlinth fun p => { p with progress := some ⟨c.seq.toNat, 8, c.arg0.toNat, c.arg1.toNat⟩ }))
    ∧ (∀ (s : State) (d rec : Nat) (r : Record), s.record d rec = some r → r.reserved = false → r.state = .running → r.pred = none →
        r.endReq = .none → s.freezeGroup d 144 [rec] = [rec] →
        (s.freezeRoom [(d, rec)] = true → s.requestFreeze d rec = (s.setRecord d rec { r with endReq := .freeze }, none))
        ∧ (s.freezeRoom [(d, rec)] = false → s.requestFreeze d rec = (s, some 3)))
    ∧ CommandResult (.freeze c) 8 c (fun s => 7 < c.arg0.toNat ∨ s.online c.arg0.toNat = false) (fun s => (s, 6, 0, 0))
    ∧ CommandResult (.setqw c) 9 c (fun _ => 1 ≤ c.arg0.toNat ∧ c.arg0.toNat ≤ 255)
        (fun s => ({ s with weights := tput s.weights c.part.toNat c.arg0.toNat }, 0, 0, 0))
    ∧ CommandResult (.setqw c) 9 c (fun _ => c.arg0.toNat = 0 ∨ 255 < c.arg0.toNat) (fun s => (s, 1, 0, 0))
    ∧ CommandResult (.pans c) 13 c (fun s => c.arg2.toNat ≤ 7 ∧ (s.die c.arg2.toNat).pageReqs = [])
        (fun s => (s.modDie c.arg2.toNat fun f => { f with dropAnswer := f.dropAnswer + 1 }, 0, 0, 0))
    ∧ (∀ q, CommandResult (.pans c) 13 c (fun s => c.arg2.toNat ≤ 7 ∧ s.online c.arg2.toNat = true ∧ c.arg1.toNat ≤ 1
          ∧ bits c.arg0.toNat 32 32 = 0 ∧ (s.die c.arg2.toNat).pageReqs = [q] ∧ q.id = bits c.arg0.toNat 0 16 ∧ q.cgen = bits c.arg0.toNat 16 16
          ∧ (s.context q.part).cgen = q.cgen ∧ (s.context q.part).valid = true)
        (fun s => ((s.modDie c.arg2.toNat fun f => { f with pageReqs := [] }).over q.waiters
          fun i s => s.answerWaiter c.arg2.toNat i (c.arg1 == 1), 0, 0, 0)))
    ∧ (∀ q, CommandResult (.pans c) 13 c (fun s => c.arg2.toNat ≤ 7 ∧ (s.die c.arg2.toNat).pageReqs = [q] ∧ (q.id ≠ bits c.arg0.toNat 0 16
          ∨ q.cgen ≠ bits c.arg0.toNat 16 16 ∨ (s.context q.part).cgen ≠ q.cgen ∨ (s.context q.part).valid = false))
        (fun s => (s.modDie c.arg2.toNat fun f => { f with dropAnswer := f.dropAnswer + 1 }, 0, 0, 0)))
    ∧ CommandResult (.fpool c) 15 c (fun s => (s.keyOf c.part c.arg2.toNat).isSome = true ∧ bits c.arg0.toNat 50 14 = 0
          ∧ c.arg0.toNat + c.arg1.toNat * slotBytes ≤ s.hbmSize ∧ s.freezePool = [])
        (fun s => ({ s with freezePool := (List.range c.arg1.toNat).map fun n => ⟨c.arg0.toNat + n * slotBytes, c.arg2.toNat, c.part, false⟩ }, 0, 0, 0))
    ∧ (let key := poolKey c.part.toNat c.arg0.toNat
       CommandResult (.bpool c) 32 c (fun s => c.arg0.toNat ≤ 15 ∧ 16 ≤ c.arg1.toNat ∧ c.arg1.toNat ≤ 30 ∧ (tgetD s.pools key ⟨0, []⟩).log = 0
          ∧ c.arg3.toNat % 2 ^ c.arg1.toNat = 0 ∧ c.arg4 = 0 ∧ s.poolBlocks key + c.arg2.toNat ≤ 65536)
        (fun s => ({ s with pools := tput s.pools key ⟨c.arg1.toNat, (tgetD s.pools key ⟨0, []⟩).free
          ++ (List.range c.arg2.toNat).map fun n => c.arg3.toNat + n * 2 ^ c.arg1.toNat⟩ }, 0, 0, 0)))

/-- R273, R283 with R239, R245, R247, R252, R269, R277, R278, R284: one arm for each command's effect. The layouts of RDCNT and RDSNS and the cryptography are free values (log 2). Choices of the log that the clauses rest on: 7 (TLBI in one step), 29 (SETKEY's 128 bytes and the key's number), 58 (argument checks), 59 (the order of OFFLINE's checks), 60 (PWRCAP takes any value), 82 (what ADMIT with FRESH forgets), 104 (when SETID is BUSY). -/
def Obligations.HostCommandsOfTheDevice : Prop :=
  ∀ c : Cmd,
    (let w := c.arg0.toNat
     let root := bits w 17 35 * 2 ^ 17
     CommandResult (.setctx c) 10 c (fun s => bits w 52 11 = 0 ∧ flagOf w 16 = false ∧ (flagOf w 63 = true → bits root 50 2 = 0 ∧ root < s.hbmSize))
        (fun s => ({ s with contexts := tput s.contexts c.part.toNat ⟨flagOf w 63, root, ((s.context c.part).cgen + 1) % 65536⟩ }, 0, 0, 0))
     ∧ CommandResult (.setctx c) 10 c (fun _ => bits w 52 11 ≠ 0 ∨ flagOf w 16 = true) (fun s => (s, 1, 0, 0)))
    ∧ CommandResult (.setkey c) 11 c (fun _ => c.arg0.toNat ≤ 63 ∧ c.arg1 = 0)
        (fun s => match Config.unwrapKey (s.hostBytes c.arg2 128) with
          | none => (s, 1, 0, 0)
          | some k => ({ s with keys := tput s.keys c.arg0.toNat ⟨k + 1, c.part⟩ }, 0, 0, 0))
    ∧ CommandResult (.setkey c) 11 c (fun _ => 63 < c.arg0.toNat ∨ c.arg1 ≠ 0) (fun s => (s, 1, 0, 0))
    ∧ CommandResult (.hostTlbi c) 12 c (fun _ => c.arg0.toNat ≤ c.arg1.toNat ∧ c.arg1.toNat < 2 ^ 57)
        (fun s => (s.dropTranslations c.part c.arg0.toNat c.arg1.toNat, 0, 0, 0))
    ∧ CommandResult (.mtasn c) 14 c (fun s => c.arg0.toNat ≤ c.arg1.toNat ∧ c.arg1.toNat < s.windowSize / 0x200000 ∧ c.arg2.toNat = 1)
        (fun s => (s.over ((List.range (c.arg1.toNat + 1 - c.arg0.toNat)).map (c.arg0.toNat + ·)) fun t s => s.assignTile t none, 0, 0, 0))
    ∧ CommandResult (.mtasn c) 14 c (fun s => c.arg0 = c.arg1 ∧ c.arg1.toNat < s.windowSize / 0x200000 ∧ c.arg2 = 0
          ∧ s.dieState (s.windowNode (c.arg0.toNat * 0x200000)) ≠ 1)
        (fun s => (s.assignTile c.arg0.toNat (some c.part), 0, 0, 0))
    ∧ CommandResult (.offline c) 16 c (fun _ => 15 < c.arg0.toNat) (fun s => (s, 1, 0, 0))
    ∧ CommandResult (.offline c) 16 c (fun s => c.arg0.toNat ≤ 15 ∧ diesConnected (s.leftWithout c.arg0.toNat) = false) (fun s => (s, 8, 0, 0))
    ∧ CommandResult (.offline c) 16 c (fun s => c.arg0.toNat < 8 ∧ diesConnected (s.leftWithout c.arg0.toNat) = true ∧ s.dieState c.arg0.toNat ≤ 1)
        (fun s => if s.dieBusy c.arg0.toNat then (s.setDieState c.arg0.toNat 1, 4, 0, 0) else (s.evacuate c.arg0.toNat, 0, 0, 0))
    ∧ CommandResult (.pwrcap c) 17 c (fun _ => True) (fun s => (s.modPlinth fun p => { p with powerCap := c.arg0.toNat }, 0, 0, 0))
    ∧ CommandResult (.setid c) 18 c (fun s => c.arg0.toNat ≤ 1023 ∧ s.plinth.idSet = false ∧ s.insts = [])
        (fun s => (s.modPlinth fun p => { p with podId := c.arg0.toNat, idSet := true }, 0, 0, 0))
    ∧ CommandResult (.setid c) 18 c (fun s => c.arg0.toNat ≤ 1023 ∧ (s.plinth.idSet = true ∨ s.insts ≠ [])) (fun s => (s, 4, 0, 0))
    ∧ CommandResult (.admitDevice c) 19 c (fun _ => c.arg0.toNat ≤ 1023 ∧ c.arg1.toNat ≤ 1) (fun s =>
        ((if c.arg1 = 1 then (s.freshDevice c.arg0.toNat).forgetTransactions c.arg0.toNat else s).modPlinth fun p => { p with admitted := sput p.admitted c.arg0.toNat }, 0, 0, 0))
    ∧ CommandResult (.dismiss c) 20 c (fun s => s.plinth.admitted.contains c.arg0.toNat = false) (fun s => (s, 6, 0, 0))
    ∧ CommandResult (.dismiss c) 20 c (fun s => s.plinth.admitted.contains c.arg0.toNat = true) (fun s =>
        ((s.modPlinth fun p => { p with admitted := sdel p.admitted c.arg0.toNat }).over (List.range 8) fun d s =>
          s.over ((s.die d).kept.filter fun k => k.dev == c.arg0.toNat) fun k s => s.linkLost d k, 0, 0, 0))
    ∧ CommandResult (.rdcnt c) 21 c (fun _ => c.arg0.toNat ≤ 16)
        (fun s => (s.hostPut c.arg1 (Config.counterBytes c.arg0.toNat (s.counters c.arg0.toNat)), 0, 0, 0))
    ∧ CommandResult (.rdpat c) 22 c (fun s => s.plinth.bundles.any (fun b => b.1 == c.arg0.toNat) = false) (fun s => (s, 6, 0, 0))
    ∧ CommandResult (.rdpat c) 22 c (fun s => s.plinth.bundles.any (fun b => b.1 == c.arg0.toNat) = true) (fun s =>
        let bs := (s.plinth.bundles.filter fun b => decide (c.arg0.toNat ≤ b.1) && decide (b.1 < c.arg0.toNat + c.arg1.toNat)).reverse
        (s.hostPut c.arg2 (bs.flatMap (·.2.2)), 0, BitVec.ofNat 64 bs.length, 0))
    ∧ CommandResult (.rdpub c) 23 c (fun _ => True)
        (fun s => (s.hostPut c.arg0 ((Config.publicKey ++ List.replicate 64 0).take 64), 0, 0, 0))
    ∧ CommandResult (.rdsns c) 24 c (fun _ => True) (fun s => (s.hostPut c.arg0 (Config.sensorBytes s.plinth.sensors), 0, 0, 0))
    ∧ CommandResult (.rdwlog c) 25 c (fun _ => True) (fun s =>
        let es := (s.plinth.wenizLog.filter fun e => decide (c.arg0.toNat ≤ e.seq) && decide (e.seq < c.arg0.toNat + c.arg1.toNat)).reverse
        (s.hostPut c.arg2 (es.flatMap WenizEntry.bytes), 0, BitVec.ofNat 64 es.length, 0))
    ∧ CommandResult (.fwstage c) 26 c (fun _ => True)
        (fun s =>
          let put := fun (b : Bank) => s.modPlinth fun p => { p with
            banks := lset p.banks (1 - s.plinth.running) b, tryFirst := if b.filled then some (1 - s.plinth.running) else none }
          match Config.verifyImage (s.hostBytes c.arg0 c.arg1.toNat) with
          | none => (put ⟨false, 0, false⟩, 1, 0, 0)
          | some v => if v < s.plinth.rollback then (put ⟨false, 0, false⟩, 1, 0, 0) else ((put ⟨true, v, true⟩).wenizLogAdd 4 v, 0, 0, 0))
    ∧ (∀ b, CommandResult (.fwcommit c) 27 c (fun s => lget s.plinth.banks s.plinth.running = some b ∧ b.staged = true)
        (fun s => ((s.modPlinth fun p => { p with
          rollback := max p.rollback b.version, banks := p.banks.map fun x => { x with staged := false } }).wenizLogAdd 5 b.version, 0, 0, 0)))
    ∧ CommandResult (.rdacc c) 28 c (fun _ => True) (fun s => (s.hostPut c.arg0 (s.plinth.accounts.flatMap fun a => toBytes a.energy 8), 0, 0, 0))

/-- R203, R204, R206, R208, R209, R196, R222, R232, R405. The codes of AUX are the model's (log 9), and so are a GRANT without a miss that frees its entry (log 16), the line that a full set gives up (log 2) and the queue that an SC request joins as it arrives (log 98). -/
def Obligations.TokenPackets : Prop :=
  ∀ (s : State) (p : Packet) (d k line : Nat),
    let c := s.cacheLine p.dst p.line
    let l := p.line
    let slice := s.homeSlice l
    let both := fun (t : State) => exec (.gets p) s = .next t ∧ exec (.getx p) s = .next t
    (p.dst < 8 → s.activeFor p.dst l = none →
      (c.own = true → c.tok = 1 →
        exec (.gets p) s = .next ((s.setCacheLine p.dst l CacheLine.none).sendTokens p.dst p.src l p.txn 1 true c.dirty true c.dataOf))
      ∧ (c.own = true → c.tok ≠ 1 →
        exec (.gets p) s =
          .next ((s.setCacheLine p.dst l { c with tok := c.tok - 1 }).sendTokens p.dst p.src l p.txn 1 false false true c.dataOf))
      ∧ (c.own = false → exec (.gets p) s = .next s)
      ∧ exec (.getx p) s =
          .next ((s.setCacheLine p.dst l CacheLine.none).sendTokens p.dst p.src l p.txn c.tok c.own c.dirty c.own c.dataOf))
    ∧ (p.dst < 8 → s.activeFor p.dst l ≠ none → both s)
    ∧ (8 ≤ p.dst → s.activeEntry l = none → s.homeHolds l = false →
      (p.aux = 2 → exec (.gets p) s = .next ((s.homeShare p).freeTracker slice) ∧ exec (.getx p) s = .next ((s.homeYield p).freeTracker slice))
      ∧ (p.aux ≠ 2 → s.trackerUse slice < 32 → exec (.gets p) s = .next (s.homeShare p) ∧ exec (.getx p) s = .next (s.homeYield p)))
    ∧ (8 ≤ p.dst → s.activeEntry l ≠ none ∨ s.homeHolds l = true →
      (p.aux = 2 → both (s.freeTracker slice)) ∧ (p.aux ≠ 2 → both s))
    ∧ (8 ≤ p.dst → s.activeEntry l = none → s.homeHolds l = false → 32 ≤ s.trackerUse slice →
      let refused := fun (aux : Nat) => { Packet.zero with src := s.homeNode l, dst := p.src, line := l, txn := p.txn, part := p.part, aux := aux }
      (p.aux = 0 → both (s.send 5 (refused 0)))
      ∧ (p.aux ≠ 0 → p.aux ≠ 2 →
        let q := tgetD s.tickets slice []
        let queued := fun (q : List (Nat × Nat)) (k : Nat) => both (State.send { s with tickets := tput s.tickets slice q } 6 (refused k))
        ((p.src, l) ∉ q → queued (q ++ [(p.src, l)]) q.length) ∧ ((p.src, l) ∈ q → queued q (q.idxOf (p.src, l)))))
    ∧ (p.dst < 8 → exec (.tokd p) s = .next (s.tokensAtDie p.dst p true) ∧ exec (.tokn p) s = .next (s.tokensAtDie p.dst p false))
    ∧ (8 ≤ p.dst → exec (.tokd p) s = .next (s.tokensAtHome p) ∧ exec (.tokn p) s = .next (s.tokensAtHome p))
    ∧ (∀ m, tget (s.die p.dst).misses l = some m → m.txn = p.txn → m.persistent = false → m.fails < 2 →
      exec (.refuse p) s = .next (s.failAttempt p.dst l m) ∧ exec (.ticket p) s = .next (s.setMiss p.dst l { m with ticket := true }))
    ∧ (∀ m, tget (s.die p.dst).misses l = some m →
      (m.persistent = false → m.fails < 2 →
        exec (.grant p) s = .next ((s.setMiss p.dst l { m with ticket := false }).sendTransient p.dst l { m with ticket := false } 2))
      ∧ (m.persistent = true ∨ 2 ≤ m.fails → exec (.grant p) s = .next (s.freeTracker slice)))
    ∧ (tget (s.die p.dst).misses l = none →
      exec (.grant p) s = .next (s.freeTracker slice) ∧ exec (.refuse p) s = .next s ∧ exec (.ticket p) s = .next s)
    ∧ (∀ m, tget (s.die d).misses line = some m →
      (m.persistent = false → m.fails < 2 → exec (.transientTimeout d line) s = .next (s.failAttempt d line m))
      ∧ (m.persistent = true ∨ 2 ≤ m.fails → exec (.transientTimeout d line) s = .next s))
    ∧ (scPacket p = true → s.lostHome l = false →
      let t := (State.joinSerial { s with homeWait := s.homeWait ++ [{ p with tok := 0 }] } (sliceNode slice) p.src p.txn).homeSettle l
      exec (.ucrd p) s = .next t ∧ exec (.ucwr p) s = .next t)
    ∧ (scPacket p = false → 32 ≤ s.trackerUse slice → exec (.ucrd p) s = .next (s.waitAt 13 p) ∧ exec (.ucwr p) s = .next (s.waitAt 14 p))
    ∧ (scPacket p = false → s.trackerUse slice < 32 →
      let t := State.homeSettle { s with homeWait := s.homeWait ++ [p] } l
      exec (.ucrd p) s = .next t ∧ exec (.ucwr p) s = .next t)
    ∧ (p.dst < 8 → s.accessOf p.dst p.txn = none → exec (.ucrsp p) s = .next (s.countGen p.dst))
    ∧ (∀ a x y z, p.dst < 8 → s.accessOf p.dst p.txn = some a → a.phase = .uncached ∨ a.phase = .serial →
      (a.agent = .strand x y z → a.reads = true → exec (.ucrsp p) s = .next (s.replyRead a (a.extendValue p.data.toNat) p.psn))
      ∧ (a.agent = .strand x y z → a.reads = false → exec (.ucrsp p) s = .next (s.finishReply a))
      ∧ (a.agent = .stream x y z ∨ a.agent = .copy x y z →
        exec (.ucrsp p) s = .next (s.enginePiece a false (toBytes p.data.toNat (2 ^ p.size)) p.psn)))
    ∧ (8 ≤ p.dst → exec (.ucrsp p) s = .next (s.replyAtMdie p))
    ∧ (let x := s.cacheLine d line
      exec (.dieCacheEviction d line) s =
        .next ((s.setCacheLine d line CacheLine.none).sendTokens d (s.homeNode line) line 0 x.tok x.own x.dirty x.own x.dataOf))
    ∧ (∀ a, s.access? k = some a → a.phase = .cache → a.agent.dieNo = d →
      let ready := (s.cacheLine d (a.pa / 128)).serves a.writes
      (a.kind ≠ .pref → s.mayPerform a = true →
        (ready = true → exec (.dieCacheAccess d k) s = .next (s.cachePerform d a))
        ∧ (ready = false → exec (.dieCacheAccess d k) s = .next (s.openMiss d (a.pa / 128) a.writes a.part false)))
      ∧ (a.kind ≠ .pref → s.mayPerform a = false → exec (.dieCacheAccess d k) s = .next s)
      ∧ (a.kind = .pref →
        (ready = true → exec (.dieCacheAccess d k) s = .next (s.finish a))
        ∧ (ready = false → exec (.dieCacheAccess d k) s = .next (s.openMiss d (a.pa / 128) false a.part true))))

/-- R205, R206, R207, R212, R213, R232, R234, R201, R253, R259, R209; log 75 is the model's order of PDONE and PREQ, log 15 what a NACK does, log 16 what a requester does after an unserved request has ended, log 98 how long the token stays at a node. -/
def Obligations.PersistentAndSerialPackets : Prop :=
  ∀ (s : State) (p : Packet) (line : Nat),
    let slot := p.aux / 4096
    let old := tgetD (s.die p.dst).acts slot ⟨0, 0, false⟩
    let ack := fun (t : State) => t.send 11 { Packet.zero with src := p.dst, dst := p.src, line := p.line, aux := p.aux }
    let on := fun (b : Bool) => s.modDie p.dst fun f => { f with acts := tput f.acts slot ⟨p.line, p.aux % 4096, b⟩ }
    let later := epochAfter (p.aux % 4096) old.epoch
    let joined := fun (l : List Persistent) (st : Nat) =>
      (State.activateNext { s with persistent := l ++ [(⟨p.line, p.src, st, 0, 0⟩ : Persistent)] } p.line).homeSettle p.line
    let early := s.persistent.find? fun e => e.line == p.line && e.slot == p.src && e.state == 5
    (early = none → exec (.preq p) s = .next (joined s.persistent 0))
    ∧ (∀ x, early = some x → exec (.preq p) s = .next (joined (s.persistent.erase x) 4))
    ∧ (later = true → slot = p.dst → exec (.pact p) s = .next (ack (on true)))
    ∧ (later = true → slot ≠ p.dst →
      let t := on true
      let c := t.cacheLine p.dst p.line
      exec (.pact p) s = .next (ack ((t.setCacheLine p.dst p.line CacheLine.none).sendTokens p.dst (t.slotNode slot p.line) p.line 0 c.tok
        c.own c.dirty c.own c.dataOf)))
    ∧ (later = false → exec (.pact p) s = .next (ack s))
    ∧ (later = true ∨ p.aux % 4096 = old.epoch → slot ≠ p.dst → exec (.pdeact p) s = .next (ack (on false)))
    ∧ (later = false → p.aux % 4096 ≠ old.epoch → slot ≠ p.dst → exec (.pdeact p) s = .next (ack s))
    ∧ (later = true ∨ p.aux % 4096 = old.epoch → slot = p.dst →
      let t := (ack (on false)).modDie p.dst fun f => { f with preq := none }
      (∀ m, tget (t.die p.dst).misses p.line = some m → m.persistent = true →
        let n := { m with persistent := false, fails := 0 }
        exec (.pdeact p) s = .next (((t.setMiss p.dst p.line n).sendTransient p.dst p.line n 0).nextPersistent p.dst))
      ∧ ((∀ m, tget (t.die p.dst).misses p.line = some m → m.persistent = false) → exec (.pdeact p) s = .next (t.nextPersistent p.dst)))
    ∧ (∀ e, s.persistent.find? (fun e => e.line == p.line && e.slot == slot && e.busy && e.epoch == p.aux % 4096) = some e →
      let x := { e with acks := e.acks - 1 }
      let t := s.putEntry e x
      (1 < e.acks → exec (.pack p) s = .next t)
      ∧ (e.acks ≤ 1 → e.state = 1 → exec (.pack p) s = .next t)
      ∧ (e.acks ≤ 1 → e.state = 3 → exec (.pack p) s = .next (t.deactivate x false))
      ∧ (e.acks ≤ 1 → e.state = 2 →
        let u : State := { t with persistent := t.persistent.erase x }
        exec (.pack p) s = .next ((u.over ((u.persistent.map (·.line)).eraseDups) fun line u => (u.activateNext line).homeSettle line).homeSettle p.line)))
    ∧ (let mine := s.persistent.filter fun e => e.line == p.line && e.slot == p.src
      (∀ e, mine.find? (fun e => e.state == 1) = some e → exec (.pdone p) s = .next (s.deactivate e false))
      ∧ (∀ e, mine.find? (fun e => e.state == 1) = none → mine.find? (fun e => e.state == 0) = some e →
        exec (.pdone p) s = .next (s.putEntry e { e with state := 4 }))
      ∧ (mine = [] → exec (.pdone p) s = .next { s with persistent := s.persistent ++ [(⟨p.line, p.src, 5, 0, 0⟩ : Persistent)] }))
    ∧ (∀ a, s.accessOf p.src p.txn = some a →
      (a.ord = .sc → s.lostWord (a.va - windowBase) = false →
        exec (.mtop p) s = .next (s.joinSerial (s.tileNode (a.va - windowBase)) p.src p.txn))
      ∧ (a.ord ≠ .sc → exec (.mtop p) s = .next (s.windowStep a)))
    ∧ (s.accessOf p.src p.txn = none → exec (.mtop p) s = .next (s.countGen p.src))
    ∧ (∀ a, s.accessOf p.dst p.txn = some a →
      (∀ d t n, a.agent = .strand d t n → s.heldBack a = false → exec (.mtrsp p) s = .next (s.windowReply a p d t n))
      ∧ (∀ d t n i, a.agent = .pe d t n i → s.heldBack a = false → exec (.mtrsp p) s = .next (s.gridReply a p d t n i))
      ∧ (∀ x y z, a.agent = .stream x y z ∨ a.agent = .copy x y z → s.heldBack a = false →
        exec (.mtrsp p) s = .next (s.enginePiece a (p.psn && p.stat != 0) (toBytes p.data.toNat a.bytes) p.psn))
      ∧ (s.heldBack a = true → exec (.mtrsp p) s = .next (s.waitAt 17 p)))
    ∧ (s.accessOf p.dst p.txn = none → exec (.mtrsp p) s = .next (s.countGen p.dst))
    ∧ (∀ a, p.dst < 8 → s.accessOf p.dst p.txn = some a →
      (p.stat = 2 → exec (.nack p) s = .next ((s.countGen a.agent.dieNo).finish a))
      ∧ (p.stat ≠ 2 → a.sent = false → exec (.nack p) s = .next s)
      ∧ (∀ x y z, p.stat ≠ 2 → a.sent = true →
        (a.agent = .strand x y z →
          exec (.nack p) s = .next ((s.modAccess a.id fun _ => { a with sent := false }).push { a with sent := false }))
        ∧ (a.agent = .stream x y z ∨ a.agent = .copy x y z → exec (.nack p) s = .next (s.endWalk a))))
    ∧ (8 ≤ p.dst → exec (.nack p) s = .next (s.nackAtMdie p))
    ∧ (p.aux = s.scLap → s.firstNode ≠ 2560 → s.ringUsable s.scAt = true →
      let r := State.visit s.scAt (s.visitList s.scAt) s
      let t := r.2
      let first := s.scAt = t.firstNode
      let go := fun (lap : Nat) (fresh : Bool) => exec (.sct p) s = .next (State.send
        { t with scVisit := none, scAt := t.nextNode s.scAt, scLap := lap, scFresh := fresh } 19
        { Packet.zero with src := ringDie s.scAt, dst := ringDie (t.nextNode s.scAt), aux := lap })
      (r.1 ≠ [] → exec (.sct p) s = .next (State.waitAt { t with scVisit := some r.1 } 19 p))
      ∧ (r.1 = [] → ¬first → go t.scLap t.scFresh)
      ∧ (r.1 = [] → first → go (if t.scFresh then t.scLap else (t.scLap + 1) % 65536) false))
    ∧ (∀ n x rest, State.visit n [] s = ([], s)
      ∧ (s.serialReady x = true → State.visit n (x :: rest) s = State.visit n rest (s.serialPerform n x.1 x.2))
      ∧ (s.serialReady x = false → State.visit n (x :: rest) s = (x :: rest, s))
      ∧ (s.scVisit = none → s.visitList n = (s.waitersAt n).take 4))
    ∧ (p.aux ≠ s.scLap → exec (.sct p) s = .next s)
    ∧ (s.plinth.booted = true → s.firstNode ≠ 2560 →
      let lap := (s.scLap + 1) % 65536
      let t := State.send { s with scLap := lap, scAt := s.firstNode, scFresh := true, scVisit := none } 19
        { Packet.zero with src := ringDie s.firstNode, dst := ringDie s.firstNode, aux := lap }
      exec .sclost s = .next (t.raiseEvent 4 (ringDie t.firstNode) (BitVec.ofNat 64 lap) 0))
    ∧ (∀ opc r, exec (.unknownPacket opc r p) s =
        let t := s.logDrop p.dst opc r p (if opc = 0 ∨ 0x15 ≤ opc then 0 else if p.malformed 0 then 2 else 1)
        .next (if isRequest opc && decide (p.src < 17)
          then t.send 20 { Packet.zero with src := p.dst % 17, dst := p.src, line := p.line, txn := p.txn, part := p.part, stat := 1 } else t))
    ∧ (s.activeEntry line ≠ none → s.tokenCount line ≠ 16 → exec (.persistentPoisonTimeout line) s = .next ((s.poisonLine line).homeSettle line))
    ∧ (s.activeEntry line = none ∨ s.tokenCount line = 16 → exec (.persistentPoisonTimeout line) s = .next (s.homeSettle line))

/-- R236, R276 to R279, R270, R271, R272, R275, R253. The fault of an error completion, PAGE with DETAIL 3, is the model's choice, log 17; that an offset of a window takes its write is log 26's reading of a malformed one. -/
def Obligations.LinkEvents : Prop :=
  ∀ (s : State) (d k n : Nat) (e : Bool) (r : UaReq) (u : UaRsp),
    (∀ x, (s.die d).rwb.find? (fun e => e.seq == k) = some x → x.draining = false →
      (∀ o ∈ (s.die d).rwb, o.seq < k → o.draining = true ∨ bits o.pa 40 10 ≠ bits x.pa 40 10) →
      exec (.remoteWriteDrain d k) s = .next ((s.modDie d fun f =>
        { f with rwb := f.rwb.map fun y => if y.seq = k then { y with draining := true } else y }).ualink d (bits x.pa 40 10) none
          (some (d, k)) x.request))
    ∧ (s.uaOut.any (fun u => u.entry == some (d, k) && !u.held) = true →
      exec (.remoteWriteAck d k e) s = .next ((s.endRemoteWrite d k e).releaseUalink))
    ∧ (s.uaSeen.contains (r.src, r.id) = true → exec (.ualinkRequest r) s = .next s)
    ∧ (s.uaSeen.contains (r.src, r.id) = false →
      let t : State := { s with uaSeen := (r.src, r.id) :: s.uaSeen }
      (windowOf r.off = some d →
        exec (.ualinkRequest r) s = .next (t.windowWrite d r) ∧ exec (.dispatcherWindowWrite d r) s = .next (t.windowWrite d r)
        ∧ (s.plinth.admitted.contains r.src = false → t.windowWrite d r =
          (t.logDrop d opcDecr 0 { Packet.zero with dst := d, data := BitVec.ofNat 1024 (fromBytes r.data) } 2).answerPeer r true [] false))
      ∧ (windowOf r.off = none →
        (s.plinth.admitted.contains r.src = false ∨ s.hbmSize < r.off + r.bytes ∨ r.sizeOk = false ∨ s.keyOf r.part r.kidx = none →
          exec (.ualinkRequest r) s = .next (t.answerPeer r true [] false))
        ∧ (∀ key, s.plinth.admitted.contains r.src = true → r.off + r.bytes ≤ s.hbmSize → r.sizeOk = true → s.keyOf r.part r.kidx = some key →
          exec (.ualinkRequest r) s = .next (t.station none r))))
    ∧ (windowOf r.off ≠ some d → exec (.dispatcherWindowWrite d r) s = .next s)
    ∧ (∀ x, s.uaOut.find? (fun v => v.id == u.id && !v.held) = some x →
      let t : State := { s with uaOut := s.uaOut.filter fun v => v.id != u.id }
      exec (.ualinkResponse u) s = .next (t.peerAnswered x u).releaseUalink
      ∧ ∀ a y z w, x.entry = none → x.access = some k → t.access? k = some a → a.agent = .strand y z w →
        (u.error = true → exec (.ualinkResponse u) s = .next (t.faultAccess a ⟨5, 3, BitVec.ofNat 64 a.va⟩).releaseUalink)
        ∧ (u.error = false → u.psn = true → exec (.ualinkResponse u) s = .next (t.faultAccess a ⟨8, 1, BitVec.ofNat 64 a.va⟩).releaseUalink)
        ∧ (u.error = false → u.psn = false → a.reads = false → exec (.ualinkResponse u) s = .next (t.finishReply a).releaseUalink)
        ∧ (u.error = false → u.psn = false → a.reads = true → exec (.ualinkResponse u) s = .next
          (t.reply a (a.extendValue (fromBytes ((u.data.drop (a.pa % 64)).take a.bytes)))).releaseUalink))
    ∧ (s.plinth.portsUp.contains n = true →
      let t := s.modPlinth fun p => { p with portsUp := sdel p.portsUp n, portEpoch := p.portEpoch + 1 }
      exec (.ualinkPortDown n) s =
        .next ({ t with uaOut := t.uaOut.map fun (v : UaOut) => if v.port = n then { v with held := true } else v } : State).releaseUalink)
    ∧ (s.plinth.idSet = true → s.portEnabled n = true → s.plinth.portsUp.contains n = false →
      exec (.ualinkPortUp n) s =
        .next (s.modPlinth fun p => { p with portsUp := sput p.portsUp n, portEpoch := p.portEpoch + 1 }).releaseUalink)
    ∧ (∀ a, s.access? k = some a → a.phase = .host → s.plinth.golfyUp = true → s.mayPerform a = true →
      let pa := bits a.pa 0 50
      (a.kind = .store →
        exec (.golfyReply k) s = .next (({ s with hostMem := mwrite s.hostMem pa a.bytes a.data.toNat } : State).finish a))
      ∧ (a.kind ≠ .store → exec (.golfyReply k) s = .next (s.reply a (a.extendValue (mread s.hostMem pa a.bytes)))))
    ∧ exec .golfyLinkDown s = .next (s.modPlinth fun p => { p with golfyUp := false })
    ∧ (s.plinth.booted = true →
      exec .golfyLinkUp s = .next ((s.modPlinth fun p => { p with golfyUp := true }).postCompletions s.plinth.cplQueue).flushEvents)
    ∧ (s.plinth.booted = true → s.plinth.golfyUp = true →
      exec (.doorbell n) s = .next (s.modPlinth fun p => { p with cmdTail := n })
      ∧ exec (.completionHead n) s = .next ((s.modPlinth fun p => { p with cplHead := n }).postCompletions s.plinth.cplQueue))

/-- R281, R282, R285, R286, R288, R289, R280, R261, R262, R269, R61, R23, R12. The model's readings: the order and data of Weniz log entries (log 30), what a bundle signs (log 31), the moment of a checkpoint's records (log 31), the throttle and a lost rail (log 60), where the activity counts come from (log 89), what a failed die leaves (logs 27, 28), a second check of waiting tasks (log 24); the estimates and the cryptography are free values (log 2). -/
def Obligations.PlinthAndErrorEvents : Prop :=
  ∀ (s : State) (x : SensorInput) (y : BootInput) (rails : List RailInput) (cyc d n line : Nat) (place : EccPlace),
    ((List.range 17).any (fun n => decide (120 ≤ x.hottest n)) = true ∨ x.flow < s.plinth.flowLimit →
      exec (.sensorSample x) s = .next ((((s.modPlinth fun p => { p with sensors := x.readings }).powerOff).wenizLogAdd 2 0).modPlinth
        fun p => { p with tripped := true }))
    ∧ ((List.range 17).any (fun n => decide (120 ≤ x.hottest n)) = false → s.plinth.flowLimit ≤ x.flow →
      let hot := (List.range 17).filter fun n => decide (105 ≤ x.hottest n) && !s.plinth.hot.contains n
      let t := (s.modPlinth fun p => { p with sensors := x.readings }).over hot fun n t => t.wenizLogAdd 1 n
      exec (.sensorSample x) s =
        .next ((t.over x.railFault fun n t => t.wenizLogAdd 3 n).modPlinth fun q => { q with
          hot := (List.range 17).filter fun n => decide (105 ≤ x.hottest n) || (s.plinth.hot.contains n && decide (100 ≤ x.hottest n))
          capped := decide (s.plinth.powerCap < x.power) }))
    ∧ (let bad := rails.any (·.failed)
      let t := s.modPlinth fun p => { p with
        activity := []
        accounts := p.accounts.mapIdx fun a c =>
          let c := rails.foldl (fun c r => c.charge (s.share r a)) c
          { c with railx := c.railx || bad } }
      let t : State := { t with dies := t.dies.map fun (f : FDie) => { f with tileTime := [] : FDie } }
      exec (.attributionInterval rails) s = .next (if bad then t.wenizLogAdd 3 0 else t))
    ∧ (∀ r : RailInput, r.node = 16 → s.staticShares r = List.replicate 16 0 ++ [1])
    ∧ (∀ r : RailInput, 8 ≤ r.node → r.node ≠ 16 → ∀ a < 16, lget (s.staticShares r) a = some ((s.ownedPages (BitVec.ofNat 4 a) : Nat) : Rat))
    ∧ (let stored := fun (t : State) => t.modPlinth fun p => { p with
        accounts := p.accounts.map fun c => { c with stored := c.energy, storedResidue := c.residue }
        capAtCheck := p.powerCap, unrecorded := some cyc }
      let recorded := fun (n : Nat) (t : State) => t.modPlinth fun p => { p with
        records := p.records ++ p.accounts.mapIdx fun a c => c.record a n p.lastTs
        accounts := p.accounts.mapIdx fun a c => c.recorded (c.record a n p.lastTs), unrecorded := none }
      (s.plinth.unrecorded = none → exec (.checkpoint false cyc) s = .next (stored s)
        ∧ exec (.checkpoint true cyc) s = .next (recorded cyc (stored s)))
      ∧ ∀ n, s.plinth.unrecorded = some n → exec (.checkpoint false cyc) s = .next (stored (recorded n s))
        ∧ exec (.checkpoint true cyc) s = .next (recorded cyc (stored (recorded n s))))
    ∧ (s.plinth.records.length < 170 → exec .bundleSign s = .next s)
    ∧ (170 ≤ s.plinth.records.length →
      let p := s.plinth
      let b := bundleBytes p.bundleSeq p.podId (p.records.take 170)
      exec .bundleSign s = .next (s.modPlinth fun q => { q with
        records := p.records.drop 170, bundleSeq := p.bundleSeq + 1
        bundles := ((p.bundleSeq, p.records.take 170, b ++ Config.signature b) :: p.bundles).take 360 }))
    ∧ (let t := s.powerOff
      exec .alwaysOnPowerLoss s = .next ((t.wenizLogAdd 6 0).modPlinth fun p => { p with
        lastTs := 0
        accounts := p.accounts.map fun c => { c with
          energy := c.stored, residue := c.storedResidue, railx := c.railx && p.unrecorded.isSome
          frz := c.frz && p.unrecorded.isSome, gap := true, gapmax := min t.plinth.capAtCheck 3200 * 1000 } }))
    ∧ exec (.eccError place false) s = .next (s.countCorrected (s.eccNode place))
    ∧ exec (.eccError place true) s = .next (s.doubleError place)
    ∧ exec (.scrubPass line) s = .next (s.setHome line (s.home line))
    ∧ (∀ r, s.record d n = some r → r.reserved = false → exec (.schedulerStateError (.record d n)) s =
        .next ((s.setRecord d n { r with psn := true }).abortWith d n ⟨8, 0, 0⟩))
    ∧ (∀ r, s.record d n = some r → r.reserved = true → exec (.schedulerStateError (.record d n)) s =
        .next (s.setRecord d n { r with psn := true, abortMark := true }))
    ∧ (∀ p q, exec (.schedulerStateError (.queue d p q)) s =
        let ready := (s.die d).records.filter fun e =>
          e.2.state == .ready && !e.2.reserved && !e.2.parked && e.2.part.toNat == p && e.2.prio == q
        .next (s.modDie d fun f => { f with
          queues := tput f.queues (q * 16 + p) (ready.map (·.1)), deficit := tput f.deficit (q * 16 + p) 0, stale := sdel f.stale (q * 16 + p) }))
    ∧ (tget (s.die d).maquettes n ≠ none → exec (.schedulerStateError (.maquette d n)) s =
        .next ((s.modDie d fun f => { f with
          maquettes := f.maquettes.map fun e => if e.1 = n then (e.1, { e.2 with psn := true }) else e }).modPlinth fun p =>
            { p with struck := p.struck ++ [(d, n)] }))
    ∧ ((lget (s.die d).sites n).getD 3 = 0 → exec (.schedulerStateError (.core d n)) s = .next (s.loseCore d n))
    ∧ (s.plinth.booted = true → n ≤ 16 → s.dieState n ≠ 3 → exec (.dieFailure n) s = .next (s.failDie n).failCutOff)
    ∧ ((lget (s.die d).sites n).getD 3 = 1 →
      let t := (s.modDie d fun f => { f with sites := lset f.sites n 3 }).countLost d
      let waiting := (t.die d).records.filter fun e => (e.2.state == .ready || e.2.state == .frozen) && !e.2.parked
      exec (.computeTileLostInService d n) s = .next (t.over waiting fun e s => if s.fits d e.2 then s else s.joinQueue d e.1 false))
    ∧ (let stop := fun (k : Nat) => (s.powerOff.modPlinth fun p => { p with tryFirst := none }).wenizLogAdd 0 k
      ((∀ k ∈ s.plinth.bankOrder, s.plinth.bankRuns y k = false) → exec (.boot y) s = .next (stop 1))
      ∧ (∀ k, s.plinth.bankOrder.find? (fun k => s.plinth.bankRuns y k) = some k →
        (y.tableOk = false ∨ diesConnected y.marked = false → exec (.boot y) s = .next (stop 2))
        ∧ (y.tableOk = true → diesConnected y.marked = true →
          let t := ((s.powerOff.loadDies y).openPort y k).firstToken
          exec (.boot y) s =
            .next (t.over (y.roleFailed.filter fun r => (lget (t.die r.1).sites r.2).getD 3 == 0) fun r s => s.loseCore r.1 r.2).failCutOff)))

/-- R291 to R296: the whole control-processor instruction set. `encode` is 0, which is no instruction, for a row of another kind. -/
def Obligations.EncodedInstructionsDecode : Prop :=
  ∀ i : Instr, wellFormed i = true → encode i ≠ 0 → decode (encode i) (encodeSecond i) = .ok i

/-- R293, R296, R217: the checks of a word. -/
def Obligations.EveryWordHasOneMeaning : Prop :=
  ∀ (w w2 : Nat) (i : Instr), w < 2 ^ 32 → w2 < 2 ^ 32 → decode w w2 = .ok i →
    encode i = w ∧ wellFormed i = true ∧ (i.length = 8 → encodeSecond i = w2)

/-- R112, R298, R406, R75; R200 and R201 for packets (what no header field holds stands beside it, log 9); R271, R273 and R283 for commands. -/
def Obligations.OtherEncodingsRoundTrip : Prop :=
  (∀ x ∈ ([
        (0, Instr.gridNop), (1, Instr.move), (2, Instr.dup), (3, Instr.gridAdd), (4, Instr.gridSub), (5, Instr.gridMul), (6, Instr.fma), (7, Instr.fms), (8, Instr.gridMin),
        (9, Instr.gridMax), (10, Instr.abs), (11, Instr.neg), (12, Instr.gridCmp), (13, Instr.gridSel), (14, Instr.gridAnd), (15, Instr.gridOr), (16, Instr.gridXor), (17, Instr.not),
        (18, Instr.gridShl), (19, Instr.gridShr), (20, Instr.gridSra), (21, Instr.cvt), (22, Instr.cvts), (23, Instr.exp2), (24, Instr.log2), (25, Instr.rcp), (26, Instr.rsq),
        (27, Instr.red), (28, Instr.bcst), (29, Instr.shuf), (30, Instr.tag), (31, Instr.steer), (32, Instr.merge), (33, Instr.lgen), (34, Instr.cnt), (36, Instr.mld),
        (37, Instr.mst), (38, Instr.mamo), (39, Instr.mtas), (40, Instr.xltn), (41, Instr.barn), (42, Instr.endk)] : List (Nat × (PeWord → Instr))),
      ∀ f : PeWord, encodePe (x.2 f) = packPe x.1 f ∧ decodePe (packPe x.1 f) = some (x.2 f))
    ∧ (∀ f : PeWord, decodePe (packPe 0x23 f) = some (if f.lt = 6 then .randSeed f else .rand f))
    ∧ (∀ (w : Nat) (i : Instr), w < 2 ^ 64 → decodePe w = some i → encodePe i = w)
    ∧ (∀ (p : Packet) (m : DecrMsg), m.ok = true →
      (let e := encodeDecr .decrement m; decodeDecr p e.1 e.2 = .decrement p.dst m)
      ∧ (let e := encodeDecr .forward m; decodeDecr p e.1 e.2 = .forwardDecrement p.dst m)
      ∧ (let e := encodeDecr .abort m; decodeDecr p e.1 e.2 = .abortMessage p.dst m)
      ∧ (let e := encodeDecr .ack m; decodeDecr p e.1 e.2 = .acknowledgement p.dst m))
    ∧ (∀ (p : Packet) (w0 w1 : Word), bits w1.toNat 49 15 ≠ 0 ∨ bits w1.toNat 0 18 ≠ 0 ∨ 3 < bits w0.toNat 48 3 →
      decodeDecr p w0 w1 = .malformedDecrementMessage p w0 w1)
    ∧ (∀ (opc reserved : Nat) (p : Packet), opc < 2 ^ 7 → reserved < 2 ^ 81 → p.fits = true →
      packetHeader opc reserved p < 2 ^ 256 ∧ packetFields (packetHeader opc reserved p) p.data p.key p.enables = (opc, reserved, p))
    ∧ (∀ (h : Nat) (l : Line) (key enables : Nat), h < 2 ^ 256 →
      let f := packetFields h l key enables
      f.2.2.fits = true ∧ packetHeader f.1 f.2.1 f.2.2 = h)
    ∧ (∀ (p : Packet) (reserved : Nat), (p.malformed reserved = true ↔
        (16 < p.src ∨ 16 < p.dst ∨ 4 < p.ndf ∨ 16 < p.tok ∨ (p.own = true ∧ (p.tok = 0 ∨ p.ndf ≠ 4)) ∨ reserved ≠ 0))
      ∧ ∀ opc, (p.malformed reserved = true ∨ opc = 0 ∨ 20 < opc → decodePacket opc reserved p = .unknownPacket opc reserved p)
        ∧ (p.malformed reserved = false → ∀ x ∈ ([(1, Instr.gets), (2, Instr.getx), (3, Instr.tokd), (4, Instr.tokn), (5, Instr.refuse),
            (6, Instr.ticket), (7, Instr.grant), (8, Instr.preq), (9, Instr.pact), (10, Instr.pdeact), (11, Instr.pack), (12, Instr.pdone),
            (13, Instr.ucrd), (14, Instr.ucwr), (15, Instr.ucrsp), (16, Instr.mtop), (17, Instr.mtrsp), (19, Instr.sct), (20, Instr.nack)]
            : List (Nat × (Packet → Instr))), opc = x.1 → decodePacket opc reserved p = x.2 p))
    ∧ (∀ (opc : Nat) (c : Cmd), opc < 2 ^ 8 → commandFields (commandWord opc c) c.ts c.arg0 c.arg1 c.arg2 c.arg3 c.arg4 c.arg5 = (opc, c))
    ∧ (∀ w ts a0 a1 a2 a3 a4 a5 : Word, let f := commandFields w ts a0 a1 a2 a3 a4 a5
      commandWord f.1 f.2 = w ∧ f.2.ts = ts ∧ f.2.arg0 = a0 ∧ f.2.arg1 = a1 ∧ f.2.arg2 = a2 ∧ f.2.arg3 = a3 ∧ f.2.arg4 = a4 ∧ f.2.arg5 = a5)
    ∧ (∀ (opc : Nat) (c : Cmd), (∀ x ∈ ([(1, Instr.hostNop), (2, Instr.rdinv), (3, Instr.rdlog), (4, Instr.ldmq), (5, Instr.inst), (6, Instr.rsvi),
          (7, Instr.kill), (8, Instr.freeze), (9, Instr.setqw), (10, Instr.setctx), (11, Instr.setkey), (12, Instr.hostTlbi), (13, Instr.pans),
          (14, Instr.mtasn), (15, Instr.fpool), (16, Instr.offline), (17, Instr.pwrcap), (18, Instr.setid), (19, Instr.admitDevice),
          (20, Instr.dismiss), (21, Instr.rdcnt), (22, Instr.rdpat), (23, Instr.rdpub), (24, Instr.rdsns), (25, Instr.rdwlog), (26, Instr.fwstage),
          (27, Instr.fwcommit), (28, Instr.rdacc), (32, Instr.bpool)] : List (Nat × (Cmd → Instr))), opc = x.1 → decodeCommand opc c = x.2 c)
      ∧ (opc = 0 ∨ (28 < opc ∧ opc < 32) ∨ (32 < opc ∧ opc < 256) → decodeCommand opc c = .reservedCommand (BitVec.ofNat 8 opc) c))

/-- R81, R95, R293, R117, R200, R285; the agenda that gives the turns is the model's (log 1). -/
def Obligations.StepRunsDecodedInstruction : Prop :=
  (∀ (s : State) (d y : Nat) (rest : List Turn), s.agenda = .strand d y :: rest →
      let n := (s.tile (d % 8) (y % 144)).cycle
      let u : State := { s with agenda := rest }
      let t : State := { u.modTile (d % 8) (y % 144) (fun x => { x with cycle := (n + 1) % 4 }) with cur := ⟨d % 8, y % 144, n % 4, 0, 0⟩ }
      let pc := t.me.pc
      let w := t.here.codeWord pc.toNat
      let w2 := t.here.codeWord (pc.toNat + 4)
      t.strandsIssue (d % 8) (y % 144) = true → t.me.run = .run → t.me.stall = false → t.me.yielded = false → t.here.targetOk pc = true →
      w.psn = false → (isLi w.bits.toNat = true → w2.psn = false ∧ pc.toNat + 4 < t.here.codeLen) →
        (∀ i, decode w.bits.toNat w2.bits.toNat = .ok i → step s = u.metered (.strand d y) i (exec i t))
        ∧ ∀ e, decode w.bits.toNat w2.bits.toNat = .error e →
          step s = .next (u.meter (t.trapMe 1 (t.failDetail e w.bits.toNat) (w.bits.setWidth 64)) (.strand d y) none)
          ∧ (bits w.bits.toNat 25 7 ≠ 0x26 ∨ bits w.bits.toNat 15 5 = 0 → t.failDetail e w.bits.toNat = e.detail))
    ∧ (∀ (s : State) (d y pe k : Nat) (w : BitVec 64) (i : Instr) (rest : List Turn), s.agenda = .pe d y pe :: rest →
      let u : State := { s with agenda := rest }
      let r := u.registerArrivals (d % 8) (y % 144) (pe % 128)
      let t : State := { r with cur := ⟨d % 8, y % 144, 0, pe % 128, 0⟩ }
      t.mayFire (d % 8) (y % 144) (pe % 128) = true → (t.here.pe (pe % 128)).firingSlot = some (k, w) → decodePe w.toNat = some i →
        let v : State := { r with cur := ⟨d % 8, y % 144, 0, pe % 128, k⟩ }
        step s = u.metered (.pe d y pe) i (exec i (v.modHere fun t => t.settleRaces .grid)))
    ∧ (∀ (s : State) (k : Nat) (p : NetPacket) (rest : List Turn), s.agenda = .packet k :: rest → lget s.net k = some p →
      let u : State := { s with agenda := rest }
      u.stays p = false → p.node = p.p.dst → p.p.dst < 8 → s.dieState p.p.dst < 2 → p.p.malformed p.reserved = false → p.opc ≠ 16 →
      let t : State := { u with net := ldel s.net k }
      (p.opc = 0x12 → step s = u.metered (.packet k) (decodeDecr p.p p.w0 p.w1) (exec (decodeDecr p.p p.w0 p.w1) t))
      ∧ (p.opc ≠ 0x12 → step s = u.metered (.packet k) (decodePacket p.opc p.reserved p.p) (exec (decodePacket p.opc p.reserved p.p) t)))
    ∧ (∀ (s : State) (i : Instr) (rest : List Turn), s.agenda = .event i :: rest → isEvent i = true →
      let u : State := { s with agenda := rest }
      step s = u.metered (.event i) i (exec i u))
    ∧ (∀ (s t : State) (x : Turn) (i : Instr) (rest : List Turn), s.agenda = x :: rest →
      let u : State := { s with agenda := rest }
      u.move x = .run i t → step s = u.metered x i (exec i t))
    ∧ (∀ (s t : State) (x : Turn) (i : Instr), ∃ a, s.metered x i (.next t) = .next (t.modPlinth fun p => { p with activity := a }))

/-- R293, R294, R296: words of several families. -/
def Obligations.SpecWordsDecode : Prop :=
  decode 0x04531C00 0 = .ok (.add 5 6 7)
    ∧ decode 0x4C500000 0 = .ok (.enrd 5 0)
    ∧ decode 0x98031C01 0 = .ok (.send 6 7 ⟨0, 1⟩)
    ∧ decode 0xF6000000 0 = .ok .eret
    ∧ decode 0x6641B010 0 = .ok (.stg 4 3 .d 0 ⟨2, 0⟩)
    ∧ decode 0x6451B091 0 = .ok (.ldg 5 3 .d 2 ⟨2, 1⟩)
    ∧ decode 0x44500001 0x23456789 = .ok (.li 5 0x123456789)
    ∧ decode 0 0 = .error .opcode
    ∧ decode 0x04531C40 0 = .error .reserved
    ∧ decode 0xF6000001 0 = .error .reserved

/-- R43, R57, R77, R104, R111, R272; the registers and tables that the spec gives no value for are log 3's and are not named here. -/
def Obligations.ResetAndTaskStart : Prop :=
  (∀ d < 8, ∀ k, tgetD (State.reset.die d).deficit k 0 = 0 ∧ tgetD (State.reset.die d).seqOut k 1 = 1
      ∧ tgetD (State.reset.die d).windows k (0, 0) = (0, 0) ∧ (State.reset.die d).stale.contains k = false)
    ∧ (∀ p, State.reset.weight p = 16)
    ∧ State.reset.plinth.expectSeq = 1
    ∧ (∀ (r : Record) (n y x k : Nat), let t := startStrand r n y x k
      t.pc = 0 ∧ t.rd 1 = r.arg0 ∧ t.rd 2 = r.arg1 ∧ (∀ j : Reg, j ≠ 1 → j ≠ 2 → t.rd j = 0) ∧ t.p = 1 ∧ t.k = Vector.replicate 8 Channel.zero
        ∧ (∀ j < 8, vget t.sb j = 0) ∧ t.run = .run)
    ∧ (∀ (t : Tile) (y n : Nat) (r : Record), (t.start y n r).zsc = false ∧ (t.start y n r).sat = false ∧ (t.start y n r).rnd = 0)
    ∧ (∀ j < 8, vget Pe.init.d j = 0) ∧ Pe.init.p = 1 ∧ (∀ j < 4, vget Pe.init.inq j = [] ∧ vget Pe.init.outq j = [])
    ∧ Tile.init.credits = 16
    ∧ State.reset.memoryWf = true

/-- The representation of memory is the model's (log 5); R190 and R383 say which bytes a store writes. R142 to R144, R368 and R369 for handles (the entries HFREE and HWAIT with a set slot leave behind are log 64's); R196, R202, R203, R204, R206 and R209 for tokens, whose count R202 fixes. A packet has left the network when exec runs it (O57). -/
def Obligations.MemoryKeepsItsForm : Prop :=
  (∀ (s t : State), s.memoryWf = true → s.me.intrap = false → s.me.tvec ≠ 0 →
    (∀ (d a b : Reg) (u : Bool), ∀ i ∈ [Instr.add d a b, .sub d a b, .mul d a b, .mulh d a b u, .div d a b u, .rem d a b u, .and d a b, .or d a b,
        .xor d a b, .shl d a b, .shr d a b, .sra d a b, .min d a b u, .max d a b u, .mov d a, .jmpr a, .callr a, .ret, .nop],
      exec i s = .next t → t.memoryWf = true)
    ∧ (∀ (d : Reg) (r : SysReg) (n : BitVec 8), ∀ i ∈ [Instr.srd d r, .swr d r, .svc n, .trap n, .brk n],
      exec i s = .next t → t.memoryWf = true)
    ∧ (∀ (d a : Reg) (z : LoadSize) (m : BitVec 6) (o : Order), exec (.ldl d a z m o) s = .next t → t.memoryWf = true)
    ∧ (∀ (d a : Reg) (z : Size) (m : BitVec 6) (o : Order), exec (.stl d a z m o) s = .next t → t.memoryWf = true)
    ∧ (∀ (d a : Reg) (q : Ord) (c : Scp) (u : Bool) (f : AtomicOp) (o : Order), exec (.amol d a q c u f o) s = .next t → t.memoryWf = true)
    ∧ (∀ w : PeWord, (s.firingCtx 0x25 w false).a.ok = true → (s.firingCtx 0x25 w false).b.ok = true → (s.firingCtx 0x25 w false).a.psn = 0 →
      exec (.mst w) s = .next t → t.memoryWf = true)
    ∧ (∀ (x : BitVec 64) (bs : List Byte), (s.hostPut x bs).memoryWf = true))
  ∧ (∀ s t : State, s.HandlesWf → s.me.intrap = false → s.me.tvec ≠ 0 →
    (∀ (x a b : Reg) (h : Fin 128) (to_ : HState) (o : Order), ∀ i ∈ [Instr.halloc x a b o, .hfree h o, .hset h to_ o, .hwait h to_ o],
        exec i s = .next t → t.HandlesWf))
  ∧ (∀ (s : State) (d site h : Nat), s.HandlesWf →
    (∀ code, ((s.tile d site).handle h).startConsumer h code = .go → (s.beginConsumer d site h).HandlesWf)
    ∧ (∀ rel, (s.endConsumer d site h rel).HandlesWf)
    ∧ (∀ who o n code psn, ((s.tile d site).handle h).startWrite who h n code = .go → (((s.tile d site).handle h).count who o n code psn).wf = true))
  ∧ (∀ s t : State, s.OwnersHold →
    (∀ p : Packet, ∀ i ∈ [Instr.gets p, .getx p], exec i s = .next t → t.OwnersHold ∧ ∀ line, t.tokensOf line = s.tokensOf line)
    ∧ (∀ die x, exec (.dieCacheEviction die x) s = .next t → t.OwnersHold ∧ ∀ line, t.tokensOf line = s.tokensOf line)
    ∧ (∀ p : Packet, p.dst < 8 → (p.own = true → p.tok ≠ 0) → tget (s.die p.dst).misses p.line = none → ∀ i ∈ [Instr.tokd p, .tokn p],
        exec i s = .next t → t.OwnersHold ∧ ∀ line, t.tokensOf line = s.tokensOf line + if p.line = line then p.tok else 0))

end
end

