-- ==== Sys2Proof/Laws/Commands.lean ====
section
/-! SUPPORT. How a host command is taken: one lemma for a command performed as it arrives. -/
namespace Sys2Proof.Machine

/-- The expected command with nothing before it is performed by the device that has accepted it. -/
theorem arriveCommand_expected (opc : Nat) (now : Bool) (c : Cmd) (s : State) (go : State → CmdEnd)
    (h2 : s.plinth.progress.isNone = true) (h3 : s.plinth.queue = []) (h4 : c.seq.toNat = s.plinth.expectSeq) :
    s.arriveCommand opc now c go = (s.accept c).performCommand opc c go := by
  unfold State.arriveCommand
  refine (if_pos h4).trans ?_
  refine (if_pos ?_).trans rfl
  show (now || (s.plinth.progress.isNone && s.plinth.queue.isEmpty)) = true
  simp [h2, h3]

/-- A command that is performed as it arrives: its performance ends with a status and two results. -/
theorem command_done (opc : Nat) (now : Bool) (c : Cmd) (s t : State) (go : State → CmdEnd) (st : Nat) (r0 r1 : Word) (h : s.performs c = true)
    (hg : go (s.accept c) = .done t st r0 r1) : command opc now c s go = .next (t.complete opc c.seq.toNat st r0 r1) := by
  simp only [State.performs, Bool.and_eq_true, beq_iff_eq, List.isEmpty_iff] at h
  obtain ⟨⟨⟨⟨h1, h2⟩, h3⟩, h4⟩, h5⟩ := h
  unfold command
  rw [if_neg (by simp [h1]), if_neg (by simp [h3]), arriveCommand_expected _ _ _ _ _ h2 h3 h4]
  unfold State.performCommand
  rw [if_neg (by simp [h5]), hg]

/-- Before the Plinth may perform a command, none changes anything. -/
theorem command_idle (opc : Nat) (now : Bool) (c : Cmd) (s : State) (go : State → CmdEnd) (h : s.plinth.mayPerform = false) :
    command opc now c s go = .next s := by
  unfold command
  rw [if_pos (by simp [h])]

end Sys2Proof.Machine
end

