-- ==== Sys2Proof/Laws/Lanes.lean ====
section
/-! SUPPORT. Lanes of words: a word built of lanes reads back lane by lane. -/
namespace Sys2Proof.Machine

theorem digits_getD (b : Nat) (hb : 0 < b) : ∀ (l : List Nat) (i : Nat),
    l.foldr (fun c acc => c % b + b * acc) 0 / b ^ i % b = l.getD i 0 % b := by
  intro l
  induction l with
  | nil => intro i; simp
  | cons c l ih =>
    intro i
    cases i with
    | zero => simp
    | succ i =>
      have : ∀ x, (c % b + b * x) / b ^ (i + 1) = x / b ^ i := fun x => by
        rw [pow_succ', ← Nat.div_div_eq_div_mul, Nat.add_mul_div_left _ _ hb, Nat.div_eq_of_lt (Nat.mod_lt _ hb), Nat.zero_add]
      simpa [this] using ih i

theorem bits_mod (x w i m : Nat) (h : w * i + w ≤ m) : bits (x % 2 ^ m) (w * i) w = bits x (w * i) w := by
  unfold bits
  obtain ⟨k, rfl⟩ := Nat.exists_eq_add_of_le h
  rw [show w * i + w + k = w * i + (w + k) by ring, pow_add, Nat.mod_mul_right_div_self, pow_add, Nat.mod_mul_right_mod]

/-- A lane of a word built of lanes is that lane's code modulo the lane's width. -/
theorem lane_ofLanes (f : Format) (l : List Nat) (i : Nat) (h : f.width * i + f.width ≤ 128) :
    lane f (ofLanes f l) i = l.getD i 0 % 2 ^ f.width := by
  unfold lane ofLanes
  rw [BitVec.toNat_ofNat, bits_mod _ _ _ _ h]
  unfold bits
  rw [pow_mul]
  exact digits_getD _ (by positivity) l i

/-- Every lane of a lane type lies in the word. -/
theorem lane_fits (f : Format) (i : Nat) (h : i < f.lanes) : f.width * i + f.width ≤ 128 := by
  have h1 : f.width * (i + 1) ≤ f.width * f.lanes := Nat.mul_le_mul_left _ h
  have h2 : f.width * f.lanes ≤ 128 := Nat.mul_div_le _ _
  linarith [Nat.mul_succ f.width i]

/-- Lane by lane application reads back. -/
theorem lane_zipLanes (f : Format) (g : Nat → Nat → Nat) (a b : QWord) (i : Nat) (h : i < f.lanes) :
    lane f (zipLanes f g a b) i = g (lane f a i) (lane f b i) % 2 ^ f.width := by
  unfold zipLanes
  rw [lane_ofLanes _ _ _ (lane_fits f i h)]
  simp [List.getD, h]

theorem lane_mapLanes (f : Format) (g : Nat → Nat) (a : QWord) (i : Nat) (h : i < f.lanes) :
    lane f (mapLanes f g a) i = g (lane f a i) % 2 ^ f.width := by
  unfold mapLanes
  rw [lane_ofLanes _ _ _ (lane_fits f i h)]
  simp [List.getD, h]

/-- A word of a list comprehension reads back. -/
theorem lane_ofRange (f : Format) (g : Nat → Nat) (i : Nat) (h : i < f.lanes) :
    lane f (ofLanes f ((List.range f.lanes).map g)) i = g i % 2 ^ f.width := by
  rw [lane_ofLanes _ _ _ (lane_fits f i h)]
  simp [List.getD, h]

end Sys2Proof.Machine
end

