-- ==== Sys2Proof/Laws/Grid.lean ====
section
/-! SUPPORT. Everything that the shared frame of a firing can do, one lemma for each of its ways. -/
namespace Sys2Proof.Machine

/-- A word whose PE does not fire has no effect. -/
theorem fire_idle (op : Nat) (f : PeWord) (s : State) (go : Ctx → Firing) (h : s.fires op f = false) : fire op f s go = .next s := by
  simp only [State.fires] at h
  unfold fire
  rw [if_pos]
  revert h
  cases s.mayFire s.cur.die s.cur.site s.cur.pe <;> cases (s.here.pe s.cur.pe).trigger op f <;> simp

/-- A firing whose operands carry no poison takes none as a flag. -/
theorem Ctx.flagPoison_clean (c : Ctx) (op : Nat) (ha : c.a.psn = 0) (hb : c.b.psn = 0) : c.flagPoison op = false := by
  simp [Ctx.flagPoison, ha, hb]

/-- A firing that is not refused by its frame goes by the two faults that may keep it from its effect. -/
theorem fire_fires (op : Nat) (f : PeWord) (s : State) (go : Ctx → Firing) (h : s.fires op f = true) :
    fire op f s go =
      let c := s.firingCtx op f (op == 0x16)
      let g := go c
      if c.badPair g && c.badPoison op g then
        .next ((s.pick 2).2.refuseFiring (if (s.pick 2).1 = 0 then .pairing else .poison))
      else if c.badPair g then .next (s.refuseFiring .pairing)
      else if c.badPoison op g then .next (s.refuseFiring .poison)
      else match g with
        | .done r after => .next (after (s.applyFiring c r (if op = 0x16 then [f.sb.val - 8] else [])).1
            (s.applyFiring c r (if op = 0x16 then [f.sb.val - 8] else [])).2)
        | .pairing | .poison => .next s := by
  simp only [State.fires, Bool.and_eq_true] at h
  unfold fire
  exact (if_neg (by simp [h.1.1, h.1.2, h.2])).trans rfl

/-- A firing that fails its pairing and consumes no poison. -/
theorem fire_pairing (op : Nat) (f : PeWord) (s : State) (go : Ctx → Firing) (h : s.fires op f = true)
    (hp : (s.firingCtx op f (op == 0x16)).badPair (go (s.firingCtx op f (op == 0x16))) = true)
    (hn : (s.firingCtx op f (op == 0x16)).badPoison op (go (s.firingCtx op f (op == 0x16))) = false) :
    fire op f s go = .next (s.refuseFiring .pairing) := by
  rw [fire_fires op f s go h]
  simp only [hp, hn, Bool.and_false, Bool.false_eq_true, if_false, if_true]

/-- A firing that consumes poison and whose pairing is good. -/
theorem fire_poison (op : Nat) (f : PeWord) (s : State) (go : Ctx → Firing) (h : s.fires op f = true)
    (hp : (s.firingCtx op f (op == 0x16)).badPair (go (s.firingCtx op f (op == 0x16))) = false)
    (hn : (s.firingCtx op f (op == 0x16)).badPoison op (go (s.firingCtx op f (op == 0x16))) = true) :
    fire op f s go = .next (s.refuseFiring .poison) := by
  rw [fire_fires op f s go h]
  simp only [hp, hn, Bool.false_and, Bool.false_eq_true, if_false, if_true]

/-- A firing that gives a result. -/
theorem fire_done (op : Nat) (f : PeWord) (s : State) (go : Ctx → Firing) (r : Fired) (after : State → Nat → State) (h : s.fires op f = true)
    (ha : (s.firingCtx op f (op == 0x16)).a.ok = true) (hb : (s.firingCtx op f (op == 0x16)).b.ok = true)
    (hf : (s.firingCtx op f (op == 0x16)).flagPoison op = false)
    (hg : go (s.firingCtx op f (op == 0x16)) = .done r after) (hp : f.pact = 3 → r.psn ≠ 0 → constantFlag op = true) :
    fire op f s go = .next (after (s.applyFiring (s.firingCtx op f (op == 0x16)) r (if op = 0x16 then [f.sb.val - 8] else [])).1
      (s.applyFiring (s.firingCtx op f (op == 0x16)) r (if op = 0x16 then [f.sb.val - 8] else [])).2) := by
  have hc : (f.pact == 3 && r.psn != 0 && !constantFlag op) = false := by
    rw [Bool.eq_false_iff]
    simp only [ne_eq, Bool.and_eq_true, beq_iff_eq, bne_iff_ne, Bool.not_eq_true', not_and]
    rintro ⟨h1, h2⟩
    simp [hp h1 h2]
  have hc2 : ((s.firingCtx op f (op == 0x16)).f.pact == 3 && r.psn != 0 && !constantFlag op) = false := hc
  have b1 : (s.firingCtx op f (op == 0x16)).badPair (.done r after) = false := by simp [Ctx.badPair, ha, hb]
  have b2 : (s.firingCtx op f (op == 0x16)).badPoison op (.done r after) = false := by
    simp only [Ctx.badPoison, hf, ha, hb, Bool.true_and, Bool.false_or]
    exact hc2
  rw [fire_fires op f s go h]
  simp only [hg, b1, b2, Bool.and_false, Bool.false_eq_true, if_false]

end Sys2Proof.Machine
end

