-- ==== Sys2Proof/Laws/Ops.lean ====
section
/-! SUPPORT. Everything that the shared operations of the control processor can do: issue, traps, transfers, the start of an access. -/
namespace Sys2Proof.Machine

/-! ### Issue -/

theorem issue_ready {s : State} {regs : List Reg} {o : Order} (go : State → State) (h : s.me.ready regs o = true) :
    issue s regs o go = .next (go s) := if_pos h
theorem issue_not_ready {s : State} {regs : List Reg} {o : Order} (go : State → State) (h : s.me.ready regs o = false) :
    issue s regs o go = .next s := if_neg (by simp [h])

/-- An issued instruction answers the state it makes, or, where the strand is not ready, the same state. -/
theorem issue_cases {s t : State} {regs : List Reg} {o : Order} {go : State → State} (h : issue s regs o go = .next t) :
    (s.me.ready regs o = true ∧ t = go s) ∨ (s.me.ready regs o = false ∧ t = s) := by
  unfold issue at h
  split at h <;> simp_all

theorem issueAlu_ready {s : State} {regs : List Reg} (f : Strand → Strand) (h : s.me.ready regs Order.none = true) :
    issueAlu s regs f = .next (s.modMe fun t => { f t with pc := (f t).pc + 4 }) := if_pos h

theorem issueAlu_cases {s t : State} {regs : List Reg} {f : Strand → Strand} (h : issueAlu s regs f = .next t) :
    t = s.modMe (fun x => (f x).next) ∨ t = s := by
  rcases issue_cases h with ⟨_, h⟩ | ⟨_, h⟩
  · exact .inl h
  · exact .inr h

theorem issueMem_ready {s : State} {regs : List Reg} {o : Order} (go : State → State) (h : s.readyMem regs o = true) :
    issueMem s regs o go = .next (go s) := if_pos h
theorem issueMem_cases {s t : State} {regs : List Reg} {o : Order} {go : State → State} (h : issueMem s regs o go = .next t) :
    (s.readyMem regs o = true ∧ t = go s) ∨ (s.readyMem regs o = false ∧ t = s) := by
  unfold issueMem at h
  split at h <;> simp_all [State.readyMem]

theorem issueCommand_ready {s : State} {regs : List Reg} {o : Order} (go : State → State) (h : s.readyCommand regs o = true) :
    issueCommand s regs o go = .next (go s) := if_pos h
theorem issueCommand_cases {s t : State} {regs : List Reg} {o : Order} {go : State → State} (h : issueCommand s regs o go = .next t) :
    (s.readyCommand regs o = true ∧ t = go s) ∨ (s.readyCommand regs o = false ∧ t = s) := by
  unfold issueCommand at h
  split at h <;> simp_all [State.readyCommand, State.readyMem]

/-! ### Traps -/

/-- A trap with a handler, outside one: the strand saves what R257 names and goes to the handler; nothing else changes. -/
theorem takeTrap_taken (s : State) (d site n : Nat) (c : Report) (imp : Bool) (off : Word) (h1 : (s.strand d site n).intrap = false)
    (h2 : (s.strand d site n).tvec ≠ 0) :
    s.takeTrap d site n c imp off = s.modStrand d site n fun x =>
      { x with epc := BitVec.ofNat 15 (off.toNat / 4), causeCode := BitVec.ofNat 8 c.cause, causeDetail := BitVec.ofNat 8 c.detail,
               eval := c.eval, imp := imp, intrap := true, stand := none, pc := BitVec.ofNat 64 (4 * x.tvec.toNat) } := by
  unfold State.takeTrap
  rw [if_neg (by simp [h1]), if_neg (by simp only [h1, Bool.false_or, beq_iff_eq]; exact h2)]

/-- A precise trap inside a handler, or with none, fails the task. -/
theorem takeTrap_fails (s : State) (d site n : Nat) (c : Report) (off : Word)
    (h : (s.strand d site n).intrap = true ∨ (s.strand d site n).tvec = 0) :
    s.takeTrap d site n c false off = s.failAt d site n c := by
  unfold State.takeTrap
  rcases h with h | h <;> simp [h]

/-! ### Transfers and accesses -/

theorem jumpMe_ok {s : State} {target : Word} (f : Strand → Strand) (h : s.here.targetOk target = true) :
    s.jumpMe target f = s.modMe fun t => { f t with pc := target } := if_pos h
theorem jumpMe_bad {s : State} {target : Word} (f : Strand → Strand) (h : s.here.targetOk target = false) :
    s.jumpMe target f = s.trapMe 2 0 target := if_neg (by simp [h])

theorem startAccess_misaligned (s : State) (a : Access) (n : Nat) (h : a.va % 2 ^ n ≠ 0) :
    s.startAccess a n = s.trapMe 4 n (BitVec.ofNat 64 a.va) := if_pos h
theorem startAccess_memory (s : State) (a : Access) (n : Nat) (h : a.va % 2 ^ n = 0) (hw : inWindow a.va = false) :
    s.startAccess a n = (s.launch a).translate a := by simp [State.startAccess, h, hw]
theorem startAccess_window (s : State) (a : Access) (n : Nat) (h : a.va % 2 ^ n = 0) (hw : inWindow a.va = true)
    (hf : s.windowFault a.part a.va = none) : s.startAccess a n = (s.launch a).enter a .window := by
  simp [State.startAccess, h, hw, hf]
theorem startAccess_fault (s : State) (a : Access) (n : Nat) (r : Report) (h : a.va % 2 ^ n = 0) (hw : inWindow a.va = true)
    (hf : s.windowFault a.part a.va = some r) : s.startAccess a n = s.trapMe r.cause r.detail r.eval := by
  simp [State.startAccess, h, hw, hf]

/-! ### Slots and registers of a strand -/

/-- Slot 0 counts nothing; another slot rises by 1 (04 R91). -/
theorem Strand.raise_zero (t : Strand) : t.raise 0 = t := rfl
theorem Strand.raise_slot (t : Strand) {n : Nat} (h : n ≠ 0) : t.raise n = { t with sb := vset t.sb n (vget t.sb n + 1) } := if_neg h
theorem Strand.lower_zero (t : Strand) : t.lower 0 = t := rfl
theorem Strand.lower_slot (t : Strand) {n : Nat} (h : n ≠ 0) : t.lower n = { t with sb := vset t.sb n (vget t.sb n - 1) } := if_neg h
@[simp] theorem Strand.raise_pc (t : Strand) (n : Nat) : (t.raise n).pc = t.pc := by unfold Strand.raise; split <;> rfl
@[simp] theorem Strand.raise_x (t : Strand) (n : Nat) : (t.raise n).x = t.x := by unfold Strand.raise; split <;> rfl
@[simp] theorem Strand.lower_pc (t : Strand) (n : Nat) : (t.lower n).pc = t.pc := by unfold Strand.lower; split <;> rfl
@[simp] theorem Strand.lower_x (t : Strand) (n : Nat) : (t.lower n).x = t.x := by unfold Strand.lower; split <;> rfl
@[simp] theorem Strand.mark_pc (t : Strand) (r : Reg) : (t.mark r).pc = t.pc := by unfold Strand.mark; split <;> rfl
/-- The pc advances after the slot has risen as it does before. -/
theorem Strand.raise_next (t : Strand) (n : Nat) : { t.raise n with pc := t.pc + 4 } = (t.raise n).next := by simp [Strand.next]
theorem Strand.next_raise (t : Strand) (n : Nat) : t.next.raise n = (t.raise n).next := by unfold Strand.raise; split <;> rfl

end Sys2Proof.Machine
end

