-- ==== Sys2Proof/Laws/PerInstr.lean ====
section
/-! SUPPORT. Every instruction encodes into its words: the first and second word of the control processor and a PE word stay in range. -/
namespace Sys2Proof.Laws.Encoding

/-! ### Codes -/

theorem code_lt_cond (x : Cond) : x.code < 6 := by cases x <;> decide
theorem code_lt_ord (x : Ord) : x.code < 5 := by cases x <;> decide
theorem code_lt_scp (x : Scp) : x.code < 4 := by cases x <;> decide
theorem code_lt_loadsize (x : LoadSize) : x.code < 7 := by cases x <;> decide
theorem code_lt_size (x : Size) : x.code < 4 := by cases x <;> decide
theorem code_lt_atomicop (x : AtomicOp) : x.code < 7 := by cases x <;> decide
theorem code_lt_predop (x : PredOp) : x.code < 6 := by cases x <;> decide
theorem code_lt_hstate (x : HState) : x.code < 4 := by cases x <;> decide
theorem code_lt_sysreg (x : SysReg) : x.code < 15 := by cases x <;> decide
theorem code_lt_order (x : Order) : x.code < 64 := by have h1 := x.set.isLt; have h2 := x.wait.isLt; unfold Order.code; omega
theorem code_lt_tilesel (x : TileSel) : x.code < 32768 := by cases x with | all => decide | one r => have h := r.isLt; show r.val * 1024 < 32768; omega
theorem code_lt_bool (x : Bool) : flagCode x < 2 := by cases x <;> decide

/-- A PE word has 64 bits. -/
theorem packPe_lt (op : Nat) (h : op < 128) (f : PeWord) : packPe op f < 2 ^ 64 := by
  have h1 := f.pcare.isLt; have h2 := f.pval.isLt; have h3 := f.inrdy.isLt; have h4 := f.ospc.isLt; have h5 := code_lt_bool f.tte
  have h6 := f.tq.isLt; have h7 := f.tval.isLt; have h8 := f.dst.isLt; have h9 := f.sa.isLt; have h10 := f.sb.isLt
  have h11 := f.deq.isLt; have h12 := f.pidx.isLt; have h13 := f.pact.isLt; have h14 := f.lt.isLt
  unfold packPe
  omega

/-- The words of an instruction stay in range: 32 bits for each word of the control processor, 64 for a PE word. -/
def Statement (i : Instr) : Prop := encode i < 2 ^ 32 ∧ encodeSecond i < 2 ^ 32 ∧ encodePe i < 2 ^ 64

/-- A row of neither kind. -/
theorem of_zero {i : Instr} (h1 : encode i = 0) (h2 : encodeSecond i = 0) (h3 : encodePe i = 0) : Statement i := by
  simp [Statement, h1, h2, h3]
/-- A row of the control processor with one word. -/
theorem of_word {i : Instr} (h1 : encode i < 2 ^ 32) (h2 : encodeSecond i = 0) (h3 : encodePe i = 0) : Statement i := by
  refine ⟨h1, ?_, ?_⟩ <;> simp [h2, h3]
/-- A row of the grid. -/
theorem of_pe {i : Instr} (op : Nat) (f : PeWord) (h : op < 128) (h1 : encode i = 0) (h2 : encodeSecond i = 0) (h3 : encodePe i = packPe op f) :
    Statement i := by
  refine ⟨by simp [h1], by simp [h2], ?_⟩
  rw [h3]
  exact packPe_lt op h f

/-! ### One lemma for each constructor -/

theorem nop : Statement .nop := of_word (by decide) rfl rfl
theorem add (d : Reg) (a : Reg) (b : Reg) : Statement (.add d a b) := of_word (by have h0 := d.isLt; have h1 := a.isLt; have h2 := b.isLt; show 67108864 + d.val * 1048576 + a.val * 32768 + b.val * 1024 < 4294967296; omega) rfl rfl
theorem sub (d : Reg) (a : Reg) (b : Reg) : Statement (.sub d a b) := of_word (by have h0 := d.isLt; have h1 := a.isLt; have h2 := b.isLt; show 100663296 + d.val * 1048576 + a.val * 32768 + b.val * 1024 < 4294967296; omega) rfl rfl
theorem mul (d : Reg) (a : Reg) (b : Reg) : Statement (.mul d a b) := of_word (by have h0 := d.isLt; have h1 := a.isLt; have h2 := b.isLt; show 134217728 + d.val * 1048576 + a.val * 32768 + b.val * 1024 < 4294967296; omega) rfl rfl
theorem mulh (d : Reg) (a : Reg) (b : Reg) (u : Bool) : Statement (.mulh d a b u) := of_word (by have h0 := d.isLt; have h1 := a.isLt; have h2 := b.isLt; have h3 := code_lt_bool u; show 167772160 + d.val * 1048576 + a.val * 32768 + b.val * 1024 + flagCode u * 64 < 4294967296; omega) rfl rfl
theorem div (d : Reg) (a : Reg) (b : Reg) (u : Bool) : Statement (.div d a b u) := of_word (by have h0 := d.isLt; have h1 := a.isLt; have h2 := b.isLt; have h3 := code_lt_bool u; show 201326592 + d.val * 1048576 + a.val * 32768 + b.val * 1024 + flagCode u * 64 < 4294967296; omega) rfl rfl
theorem rem (d : Reg) (a : Reg) (b : Reg) (u : Bool) : Statement (.rem d a b u) := of_word (by have h0 := d.isLt; have h1 := a.isLt; have h2 := b.isLt; have h3 := code_lt_bool u; show 234881024 + d.val * 1048576 + a.val * 32768 + b.val * 1024 + flagCode u * 64 < 4294967296; omega) rfl rfl
theorem and (d : Reg) (a : Reg) (b : Reg) : Statement (.and d a b) := of_word (by have h0 := d.isLt; have h1 := a.isLt; have h2 := b.isLt; show 268435456 + d.val * 1048576 + a.val * 32768 + b.val * 1024 < 4294967296; omega) rfl rfl
theorem or (d : Reg) (a : Reg) (b : Reg) : Statement (.or d a b) := of_word (by have h0 := d.isLt; have h1 := a.isLt; have h2 := b.isLt; show 301989888 + d.val * 1048576 + a.val * 32768 + b.val * 1024 < 4294967296; omega) rfl rfl
theorem xor (d : Reg) (a : Reg) (b : Reg) : Statement (.xor d a b) := of_word (by have h0 := d.isLt; have h1 := a.isLt; have h2 := b.isLt; show 335544320 + d.val * 1048576 + a.val * 32768 + b.val * 1024 < 4294967296; omega) rfl rfl
theorem shl (d : Reg) (a : Reg) (b : Reg) : Statement (.shl d a b) := of_word (by have h0 := d.isLt; have h1 := a.isLt; have h2 := b.isLt; show 369098752 + d.val * 1048576 + a.val * 32768 + b.val * 1024 < 4294967296; omega) rfl rfl
theorem shr (d : Reg) (a : Reg) (b : Reg) : Statement (.shr d a b) := of_word (by have h0 := d.isLt; have h1 := a.isLt; have h2 := b.isLt; show 402653184 + d.val * 1048576 + a.val * 32768 + b.val * 1024 < 4294967296; omega) rfl rfl
theorem sra (d : Reg) (a : Reg) (b : Reg) : Statement (.sra d a b) := of_word (by have h0 := d.isLt; have h1 := a.isLt; have h2 := b.isLt; show 436207616 + d.val * 1048576 + a.val * 32768 + b.val * 1024 < 4294967296; omega) rfl rfl
theorem min (d : Reg) (a : Reg) (b : Reg) (u : Bool) : Statement (.min d a b u) := of_word (by have h0 := d.isLt; have h1 := a.isLt; have h2 := b.isLt; have h3 := code_lt_bool u; show 469762048 + d.val * 1048576 + a.val * 32768 + b.val * 1024 + flagCode u * 64 < 4294967296; omega) rfl rfl
theorem max (d : Reg) (a : Reg) (b : Reg) (u : Bool) : Statement (.max d a b u) := of_word (by have h0 := d.isLt; have h1 := a.isLt; have h2 := b.isLt; have h3 := code_lt_bool u; show 503316480 + d.val * 1048576 + a.val * 32768 + b.val * 1024 + flagCode u * 64 < 4294967296; omega) rfl rfl
theorem addi (d : Reg) (a : Reg) (i : BitVec 15) : Statement (.addi d a i) := of_word (by have h0 := d.isLt; have h1 := a.isLt; have h2 := i.isLt; show 536870912 + d.val * 1048576 + a.val * 32768 + i.toNat < 4294967296; omega) rfl rfl
theorem andi (d : Reg) (a : Reg) (i : BitVec 15) : Statement (.andi d a i) := of_word (by have h0 := d.isLt; have h1 := a.isLt; have h2 := i.isLt; show 570425344 + d.val * 1048576 + a.val * 32768 + i.toNat < 4294967296; omega) rfl rfl
theorem ori (d : Reg) (a : Reg) (i : BitVec 15) : Statement (.ori d a i) := of_word (by have h0 := d.isLt; have h1 := a.isLt; have h2 := i.isLt; show 603979776 + d.val * 1048576 + a.val * 32768 + i.toNat < 4294967296; omega) rfl rfl
theorem xori (d : Reg) (a : Reg) (i : BitVec 15) : Statement (.xori d a i) := of_word (by have h0 := d.isLt; have h1 := a.isLt; have h2 := i.isLt; show 637534208 + d.val * 1048576 + a.val * 32768 + i.toNat < 4294967296; omega) rfl rfl
theorem shli (d : Reg) (a : Reg) (n : Fin 64) : Statement (.shli d a n) := of_word (by have h0 := d.isLt; have h1 := a.isLt; have h2 := n.isLt; show 671088640 + d.val * 1048576 + a.val * 32768 + n.val < 4294967296; omega) rfl rfl
theorem shri (d : Reg) (a : Reg) (n : Fin 64) : Statement (.shri d a n) := of_word (by have h0 := d.isLt; have h1 := a.isLt; have h2 := n.isLt; show 704643072 + d.val * 1048576 + a.val * 32768 + n.val < 4294967296; omega) rfl rfl
theorem srai (d : Reg) (a : Reg) (n : Fin 64) : Statement (.srai d a n) := of_word (by have h0 := d.isLt; have h1 := a.isLt; have h2 := n.isLt; show 738197504 + d.val * 1048576 + a.val * 32768 + n.val < 4294967296; omega) rfl rfl
theorem cmpi (p : Fin 8) (a : Reg) (c : Cond) (u : Bool) (i : BitVec 11) : Statement (.cmpi p a c u i) := of_word (by have h0 := p.isLt; have h1 := a.isLt; have h2 := code_lt_cond c; have h3 := code_lt_bool u; have h4 := i.isLt; show 771751936 + p.val * 1048576 + a.val * 32768 + c.code * 4096 + flagCode u * 2048 + i.toNat < 4294967296; omega) rfl rfl
theorem cmp (p : Fin 8) (a : Reg) (b : Reg) (c : Cond) (u : Bool) : Statement (.cmp p a b c u) := of_word (by have h0 := p.isLt; have h1 := a.isLt; have h2 := b.isLt; have h3 := code_lt_cond c; have h4 := code_lt_bool u; show 805306368 + p.val * 1048576 + a.val * 32768 + b.val * 1024 + c.code * 128 + flagCode u * 64 < 4294967296; omega) rfl rfl
theorem sel (d : Reg) (a : Reg) (b : Reg) (p : Fin 8) : Statement (.sel d a b p) := of_word (by have h0 := d.isLt; have h1 := a.isLt; have h2 := b.isLt; have h3 := p.isLt; show 838860800 + d.val * 1048576 + a.val * 32768 + b.val * 1024 + p.val * 64 < 4294967296; omega) rfl rfl
theorem clz (d : Reg) (a : Reg) : Statement (.clz d a) := of_word (by have h0 := d.isLt; have h1 := a.isLt; show 872415232 + d.val * 1048576 + a.val * 32768 < 4294967296; omega) rfl rfl
theorem ctz (d : Reg) (a : Reg) : Statement (.ctz d a) := of_word (by have h0 := d.isLt; have h1 := a.isLt; show 905969664 + d.val * 1048576 + a.val * 32768 < 4294967296; omega) rfl rfl
theorem popc (d : Reg) (a : Reg) : Statement (.popc d a) := of_word (by have h0 := d.isLt; have h1 := a.isLt; show 939524096 + d.val * 1048576 + a.val * 32768 < 4294967296; omega) rfl rfl
theorem bfx (d : Reg) (a : Reg) (x : Bool) (p : Fin 64) (l : Fin 64) : Statement (.bfx d a x p l) := of_word (by have h0 := d.isLt; have h1 := a.isLt; have h2 := code_lt_bool x; have h3 := p.isLt; have h4 := l.isLt; show 973078528 + d.val * 1048576 + a.val * 32768 + flagCode x * 4096 + p.val * 64 + l.val < 4294967296; omega) rfl rfl
theorem bfi (d : Reg) (a : Reg) (p : Fin 64) (l : Fin 64) : Statement (.bfi d a p l) := of_word (by have h0 := d.isLt; have h1 := a.isLt; have h2 := p.isLt; have h3 := l.isLt; show 1006632960 + d.val * 1048576 + a.val * 32768 + p.val * 64 + l.val < 4294967296; omega) rfl rfl
theorem sext (d : Reg) (a : Reg) (z : Size) : Statement (.sext d a z) := of_word (by have h0 := d.isLt; have h1 := a.isLt; have h2 := code_lt_size z; show 1040187392 + d.val * 1048576 + a.val * 32768 + z.code * 64 < 4294967296; omega) rfl rfl
theorem mov (d : Reg) (a : Reg) : Statement (.mov d a) := of_word (by have h0 := d.isLt; have h1 := a.isLt; show 1073741824 + d.val * 1048576 + a.val * 32768 < 4294967296; omega) rfl rfl
theorem movChannel (d : Reg) (k : Fin 8) : Statement (.movChannel d k) := of_word (by have h0 := d.isLt; have h1 := k.isLt; show 1073741824 + 512 + d.val * 1048576 + k.val * 32768 < 4294967296; omega) rfl rfl
theorem lis (d : Reg) (i : BitVec 15) : Statement (.lis d i) := of_word (by have h0 := d.isLt; have h1 := i.isLt; show 1107296256 + d.val * 1048576 + i.toNat < 4294967296; omega) rfl rfl
theorem li (d : Reg) (v : BitVec 52) : Statement (.li d v) := by
  have h1 := d.isLt; have h2 := v.isLt
  refine ⟨?_, Nat.mod_lt _ (by decide), Nat.two_pow_pos 64⟩
  show 1140850688 + d.val * 1048576 + v.toNat / 2 ^ 32 < 4294967296
  omega
theorem widf (d : Reg) (n : Fin 6) : Statement (.widf d n) := of_word (by have h0 := d.isLt; have h1 := n.isLt; show 1174405120 + d.val * 1048576 + n.val < 4294967296; omega) rfl rfl
theorem plog (d : Fin 8) (a : Fin 8) (b : Fin 8) (q : PredOp) : Statement (.plog d a b q) := of_word (by have h0 := d.isLt; have h1 := a.isLt; have h2 := b.isLt; have h3 := code_lt_predop q; show 1207959552 + d.val * 1048576 + a.val * 32768 + b.val * 1024 + q.code * 64 < 4294967296; omega) rfl rfl
theorem pmovToRegister (d : Reg) : Statement (.pmovToRegister d) := of_word (by have h0 := d.isLt; show 1241513984 + d.val * 1048576 < 4294967296; omega) rfl rfl
theorem pmovToPredicates (a : Reg) : Statement (.pmovToPredicates a) := of_word (by have h0 := a.isLt; show 1241513984 + 64 + a.val * 32768 < 4294967296; omega) rfl rfl
theorem enrd (d : Reg) (a : Reg) : Statement (.enrd d a) := of_word (by have h0 := d.isLt; have h1 := a.isLt; show 1275068416 + d.val * 1048576 + a.val * 32768 < 4294967296; omega) rfl rfl
theorem b (t : BitVec 21) : Statement (.b t) := of_word (by have h0 := t.isLt; show 1342177280 + t.toNat < 4294967296; omega) rfl rfl
theorem bc (p : Fin 8) (w : Bool) (t : BitVec 21) : Statement (.bc p w t) := of_word (by have h0 := p.isLt; have h1 := code_lt_bool w; have h2 := t.isLt; show 1375731712 + p.val * 4194304 + flagCode w * 2097152 + t.toNat < 4294967296; omega) rfl rfl
theorem call (t : BitVec 21) : Statement (.call t) := of_word (by have h0 := t.isLt; show 1409286144 + t.toNat < 4294967296; omega) rfl rfl
theorem callr (a : Reg) : Statement (.callr a) := of_word (by have h0 := a.isLt; show 1442840576 + a.val * 32768 < 4294967296; omega) rfl rfl
theorem ret : Statement .ret := of_word (by decide) rfl rfl
theorem jmpr (a : Reg) : Statement (.jmpr a) := of_word (by have h0 := a.isLt; show 1509949440 + a.val * 32768 < 4294967296; omega) rfl rfl
theorem ldl (d : Reg) (a : Reg) (z : LoadSize) (e : BitVec 6) (o : Order) : Statement (.ldl d a z e o) := of_word (by have h0 := d.isLt; have h1 := a.isLt; have h2 := code_lt_loadsize z; have h3 := e.isLt; have h4 := code_lt_order o; show 1610612736 + d.val * 1048576 + a.val * 32768 + z.code * 4096 + e.toNat * 64 + o.code < 4294967296; omega) rfl rfl
theorem stl (d : Reg) (a : Reg) (z : Size) (e : BitVec 6) (o : Order) : Statement (.stl d a z e o) := of_word (by have h0 := d.isLt; have h1 := a.isLt; have h2 := code_lt_size z; have h3 := e.isLt; have h4 := code_lt_order o; show 1644167168 + d.val * 1048576 + a.val * 32768 + z.code * 4096 + e.toNat * 64 + o.code < 4294967296; omega) rfl rfl
theorem ldg (d : Reg) (a : Reg) (z : LoadSize) (e : BitVec 6) (o : Order) : Statement (.ldg d a z e o) := of_word (by have h0 := d.isLt; have h1 := a.isLt; have h2 := code_lt_loadsize z; have h3 := e.isLt; have h4 := code_lt_order o; show 1677721600 + d.val * 1048576 + a.val * 32768 + z.code * 4096 + e.toNat * 64 + o.code < 4294967296; omega) rfl rfl
theorem stg (d : Reg) (a : Reg) (z : Size) (e : BitVec 6) (o : Order) : Statement (.stg d a z e o) := of_word (by have h0 := d.isLt; have h1 := a.isLt; have h2 := code_lt_size z; have h3 := e.isLt; have h4 := code_lt_order o; show 1711276032 + d.val * 1048576 + a.val * 32768 + z.code * 4096 + e.toNat * 64 + o.code < 4294967296; omega) rfl rfl
theorem lda (d : Reg) (a : Reg) (q : Ord) (c : Scp) (z : Size) (o : Order) : Statement (.lda d a q c z o) := of_word (by have h0 := d.isLt; have h1 := a.isLt; have h2 := code_lt_ord q; have h3 := code_lt_scp c; have h4 := code_lt_size z; have h5 := code_lt_order o; show 1744830464 + d.val * 1048576 + a.val * 32768 + q.code * 4096 + c.code * 1024 + z.code * 256 + o.code < 4294967296; omega) rfl rfl
theorem strl (d : Reg) (a : Reg) (q : Ord) (c : Scp) (z : Size) (o : Order) : Statement (.strl d a q c z o) := of_word (by have h0 := d.isLt; have h1 := a.isLt; have h2 := code_lt_ord q; have h3 := code_lt_scp c; have h4 := code_lt_size z; have h5 := code_lt_order o; show 1778384896 + d.val * 1048576 + a.val * 32768 + q.code * 4096 + c.code * 1024 + z.code * 256 + o.code < 4294967296; omega) rfl rfl
theorem amo (d : Reg) (a : Reg) (q : Ord) (c : Scp) (wide : Bool) (f : AtomicOp) (o : Order) : Statement (.amo d a q c wide f o) := of_word (by have h0 := d.isLt; have h1 := a.isLt; have h2 := code_lt_ord q; have h3 := code_lt_scp c; have h4 := code_lt_bool wide; have h5 := code_lt_atomicop f; have h6 := code_lt_order o; show 1811939328 + d.val * 1048576 + a.val * 32768 + q.code * 4096 + c.code * 1024 + flagCode wide * 512 + f.code * 64 + o.code < 4294967296; omega) rfl rfl
theorem amol (d : Reg) (a : Reg) (q : Ord) (c : Scp) (wide : Bool) (f : AtomicOp) (o : Order) : Statement (.amol d a q c wide f o) := of_word (by have h0 := d.isLt; have h1 := a.isLt; have h2 := code_lt_ord q; have h3 := code_lt_scp c; have h4 := code_lt_bool wide; have h5 := code_lt_atomicop f; have h6 := code_lt_order o; show 1879048192 + d.val * 1048576 + a.val * 32768 + q.code * 4096 + c.code * 1024 + flagCode wide * 512 + f.code * 64 + o.code < 4294967296; omega) rfl rfl
theorem cas (d : Reg) (a : Reg) (q : Ord) (c : Scp) (wide : Bool) (o : Order) : Statement (.cas d a q c wide o) := of_word (by have h0 := d.isLt; have h1 := a.isLt; have h2 := code_lt_ord q; have h3 := code_lt_scp c; have h4 := code_lt_bool wide; have h5 := code_lt_order o; show 1845493760 + d.val * 1048576 + a.val * 32768 + q.code * 4096 + c.code * 1024 + flagCode wide * 512 + o.code < 4294967296; omega) rfl rfl
theorem fence (q : Ord) (c : Scp) (o : Order) : Statement (.fence q c o) := of_word (by have h0 := code_lt_ord q; have h1 := code_lt_scp c; have h2 := code_lt_order o; show 1912602624 + q.code * 4096 + c.code * 1024 + o.code < 4294967296; omega) rfl rfl
theorem pref (a : Reg) (e : BitVec 9) (o : Order) : Statement (.pref a e o) := of_word (by have h0 := a.isLt; have h1 := e.isLt; have h2 := code_lt_order o; show 1946157056 + a.val * 32768 + e.toNat * 64 + o.code < 4294967296; omega) rfl rfl
theorem cflush (a : Reg) (e : BitVec 9) (o : Order) : Statement (.cflush a e o) := of_word (by have h0 := a.isLt; have h1 := e.isLt; have h2 := code_lt_order o; show 1979711488 + a.val * 32768 + e.toNat * 64 + o.code < 4294967296; omega) rfl rfl
theorem cinv (a : Reg) (e : BitVec 9) (o : Order) : Statement (.cinv a e o) := of_word (by have h0 := a.isLt; have h1 := e.isLt; have h2 := code_lt_order o; show 2013265920 + a.val * 32768 + e.toNat * 64 + o.code < 4294967296; omega) rfl rfl
theorem tlook (d : Reg) (a : Reg) (b : Reg) (o : Order) : Statement (.tlook d a b o) := of_word (by have h0 := d.isLt; have h1 := a.isLt; have h2 := b.isLt; have h3 := code_lt_order o; show 2147483648 + d.val * 1048576 + a.val * 32768 + b.val * 1024 + o.code < 4294967296; omega) rfl rfl
theorem tins (d : Reg) (a : Reg) (b : Reg) (o : Order) : Statement (.tins d a b o) := of_word (by have h0 := d.isLt; have h1 := a.isLt; have h2 := b.isLt; have h3 := code_lt_order o; show 2181038080 + d.val * 1048576 + a.val * 32768 + b.val * 1024 + o.code < 4294967296; omega) rfl rfl
theorem tevict (d : Reg) (a : Reg) (b : Reg) (o : Order) : Statement (.tevict d a b o) := of_word (by have h0 := d.isLt; have h1 := a.isLt; have h2 := b.isLt; have h3 := code_lt_order o; show 2214592512 + d.val * 1048576 + a.val * 32768 + b.val * 1024 + o.code < 4294967296; omega) rfl rfl
theorem bari (a : Reg) (b : Reg) (o : Order) : Statement (.bari a b o) := of_word (by have h0 := a.isLt; have h1 := b.isLt; have h2 := code_lt_order o; show 2248146944 + a.val * 32768 + b.val * 1024 + o.code < 4294967296; omega) rfl rfl
theorem bara (d : Reg) (a : Reg) (o : Order) : Statement (.bara d a o) := of_word (by have h0 := d.isLt; have h1 := a.isLt; have h2 := code_lt_order o; show 2281701376 + d.val * 1048576 + a.val * 32768 + o.code < 4294967296; omega) rfl rfl
theorem barw (a : Reg) (b : Reg) (o : Order) : Statement (.barw a b o) := of_word (by have h0 := a.isLt; have h1 := b.isLt; have h2 := code_lt_order o; show 2315255808 + a.val * 32768 + b.val * 1024 + o.code < 4294967296; omega) rfl rfl
theorem tsb (d : Reg) (a : Reg) (b : Reg) (o : Order) : Statement (.tsb d a b o) := of_word (by have h0 := d.isLt; have h1 := a.isLt; have h2 := b.isLt; have h3 := code_lt_order o; show 2348810240 + d.val * 1048576 + a.val * 32768 + b.val * 1024 + o.code < 4294967296; omega) rfl rfl
theorem lrel (a : Reg) (o : Order) : Statement (.lrel a o) := of_word (by have h0 := a.isLt; have h1 := code_lt_order o; show 2382364672 + a.val * 32768 + o.code < 4294967296; omega) rfl rfl
theorem eqput (d : Reg) (a : Reg) (b : Reg) (k : Bool) (o : Order) : Statement (.eqput d a b k o) := of_word (by have h0 := d.isLt; have h1 := a.isLt; have h2 := b.isLt; have h3 := code_lt_bool k; have h4 := code_lt_order o; show 2415919104 + d.val * 1048576 + a.val * 32768 + b.val * 1024 + flagCode k * 64 + o.code < 4294967296; omega) rfl rfl
theorem eqget (d : Reg) (a : Reg) (b : Reg) (k : Bool) (o : Order) : Statement (.eqget d a b k o) := of_word (by have h0 := d.isLt; have h1 := a.isLt; have h2 := b.isLt; have h3 := code_lt_bool k; have h4 := code_lt_order o; show 2449473536 + d.val * 1048576 + a.val * 32768 + b.val * 1024 + flagCode k * 64 + o.code < 4294967296; omega) rfl rfl
theorem send (a : Reg) (b : Reg) (o : Order) : Statement (.send a b o) := of_word (by have h0 := a.isLt; have h1 := b.isLt; have h2 := code_lt_order o; show 2550136832 + a.val * 32768 + b.val * 1024 + o.code < 4294967296; omega) rfl rfl
theorem waitk (m : BitVec 8) : Statement (.waitk m) := of_word (by have h0 := m.isLt; show 2583691264 + m.toNat < 4294967296; omega) rfl rfl
theorem sbwait (m : BitVec 7) : Statement (.sbwait m) := of_word (by have h0 := m.isLt; show 2617245696 + m.toNat * 2 < 4294967296; omega) rfl rfl
theorem yield : Statement .yield := of_word (by decide) rfl rfl
theorem strgo (a : Reg) (b : Reg) : Statement (.strgo a b) := of_word (by have h0 := a.isLt; have h1 := b.isLt; show 2684354560 + a.val * 32768 + b.val * 1024 < 4294967296; omega) rfl rfl
theorem strhlt (a : Reg) : Statement (.strhlt a) := of_word (by have h0 := a.isLt; show 2717908992 + a.val * 32768 < 4294967296; omega) rfl rfl
theorem sleep : Statement .sleep := of_word (by decide) rfl rfl
theorem wake (a : Reg) : Statement (.wake a) := of_word (by have h0 := a.isLt; show 2785017856 + a.val * 32768 < 4294967296; omega) rfl rfl
theorem halloc (d : Reg) (a : Reg) (b : Reg) (o : Order) : Statement (.halloc d a b o) := of_word (by have h0 := d.isLt; have h1 := a.isLt; have h2 := b.isLt; have h3 := code_lt_order o; show 2818572288 + d.val * 1048576 + a.val * 32768 + b.val * 1024 + o.code < 4294967296; omega) rfl rfl
theorem hfree (h : Fin 128) (o : Order) : Statement (.hfree h o) := of_word (by have h0 := h.isLt; have h1 := code_lt_order o; show 2852126720 + h.val * 256 + o.code < 4294967296; omega) rfl rfl
theorem hset (h : Fin 128) (t : HState) (o : Order) : Statement (.hset h t o) := of_word (by have h0 := h.isLt; have h1 := code_lt_hstate t; have h2 := code_lt_order o; show 2885681152 + h.val * 256 + t.code * 64 + o.code < 4294967296; omega) rfl rfl
theorem hwait (h : Fin 128) (t : HState) (o : Order) : Statement (.hwait h t o) := of_word (by have h0 := h.isLt; have h1 := code_lt_hstate t; have h2 := code_lt_order o; show 2919235584 + h.val * 256 + t.code * 64 + o.code < 4294967296; omega) rfl rfl
theorem hstat (d : Reg) (h : Fin 128) (o : Order) : Statement (.hstat d h o) := of_word (by have h0 := d.isLt; have h1 := h.isLt; have h2 := code_lt_order o; show 2952790016 + d.val * 1048576 + h.val * 256 + o.code < 4294967296; omega) rfl rfl
theorem cpy (a : Reg) (o : Order) : Statement (.cpy a o) := of_word (by have h0 := a.isLt; have h1 := code_lt_order o; show 2986344448 + a.val * 32768 + o.code < 4294967296; omega) rfl rfl
theorem cpyt (a : Reg) (q : Fin 64) (o : Order) : Statement (.cpyt a q o) := of_word (by have h0 := a.isLt; have h1 := q.isLt; have h2 := code_lt_order o; show 3019898880 + a.val * 32768 + q.val * 512 + o.code < 4294967296; omega) rfl rfl
theorem cpyq (a : Reg) (q : Fin 64) (o : Order) : Statement (.cpyq a q o) := of_word (by have h0 := a.isLt; have h1 := q.isLt; have h2 := code_lt_order o; show 3053453312 + a.val * 32768 + q.val * 512 + o.code < 4294967296; omega) rfl rfl
theorem cpyc (a : Reg) (o : Order) : Statement (.cpyc a o) := of_word (by have h0 := a.isLt; have h1 := code_lt_order o; show 3087007744 + a.val * 32768 + o.code < 4294967296; omega) rfl rfl
theorem scfg (a : Reg) (e : Fin 8) (o : Order) : Statement (.scfg a e o) := of_word (by have h0 := a.isLt; have h1 := e.isLt; have h2 := code_lt_order o; show 3120562176 + a.val * 32768 + e.val * 1024 + o.code < 4294967296; omega) rfl rfl
theorem swin (a : Reg) (e : Fin 8) (o : Order) : Statement (.swin a e o) := of_word (by have h0 := a.isLt; have h1 := e.isLt; have h2 := code_lt_order o; show 3154116608 + a.val * 32768 + e.val * 1024 + o.code < 4294967296; omega) rfl rfl
theorem sgo (e : Fin 8) (o : Order) : Statement (.sgo e o) := of_word (by have h0 := e.isLt; have h1 := code_lt_order o; show 3187671040 + e.val * 1024 + o.code < 4294967296; omega) rfl rfl
theorem shalt (e : Fin 8) (o : Order) : Statement (.shalt e o) := of_word (by have h0 := e.isLt; have h1 := code_lt_order o; show 3221225472 + e.val * 1024 + o.code < 4294967296; omega) rfl rfl
theorem sstat (d : Reg) (e : Fin 8) (o : Order) : Statement (.sstat d e o) := of_word (by have h0 := d.isLt; have h1 := e.isLt; have h2 := code_lt_order o; show 3254779904 + d.val * 1048576 + e.val * 1024 + o.code < 4294967296; omega) rfl rfl
theorem gload (a : Reg) (t : TileSel) (o : Order) : Statement (.gload a t o) := of_word (by have h0 := a.isLt; have h1 := code_lt_tilesel t; have h2 := code_lt_order o; show 3288334336 + a.val * 32768 + t.code + o.code < 4294967296; omega) rfl rfl
theorem gcommit (o : Order) : Statement (.gcommit o) := of_word (by have h0 := code_lt_order o; show 3321888768 + o.code < 4294967296; omega) rfl rfl
theorem gsplice (a : Reg) (t : TileSel) (o : Order) : Statement (.gsplice a t o) := of_word (by have h0 := a.isLt; have h1 := code_lt_tilesel t; have h2 := code_lt_order o; show 3355443200 + a.val * 32768 + t.code + o.code < 4294967296; omega) rfl rfl
theorem grun (t : TileSel) (o : Order) : Statement (.grun t o) := of_word (by have h0 := code_lt_tilesel t; have h1 := code_lt_order o; show 3388997632 + t.code + o.code < 4294967296; omega) rfl rfl
theorem gfrz (t : TileSel) (o : Order) : Statement (.gfrz t o) := of_word (by have h0 := code_lt_tilesel t; have h1 := code_lt_order o; show 3422552064 + t.code + o.code < 4294967296; omega) rfl rfl
theorem gdrain (t : TileSel) (o : Order) : Statement (.gdrain t o) := of_word (by have h0 := code_lt_tilesel t; have h1 := code_lt_order o; show 3456106496 + t.code + o.code < 4294967296; omega) rfl rfl
theorem gsend (a : Reg) (b : Reg) (n : Fin 4) (o : Order) : Statement (.gsend a b n o) := of_word (by have h0 := a.isLt; have h1 := b.isLt; have h2 := n.isLt; have h3 := code_lt_order o; show 3489660928 + a.val * 32768 + b.val * 1024 + n.val * 64 + o.code < 4294967296; omega) rfl rfl
theorem grecv (d : Reg) (h : Bool) (n : Fin 4) (o : Order) : Statement (.grecv d h n o) := of_word (by have h0 := d.isLt; have h1 := code_lt_bool h; have h2 := n.isLt; have h3 := code_lt_order o; show 3523215360 + d.val * 1048576 + flagCode h * 256 + n.val * 64 + o.code < 4294967296; omega) rfl rfl
theorem gconst (a : Reg) (b : Reg) (o : Order) : Statement (.gconst a b o) := of_word (by have h0 := a.isLt; have h1 := b.isLt; have h2 := code_lt_order o; show 3556769792 + a.val * 32768 + b.val * 1024 + o.code < 4294967296; omega) rfl rfl
theorem gstat (d : Reg) (b : Reg) (o : Order) : Statement (.gstat d b o) := of_word (by have h0 := d.isLt; have h1 := b.isLt; have h2 := code_lt_order o; show 3590324224 + d.val * 1048576 + b.val * 1024 + o.code < 4294967296; omega) rfl rfl
theorem mxcfg (a : Reg) (o : Order) : Statement (.mxcfg a o) := of_word (by have h0 := a.isLt; have h1 := code_lt_order o; show 3623878656 + a.val * 32768 + o.code < 4294967296; omega) rfl rfl
theorem mxldb (a : Reg) (o : Order) : Statement (.mxldb a o) := of_word (by have h0 := a.isLt; have h1 := code_lt_order o; show 3657433088 + a.val * 32768 + o.code < 4294967296; omega) rfl rfl
theorem mxrot (o : Order) : Statement (.mxrot o) := of_word (by have h0 := code_lt_order o; show 3690987520 + o.code < 4294967296; omega) rfl rfl
theorem mxzero (a : Reg) (o : Order) : Statement (.mxzero a o) := of_word (by have h0 := a.isLt; have h1 := code_lt_order o; show 3724541952 + a.val * 32768 + o.code < 4294967296; omega) rfl rfl
theorem mxrd (a : Reg) (b : Reg) (t : Bool) (o : Order) : Statement (.mxrd a b t o) := of_word (by have h0 := a.isLt; have h1 := b.isLt; have h2 := code_lt_bool t; have h3 := code_lt_order o; show 3758096384 + a.val * 32768 + b.val * 1024 + flagCode t * 64 + o.code < 4294967296; omega) rfl rfl
theorem mxchk (d : Reg) (o : Order) : Statement (.mxchk d o) := of_word (by have h0 := d.isLt; have h1 := code_lt_order o; show 3791650816 + d.val * 1048576 + o.code < 4294967296; omega) rfl rfl
theorem tdone : Statement .tdone := of_word (by decide) rfl rfl
theorem tsig (a : Reg) (o : Order) : Statement (.tsig a o) := of_word (by have h0 := a.isLt; have h1 := code_lt_order o; show 3858759680 + a.val * 32768 + o.code < 4294967296; omega) rfl rfl
theorem ginst (d : Reg) (a : Reg) (b : Reg) : Statement (.ginst d a b) := of_word (by have h0 := d.isLt; have h1 := a.isLt; have h2 := b.isLt; show 3892314112 + d.val * 1048576 + a.val * 32768 + b.val * 1024 < 4294967296; omega) rfl rfl
theorem tstat (d : Reg) (a : Reg) : Statement (.tstat d a) := of_word (by have h0 := d.isLt; have h1 := a.isLt; show 3925868544 + d.val * 1048576 + a.val * 32768 < 4294967296; omega) rfl rfl
theorem tfail (c : BitVec 8) : Statement (.tfail c) := of_word (by have h0 := c.isLt; show 3959422976 + c.toNat < 4294967296; omega) rfl rfl
theorem xlt (d : Reg) (a : Reg) (o : Order) : Statement (.xlt d a o) := of_word (by have h0 := d.isLt; have h1 := a.isLt; have h2 := code_lt_order o; show 3992977408 + d.val * 1048576 + a.val * 32768 + o.code < 4294967296; omega) rfl rfl
theorem tlbi (a : Reg) (b : Reg) : Statement (.tlbi a b) := of_word (by have h0 := a.isLt; have h1 := b.isLt; show 4026531840 + a.val * 32768 + b.val * 1024 < 4294967296; omega) rfl rfl
theorem svc (n : BitVec 8) : Statement (.svc n) := of_word (by have h0 := n.isLt; show 4060086272 + n.toNat < 4294967296; omega) rfl rfl
theorem trap (n : BitVec 8) : Statement (.trap n) := of_word (by have h0 := n.isLt; show 4093640704 + n.toNat < 4294967296; omega) rfl rfl
theorem eret : Statement .eret := of_word (by decide) rfl rfl
theorem srd (d : Reg) (r : SysReg) : Statement (.srd d r) := of_word (by have h0 := d.isLt; have h1 := code_lt_sysreg r; show 4160749568 + d.val * 1048576 + r.code < 4294967296; omega) rfl rfl
theorem swr (a : Reg) (r : SysReg) : Statement (.swr a r) := of_word (by have h0 := a.isLt; have h1 := code_lt_sysreg r; show 4194304000 + a.val * 32768 + r.code < 4294967296; omega) rfl rfl
theorem halt : Statement .halt := of_word (by decide) rfl rfl
theorem brk (n : BitVec 8) : Statement (.brk n) := of_word (by have h0 := n.isLt; show 4261412864 + n.toNat < 4294967296; omega) rfl rfl
theorem gridNop (w : PeWord) : Statement (.gridNop w) := of_pe 0 w (by decide) rfl rfl rfl
theorem move (w : PeWord) : Statement (.move w) := of_pe 1 w (by decide) rfl rfl rfl
theorem dup (w : PeWord) : Statement (.dup w) := of_pe 2 w (by decide) rfl rfl rfl
theorem gridAdd (w : PeWord) : Statement (.gridAdd w) := of_pe 3 w (by decide) rfl rfl rfl
theorem gridSub (w : PeWord) : Statement (.gridSub w) := of_pe 4 w (by decide) rfl rfl rfl
theorem gridMul (w : PeWord) : Statement (.gridMul w) := of_pe 5 w (by decide) rfl rfl rfl
theorem fma (w : PeWord) : Statement (.fma w) := of_pe 6 w (by decide) rfl rfl rfl
theorem fms (w : PeWord) : Statement (.fms w) := of_pe 7 w (by decide) rfl rfl rfl
theorem gridMin (w : PeWord) : Statement (.gridMin w) := of_pe 8 w (by decide) rfl rfl rfl
theorem gridMax (w : PeWord) : Statement (.gridMax w) := of_pe 9 w (by decide) rfl rfl rfl
theorem abs (w : PeWord) : Statement (.abs w) := of_pe 10 w (by decide) rfl rfl rfl
theorem neg (w : PeWord) : Statement (.neg w) := of_pe 11 w (by decide) rfl rfl rfl
theorem gridCmp (w : PeWord) : Statement (.gridCmp w) := of_pe 12 w (by decide) rfl rfl rfl
theorem gridSel (w : PeWord) : Statement (.gridSel w) := of_pe 13 w (by decide) rfl rfl rfl
theorem gridAnd (w : PeWord) : Statement (.gridAnd w) := of_pe 14 w (by decide) rfl rfl rfl
theorem gridOr (w : PeWord) : Statement (.gridOr w) := of_pe 15 w (by decide) rfl rfl rfl
theorem gridXor (w : PeWord) : Statement (.gridXor w) := of_pe 16 w (by decide) rfl rfl rfl
theorem not (w : PeWord) : Statement (.not w) := of_pe 17 w (by decide) rfl rfl rfl
theorem gridShl (w : PeWord) : Statement (.gridShl w) := of_pe 18 w (by decide) rfl rfl rfl
theorem gridShr (w : PeWord) : Statement (.gridShr w) := of_pe 19 w (by decide) rfl rfl rfl
theorem gridSra (w : PeWord) : Statement (.gridSra w) := of_pe 20 w (by decide) rfl rfl rfl
theorem cvt (w : PeWord) : Statement (.cvt w) := of_pe 21 w (by decide) rfl rfl rfl
theorem cvts (w : PeWord) : Statement (.cvts w) := of_pe 22 w (by decide) rfl rfl rfl
theorem exp2 (w : PeWord) : Statement (.exp2 w) := of_pe 23 w (by decide) rfl rfl rfl
theorem log2 (w : PeWord) : Statement (.log2 w) := of_pe 24 w (by decide) rfl rfl rfl
theorem rcp (w : PeWord) : Statement (.rcp w) := of_pe 25 w (by decide) rfl rfl rfl
theorem rsq (w : PeWord) : Statement (.rsq w) := of_pe 26 w (by decide) rfl rfl rfl
theorem red (w : PeWord) : Statement (.red w) := of_pe 27 w (by decide) rfl rfl rfl
theorem bcst (w : PeWord) : Statement (.bcst w) := of_pe 28 w (by decide) rfl rfl rfl
theorem shuf (w : PeWord) : Statement (.shuf w) := of_pe 29 w (by decide) rfl rfl rfl
theorem tag (w : PeWord) : Statement (.tag w) := of_pe 30 w (by decide) rfl rfl rfl
theorem steer (w : PeWord) : Statement (.steer w) := of_pe 31 w (by decide) rfl rfl rfl
theorem merge (w : PeWord) : Statement (.merge w) := of_pe 32 w (by decide) rfl rfl rfl
theorem lgen (w : PeWord) : Statement (.lgen w) := of_pe 33 w (by decide) rfl rfl rfl
theorem cnt (w : PeWord) : Statement (.cnt w) := of_pe 34 w (by decide) rfl rfl rfl
theorem rand (w : PeWord) : Statement (.rand w) := of_pe 35 w (by decide) rfl rfl rfl
theorem randSeed (w : PeWord) : Statement (.randSeed w) := of_pe 35 w (by decide) rfl rfl rfl
theorem mld (w : PeWord) : Statement (.mld w) := of_pe 36 w (by decide) rfl rfl rfl
theorem mst (w : PeWord) : Statement (.mst w) := of_pe 37 w (by decide) rfl rfl rfl
theorem mamo (w : PeWord) : Statement (.mamo w) := of_pe 38 w (by decide) rfl rfl rfl
theorem mtas (w : PeWord) : Statement (.mtas w) := of_pe 39 w (by decide) rfl rfl rfl
theorem xltn (w : PeWord) : Statement (.xltn w) := of_pe 40 w (by decide) rfl rfl rfl
theorem barn (w : PeWord) : Statement (.barn w) := of_pe 41 w (by decide) rfl rfl rfl
theorem endk (w : PeWord) : Statement (.endk w) := of_pe 42 w (by decide) rfl rfl rfl
theorem gets (p : Packet) : Statement (.gets p) := of_zero rfl rfl rfl
theorem getx (p : Packet) : Statement (.getx p) := of_zero rfl rfl rfl
theorem tokd (p : Packet) : Statement (.tokd p) := of_zero rfl rfl rfl
theorem tokn (p : Packet) : Statement (.tokn p) := of_zero rfl rfl rfl
theorem refuse (p : Packet) : Statement (.refuse p) := of_zero rfl rfl rfl
theorem ticket (p : Packet) : Statement (.ticket p) := of_zero rfl rfl rfl
theorem grant (p : Packet) : Statement (.grant p) := of_zero rfl rfl rfl
theorem preq (p : Packet) : Statement (.preq p) := of_zero rfl rfl rfl
theorem pact (p : Packet) : Statement (.pact p) := of_zero rfl rfl rfl
theorem pdeact (p : Packet) : Statement (.pdeact p) := of_zero rfl rfl rfl
theorem pack (p : Packet) : Statement (.pack p) := of_zero rfl rfl rfl
theorem pdone (p : Packet) : Statement (.pdone p) := of_zero rfl rfl rfl
theorem ucrd (p : Packet) : Statement (.ucrd p) := of_zero rfl rfl rfl
theorem ucwr (p : Packet) : Statement (.ucwr p) := of_zero rfl rfl rfl
theorem ucrsp (p : Packet) : Statement (.ucrsp p) := of_zero rfl rfl rfl
theorem mtop (p : Packet) : Statement (.mtop p) := of_zero rfl rfl rfl
theorem mtrsp (p : Packet) : Statement (.mtrsp p) := of_zero rfl rfl rfl
theorem sct (p : Packet) : Statement (.sct p) := of_zero rfl rfl rfl
theorem nack (p : Packet) : Statement (.nack p) := of_zero rfl rfl rfl
theorem unknownPacket (opc : Nat) (reserved : Nat) (p : Packet) : Statement (.unknownPacket opc reserved p) := of_zero rfl rfl rfl
theorem decrement (die : Nat) (m : DecrMsg) : Statement (.decrement die m) := of_zero rfl rfl rfl
theorem forwardDecrement (die : Nat) (m : DecrMsg) : Statement (.forwardDecrement die m) := of_zero rfl rfl rfl
theorem abortMessage (die : Nat) (m : DecrMsg) : Statement (.abortMessage die m) := of_zero rfl rfl rfl
theorem acknowledgement (die : Nat) (m : DecrMsg) : Statement (.acknowledgement die m) := of_zero rfl rfl rfl
theorem malformedDecrementMessage (p : Packet) (w0 : Word) (w1 : Word) : Statement (.malformedDecrementMessage p w0 w1) := of_zero rfl rfl rfl
theorem hostNop (c : Cmd) : Statement (.hostNop c) := of_zero rfl rfl rfl
theorem reservedCommand (opc : BitVec 8) (c : Cmd) : Statement (.reservedCommand opc c) := of_zero rfl rfl rfl
theorem rdinv (c : Cmd) : Statement (.rdinv c) := of_zero rfl rfl rfl
theorem rdlog (c : Cmd) : Statement (.rdlog c) := of_zero rfl rfl rfl
theorem ldmq (c : Cmd) : Statement (.ldmq c) := of_zero rfl rfl rfl
theorem inst (c : Cmd) : Statement (.inst c) := of_zero rfl rfl rfl
theorem rsvi (c : Cmd) : Statement (.rsvi c) := of_zero rfl rfl rfl
theorem kill (c : Cmd) : Statement (.kill c) := of_zero rfl rfl rfl
theorem freeze (c : Cmd) : Statement (.freeze c) := of_zero rfl rfl rfl
theorem setqw (c : Cmd) : Statement (.setqw c) := of_zero rfl rfl rfl
theorem setctx (c : Cmd) : Statement (.setctx c) := of_zero rfl rfl rfl
theorem setkey (c : Cmd) : Statement (.setkey c) := of_zero rfl rfl rfl
theorem hostTlbi (c : Cmd) : Statement (.hostTlbi c) := of_zero rfl rfl rfl
theorem pans (c : Cmd) : Statement (.pans c) := of_zero rfl rfl rfl
theorem mtasn (c : Cmd) : Statement (.mtasn c) := of_zero rfl rfl rfl
theorem fpool (c : Cmd) : Statement (.fpool c) := of_zero rfl rfl rfl
theorem offline (c : Cmd) : Statement (.offline c) := of_zero rfl rfl rfl
theorem pwrcap (c : Cmd) : Statement (.pwrcap c) := of_zero rfl rfl rfl
theorem setid (c : Cmd) : Statement (.setid c) := of_zero rfl rfl rfl
theorem admitDevice (c : Cmd) : Statement (.admitDevice c) := of_zero rfl rfl rfl
theorem dismiss (c : Cmd) : Statement (.dismiss c) := of_zero rfl rfl rfl
theorem rdcnt (c : Cmd) : Statement (.rdcnt c) := of_zero rfl rfl rfl
theorem bpool (c : Cmd) : Statement (.bpool c) := of_zero rfl rfl rfl
theorem rdpat (c : Cmd) : Statement (.rdpat c) := of_zero rfl rfl rfl
theorem rdpub (c : Cmd) : Statement (.rdpub c) := of_zero rfl rfl rfl
theorem rdsns (c : Cmd) : Statement (.rdsns c) := of_zero rfl rfl rfl
theorem rdwlog (c : Cmd) : Statement (.rdwlog c) := of_zero rfl rfl rfl
theorem fwstage (c : Cmd) : Statement (.fwstage c) := of_zero rfl rfl rfl
theorem fwcommit (c : Cmd) : Statement (.fwcommit c) := of_zero rfl rfl rfl
theorem rdacc (c : Cmd) : Statement (.rdacc c) := of_zero rfl rfl rfl
theorem fetchFault : Statement .fetchFault := of_zero rfl rfl rfl
theorem impreciseTrap (k : Nat) : Statement (.impreciseTrap k) := of_zero rfl rfl rfl
theorem continuationMessageArrival (k : Nat) : Statement (.continuationMessageArrival k) := of_zero rfl rfl rfl
theorem barnArrival (die : Nat) (site : Nat) (pe : Nat) (slot : Nat) : Statement (.barnArrival die site pe slot) := of_zero rfl rfl rfl
theorem delayedResult (die : Nat) (site : Nat) (k : Nat) : Statement (.delayedResult die site k) := of_zero rfl rfl rfl
theorem routeWordArrival (die : Nat) (site : Nat) (k : Nat) : Statement (.routeWordArrival die site k) := of_zero rfl rfl rfl
theorem pePlaneSwitch (die : Nat) (site : Nat) (pe : Nat) : Statement (.pePlaneSwitch die site pe) := of_zero rfl rfl rfl
theorem configLoadComplete (die : Nat) (site : Nat) : Statement (.configLoadComplete die site) := of_zero rfl rfl rfl
theorem islandBeat (die : Nat) (site : Nat) (upset : Nat) : Statement (.islandBeat die site upset) := of_zero rfl rfl rfl
theorem latchFillStart (die : Nat) (site : Nat) : Statement (.latchFillStart die site) := of_zero rfl rfl rfl
theorem latchFillComplete (die : Nat) (site : Nat) : Statement (.latchFillComplete die site) := of_zero rfl rfl rfl
theorem engineWrite (die : Nat) (site : Nat) (job : Nat) : Statement (.engineWrite die site job) := of_zero rfl rfl rfl
theorem engineConsumerStart (die : Nat) (site : Nat) (job : Nat) : Statement (.engineConsumerStart die site job) := of_zero rfl rfl rfl
theorem engineConsumerEnd (die : Nat) (site : Nat) (job : Nat) : Statement (.engineConsumerEnd die site job) := of_zero rfl rfl rfl
theorem tokenFire (die : Nat) (site : Nat) (queue : Nat) : Statement (.tokenFire die site queue) := of_zero rfl rfl rfl
theorem copyCompletion (die : Nat) (site : Nat) (job : Nat) : Statement (.copyCompletion die site job) := of_zero rfl rfl rfl
theorem streamElement (die : Nat) (site : Nat) (engine : Nat) : Statement (.streamElement die site engine) := of_zero rfl rfl rfl
theorem streamRunEnd (die : Nat) (site : Nat) (engine : Nat) : Statement (.streamRunEnd die site engine) := of_zero rfl rfl rfl
theorem placementPass (die : Nat) : Statement (.placementPass die) := of_zero rfl rfl rfl
theorem stagingAccepted (die : Nat) (rec : Nat) : Statement (.stagingAccepted die rec) := of_zero rfl rfl rfl
theorem taskRunnable (die : Nat) (rec : Nat) : Statement (.taskRunnable die rec) := of_zero rfl rfl rfl
theorem taskStart (die : Nat) (rec : Nat) : Statement (.taskStart die rec) := of_zero rfl rfl rfl
theorem taskRetirement (die : Nat) (rec : Nat) : Statement (.taskRetirement die rec) := of_zero rfl rfl rfl
theorem freezeSaveComplete (die : Nat) (rec : Nat) : Statement (.freezeSaveComplete die rec) := of_zero rfl rfl rfl
theorem restoreComplete (die : Nat) (rec : Nat) : Statement (.restoreComplete die rec) := of_zero rfl rfl rfl
theorem decrementResend (die : Nat) (k : Nat) : Statement (.decrementResend die k) := of_zero rfl rfl rfl
theorem linklost (die : Nat) (k : Nat) : Statement (.linklost die k) := of_zero rfl rfl rfl
theorem dispatcherWindowWrite (die : Nat) (r : UaReq) : Statement (.dispatcherWindowWrite die r) := of_zero rfl rfl rfl
theorem transientTimeout (die : Nat) (line : Nat) : Statement (.transientTimeout die line) := of_zero rfl rfl rfl
theorem persistentPoisonTimeout (line : Nat) : Statement (.persistentPoisonTimeout line) := of_zero rfl rfl rfl
theorem sclost : Statement .sclost := of_zero rfl rfl rfl
theorem dieCacheEviction (die : Nat) (line : Nat) : Statement (.dieCacheEviction die line) := of_zero rfl rfl rfl
theorem waiterRetry (k : Nat) : Statement (.waiterRetry k) := of_zero rfl rfl rfl
theorem walkCompletion (k : Nat) : Statement (.walkCompletion k) := of_zero rfl rfl rfl
theorem remoteWriteDrain (die : Nat) (k : Nat) : Statement (.remoteWriteDrain die k) := of_zero rfl rfl rfl
theorem remoteWriteAck (die : Nat) (k : Nat) (error : Bool) : Statement (.remoteWriteAck die k error) := of_zero rfl rfl rfl
theorem ualinkRequest (r : UaReq) : Statement (.ualinkRequest r) := of_zero rfl rfl rfl
theorem ualinkResponse (r : UaRsp) : Statement (.ualinkResponse r) := of_zero rfl rfl rfl
theorem ualinkPortDown (port : Nat) : Statement (.ualinkPortDown port) := of_zero rfl rfl rfl
theorem ualinkPortUp (port : Nat) : Statement (.ualinkPortUp port) := of_zero rfl rfl rfl
theorem golfyReply (k : Nat) : Statement (.golfyReply k) := of_zero rfl rfl rfl
theorem golfyLinkDown : Statement .golfyLinkDown := of_zero rfl rfl rfl
theorem golfyLinkUp : Statement .golfyLinkUp := of_zero rfl rfl rfl
theorem doorbell (tail : Nat) : Statement (.doorbell tail) := of_zero rfl rfl rfl
theorem completionHead (head : Nat) : Statement (.completionHead head) := of_zero rfl rfl rfl
theorem sensorSample (x : SensorInput) : Statement (.sensorSample x) := of_zero rfl rfl rfl
theorem attributionInterval (x : List RailInput) : Statement (.attributionInterval x) := of_zero rfl rfl rfl
theorem checkpoint (made : Bool) (cycles : Nat) : Statement (.checkpoint made cycles) := of_zero rfl rfl rfl
theorem bundleSign : Statement .bundleSign := of_zero rfl rfl rfl
theorem boot (x : BootInput) : Statement (.boot x) := of_zero rfl rfl rfl
theorem alwaysOnPowerLoss : Statement .alwaysOnPowerLoss := of_zero rfl rfl rfl
theorem eccError (place : EccPlace) (double : Bool) : Statement (.eccError place double) := of_zero rfl rfl rfl
theorem scrubPass (line : Nat) : Statement (.scrubPass line) := of_zero rfl rfl rfl
theorem schedulerStateError (place : SchedPlace) : Statement (.schedulerStateError place) := of_zero rfl rfl rfl
theorem dieFailure (node : Nat) : Statement (.dieFailure node) := of_zero rfl rfl rfl
theorem dieCacheAccess (die : Nat) (k : Nat) : Statement (.dieCacheAccess die k) := of_zero rfl rfl rfl
theorem computeTileLostInService (die : Nat) (site : Nat) : Statement (.computeTileLostInService die site) := of_zero rfl rfl rfl

end Sys2Proof.Laws.Encoding
end

