-- ==== Sys2Proof/Laws/Tables.lean ====
section
/-! SUPPORT. Laws of the sparse tables, vectors, lists and byte memories: a read after a write, and the canonical form. -/
namespace Sys2Proof.Machine

theorem tget_tput {α : Type} (t : Tbl α) (i j : Nat) (v : α) : tget (tput t i v) j = if j = i then some v else tget t j := by
  induction t with
  | nil => simp [tput, tget]
  | cons h t ih =>
    obtain ⟨k, w⟩ := h
    simp only [tput]
    split
    · simp only [tget]
    · split
      · subst_vars; simp only [tget]; split <;> rfl
      · simp only [tget, ih]
        split
        · subst_vars; rw [if_neg (by omega)]
        · rfl

@[simp] theorem tget_tput_self {α : Type} (t : Tbl α) (i : Nat) (v : α) : tget (tput t i v) i = some v := by simp [tget_tput]
theorem tget_tput_of_ne {α : Type} {t : Tbl α} {i j : Nat} {v : α} (h : j ≠ i) : tget (tput t i v) j = tget t j := by simp [tget_tput, h]
@[simp] theorem tgetD_tput_self {α : Type} (t : Tbl α) (i : Nat) (v d : α) : tgetD (tput t i v) i d = v := by simp [tgetD]
theorem tgetD_tput_of_ne {α : Type} {t : Tbl α} {i j : Nat} {v d : α} (h : j ≠ i) : tgetD (tput t i v) j d = tgetD t j d := by
  simp [tgetD, tget_tput_of_ne h]

theorem tget_mem {α : Type} {t : Tbl α} {i : Nat} {v : α} (h : tget t i = some v) : (i, v) ∈ t := by
  induction t with
  | nil => simp [tget] at h
  | cons e t ih =>
    obtain ⟨k, w⟩ := e
    simp only [tget] at h
    split at h
    · rename_i hk
      simp_all
    · exact List.mem_cons_of_mem _ (ih h)

theorem tget_tdel {α : Type} (t : Tbl α) (i j : Nat) : tget (tdel t i) j = if j = i then none else tget t j := by
  induction t with
  | nil => simp [tdel, tget]
  | cons h t ih =>
    obtain ⟨k, w⟩ := h
    by_cases e : i = k
    · subst e; simp only [tdel, if_pos, ih, tget]; split <;> rfl
    · simp only [tdel, if_neg e, tget, ih]
      by_cases f : j = k
      · subst f; simp [Ne.symm e]
      · simp [f]

@[simp] theorem tget_tdel_self {α : Type} (t : Tbl α) (i : Nat) : tget (tdel t i) i = none := by simp [tget_tdel]
theorem tget_tdel_of_ne {α : Type} {t : Tbl α} {i j : Nat} (h : j ≠ i) : tget (tdel t i) j = tget t j := by simp [tget_tdel, h]

@[simp] theorem vget_vset_self {α : Type} {n : Nat} (v : Vector α (n + 1)) (i : Nat) (x : α) : vget (vset v i x) i = x := by
  simp [vget, vset]
theorem vget_vset {α : Type} {n : Nat} (v : Vector α (n + 1)) (i j : Nat) (x : α) :
    vget (vset v i x) j = if j % (n + 1) = i % (n + 1) then x else vget v j := by
  simp only [vget, vset, Vector.getElem_set]; split <;> split <;> simp_all
theorem vget_vset_of_ne {α : Type} {n : Nat} {v : Vector α (n + 1)} {i j : Nat} {x : α} (h : j % (n + 1) ≠ i % (n + 1)) :
    vget (vset v i x) j = vget v j := by simp [vget_vset, h]

/-! ### Byte memories -/

theorem mget_mput (m : Memory) (a x : Nat) (b : Byte) : mget (mput m a b) x = if x = a then b else mget m x := by
  simp only [mget, mput]
  split
  · subst_vars; simp only [tgetD, tget_tdel]; split <;> simp
  · simp only [tgetD, tget_tput]; split <;> simp

theorem mget_mputs (bs : List Byte) : ∀ (m : Memory) (a x : Nat),
    mget (mputs m a bs) x = if a ≤ x ∧ x < a + bs.length then bs.getD (x - a) 0 else mget m x := by
  induction bs with
  | nil => intro m a x; simp only [mputs, List.length_nil]; rw [if_neg (by omega)]
  | cons b t ih =>
    intro m a x
    simp only [mputs, ih, mget_mput, List.length_cons]
    by_cases h : x = a
    · subst h; rw [if_neg (by omega), if_pos (by omega)]; simp
    · by_cases g : a + 1 ≤ x ∧ x < a + 1 + t.length
      · rw [if_pos g, if_pos (by omega)]
        have : x - a = (x - (a + 1)) + 1 := by omega
        rw [this]; simp
      · rw [if_neg g, if_neg h, if_neg (by omega)]

/-- A byte outside the ones that a write covers reads as before. -/
theorem mget_mputs_outside {m : Memory} {a x : Nat} {bs : List Byte} (h : x < a ∨ a + bs.length ≤ x) : mget (mputs m a bs) x = mget m x := by
  rw [mget_mputs, if_neg (by omega)]

@[simp] theorem toBytes_length (v n : Nat) : (toBytes v n).length = n := by
  induction n generalizing v with
  | zero => rfl
  | succ n ih => simp [toBytes, ih]

theorem mget_mwrite_outside {m : Memory} {a n v x : Nat} (h : x < a ∨ a + n ≤ x) : mget (mwrite m a n v) x = mget m x :=
  mget_mputs_outside (by simpa using h)

/-! ### The canonical form -/

/-- The keys of a table rise strictly, as a proposition. -/
def Rising {α : Type} (t : Tbl α) : Prop := t.Pairwise fun a b => a.1 < b.1

theorem rising_iff {α : Type} (t : Tbl α) : rising t = true ↔ Rising t := by
  induction t with
  | nil => simp [rising, Rising]
  | cons h t ih =>
    obtain ⟨a, v⟩ := h
    cases t with
    | nil => simp [rising, Rising]
    | cons g t =>
      obtain ⟨b, w⟩ := g
      simp only [rising, Bool.and_eq_true, decide_eq_true_eq, ih, Rising, List.pairwise_cons]
      constructor
      · rintro ⟨hab, hb, ht⟩
        refine ⟨?_, hb, ht⟩
        intro x hx
        rcases List.mem_cons.1 hx with rfl | hx
        · exact hab
        · exact Nat.lt_trans hab (hb x hx)
      · rintro ⟨ha, hb, ht⟩
        exact ⟨ha (b, w) (by simp), hb, ht⟩

theorem tput_mem {α : Type} {t : Tbl α} {i : Nat} {v : α} {e : Nat × α} (h : e ∈ tput t i v) : e = (i, v) ∨ e ∈ t := by
  induction t with
  | nil => simp [tput] at h; exact .inl h
  | cons g t ih =>
    obtain ⟨k, w⟩ := g
    simp only [tput] at h
    split at h
    · rcases List.mem_cons.1 h with h | h
      · exact .inl h
      · exact .inr h
    · split at h
      · rcases List.mem_cons.1 h with h | h
        · exact .inl h
        · exact .inr (List.mem_cons_of_mem _ h)
      · rcases List.mem_cons.1 h with h | h
        · exact .inr (by simp [h])
        · rcases ih h with h | h
          · exact .inl h
          · exact .inr (List.mem_cons_of_mem _ h)

theorem tdel_mem {α : Type} {t : Tbl α} {i : Nat} {e : Nat × α} (h : e ∈ tdel t i) : e ∈ t := by
  induction t with
  | nil => simp [tdel] at h
  | cons g t ih =>
    obtain ⟨k, w⟩ := g
    simp only [tdel] at h
    split at h
    · exact List.mem_cons_of_mem _ (ih h)
    · rcases List.mem_cons.1 h with h | h
      · simp [h]
      · exact List.mem_cons_of_mem _ (ih h)

theorem Rising.tput {α : Type} {t : Tbl α} (h : Rising t) (i : Nat) (v : α) : Rising (Machine.tput t i v) := by
  induction t with
  | nil => simp [Machine.tput, Rising]
  | cons g t ih =>
    obtain ⟨k, w⟩ := g
    have ⟨hk, ht⟩ := List.pairwise_cons.1 h
    simp only [Machine.tput]
    split
    · refine List.pairwise_cons.2 ⟨?_, h⟩
      intro x hx
      rcases List.mem_cons.1 hx with rfl | hx
      · assumption
      · exact Nat.lt_trans ‹i < k› (hk x hx)
    · split
      · subst_vars; exact List.pairwise_cons.2 ⟨hk, ht⟩
      · refine List.pairwise_cons.2 ⟨?_, ih ht⟩
        intro x hx
        rcases tput_mem hx with rfl | hx
        · show k < i; omega
        · exact hk x hx

theorem Rising.tdel {α : Type} {t : Tbl α} (h : Rising t) (i : Nat) : Rising (Machine.tdel t i) := by
  induction t with
  | nil => exact h
  | cons g t ih =>
    obtain ⟨k, w⟩ := g
    have ⟨hk, ht⟩ := List.pairwise_cons.1 h
    simp only [Machine.tdel]
    split
    · exact ih ht
    · exact List.pairwise_cons.2 ⟨fun x hx => hk x (tdel_mem hx), ih ht⟩

theorem memory_wf_iff (m : Memory) : m.wf = true ↔ Rising m ∧ ∀ c ∈ m, c.2 ≠ 0 := by
  simp [Memory.wf, rising_iff]

/-- A write of one byte keeps the canonical form. -/
theorem mput_wf {m : Memory} (h : m.wf = true) (a : Nat) (b : Byte) : (mput m a b).wf = true := by
  rw [memory_wf_iff] at h ⊢
  simp only [mput]
  split
  · exact ⟨h.1.tdel a, fun c hc => h.2 c (tdel_mem hc)⟩
  · refine ⟨h.1.tput a b, fun c hc => ?_⟩
    rcases tput_mem hc with rfl | hc
    · assumption
    · exact h.2 c hc

/-- A write of bytes keeps the canonical form. -/
theorem mputs_wf (bs : List Byte) : ∀ {m : Memory} (_ : m.wf = true) (a : Nat), (mputs m a bs).wf = true := by
  induction bs with
  | nil => intro m h a; exact h
  | cons b t ih => intro m h a; exact ih (mput_wf h a b) (a + 1)

/-- A write of a number keeps the canonical form. -/
theorem mwrite_wf {m : Memory} (h : m.wf = true) (a n v : Nat) : (mwrite m a n v).wf = true := mputs_wf _ h a

end Sys2Proof.Machine
end

