-- ==== Sys2Proof/Laws/State.lean ====
section
/-! SUPPORT. What each named update of the state does to each of its fields, and what a read after an update gives. -/
namespace Sys2Proof.Machine

variable (s : State)

@[simp] theorem State.setTile_cur (d n : Nat) (x : Tile) : (s.setTile d n x).cur = s.cur := rfl
@[simp] theorem State.setTile_agenda (d n : Nat) (x : Tile) : (s.setTile d n x).agenda = s.agenda := rfl
@[simp] theorem State.setTile_freeCtr (d n : Nat) (x : Tile) : (s.setTile d n x).freeCtr = s.freeCtr := rfl
@[simp] theorem State.setTile_nextId (d n : Nat) (x : Tile) : (s.setTile d n x).nextId = s.nextId := rfl
@[simp] theorem State.setTile_tiles (d n : Nat) (x : Tile) : (s.setTile d n x).tiles = tput s.tiles (tileKey d n) x := rfl
@[simp] theorem State.setTile_dies (d n : Nat) (x : Tile) : (s.setTile d n x).dies = s.dies := rfl
@[simp] theorem State.setTile_access (d n : Nat) (x : Tile) : (s.setTile d n x).access = s.access := rfl
@[simp] theorem State.setTile_reports (d n : Nat) (x : Tile) : (s.setTile d n x).reports = s.reports := rfl
@[simp] theorem State.setTile_messages (d n : Nat) (x : Tile) : (s.setTile d n x).messages = s.messages := rfl
@[simp] theorem State.setTile_net (d n : Nat) (x : Tile) : (s.setTile d n x).net = s.net := rfl
@[simp] theorem State.setTile_hbm (d n : Nat) (x : Tile) : (s.setTile d n x).hbm = s.hbm := rfl
@[simp] theorem State.setTile_homes (d n : Nat) (x : Tile) : (s.setTile d n x).homes = s.homes := rfl
@[simp] theorem State.setTile_sliceLines (d n : Nat) (x : Tile) : (s.setTile d n x).sliceLines = s.sliceLines := rfl
@[simp] theorem State.setTile_walks (d n : Nat) (x : Tile) : (s.setTile d n x).walks = s.walks := rfl
@[simp] theorem State.setTile_trackers (d n : Nat) (x : Tile) : (s.setTile d n x).trackers = s.trackers := rfl
@[simp] theorem State.setTile_tickets (d n : Nat) (x : Tile) : (s.setTile d n x).tickets = s.tickets := rfl
@[simp] theorem State.setTile_persistent (d n : Nat) (x : Tile) : (s.setTile d n x).persistent = s.persistent := rfl
@[simp] theorem State.setTile_epochs (d n : Nat) (x : Tile) : (s.setTile d n x).epochs = s.epochs := rfl
@[simp] theorem State.setTile_homeMap (d n : Nat) (x : Tile) : (s.setTile d n x).homeMap = s.homeMap := rfl
@[simp] theorem State.setTile_keys (d n : Nat) (x : Tile) : (s.setTile d n x).keys = s.keys := rfl
@[simp] theorem State.setTile_contexts (d n : Nat) (x : Tile) : (s.setTile d n x).contexts = s.contexts := rfl
@[simp] theorem State.setTile_window (d n : Nat) (x : Tile) : (s.setTile d n x).window = s.window := rfl
@[simp] theorem State.setTile_windowWait (d n : Nat) (x : Tile) : (s.setTile d n x).windowWait = s.windowWait := rfl
@[simp] theorem State.setTile_windowOwner (d n : Nat) (x : Tile) : (s.setTile d n x).windowOwner = s.windowOwner := rfl
@[simp] theorem State.setTile_windowDies (d n : Nat) (x : Tile) : (s.setTile d n x).windowDies = s.windowDies := rfl
@[simp] theorem State.setTile_scLap (d n : Nat) (x : Tile) : (s.setTile d n x).scLap = s.scLap := rfl
@[simp] theorem State.setTile_scAt (d n : Nat) (x : Tile) : (s.setTile d n x).scAt = s.scAt := rfl
@[simp] theorem State.setTile_scFresh (d n : Nat) (x : Tile) : (s.setTile d n x).scFresh = s.scFresh := rfl
@[simp] theorem State.setTile_scQueue (d n : Nat) (x : Tile) : (s.setTile d n x).scQueue = s.scQueue := rfl
@[simp] theorem State.setTile_scInput (d n : Nat) (x : Tile) : (s.setTile d n x).scInput = s.scInput := rfl
@[simp] theorem State.setTile_tilePorts (d n : Nat) (x : Tile) : (s.setTile d n x).tilePorts = s.tilePorts := rfl
@[simp] theorem State.setTile_bankTurn (d n : Nat) (x : Tile) : (s.setTile d n x).bankTurn = s.bankTurn := rfl
@[simp] theorem State.setTile_homeWait (d n : Nat) (x : Tile) : (s.setTile d n x).homeWait = s.homeWait := rfl
@[simp] theorem State.setTile_weights (d n : Nat) (x : Tile) : (s.setTile d n x).weights = s.weights := rfl
@[simp] theorem State.setTile_insts (d n : Nat) (x : Tile) : (s.setTile d n x).insts = s.insts := rfl
@[simp] theorem State.setTile_lastInst (d n : Nat) (x : Tile) : (s.setTile d n x).lastInst = s.lastInst := rfl
@[simp] theorem State.setTile_pools (d n : Nat) (x : Tile) : (s.setTile d n x).pools = s.pools := rfl
@[simp] theorem State.setTile_freezePool (d n : Nat) (x : Tile) : (s.setTile d n x).freezePool = s.freezePool := rfl
@[simp] theorem State.setTile_uaOut (d n : Nat) (x : Tile) : (s.setTile d n x).uaOut = s.uaOut := rfl
@[simp] theorem State.setTile_peerAnswer (d n : Nat) (x : Tile) : (s.setTile d n x).peerAnswer = s.peerAnswer := rfl
@[simp] theorem State.setTile_peerReqs (d n : Nat) (x : Tile) : (s.setTile d n x).peerReqs = s.peerReqs := rfl
@[simp] theorem State.setTile_uaSeen (d n : Nat) (x : Tile) : (s.setTile d n x).uaSeen = s.uaSeen := rfl
@[simp] theorem State.setTile_hostMem (d n : Nat) (x : Tile) : (s.setTile d n x).hostMem = s.hostMem := rfl
@[simp] theorem State.setTile_plinth (d n : Nat) (x : Tile) : (s.setTile d n x).plinth = s.plinth := rfl

@[simp] theorem State.modTile_cur (d n : Nat) (f : Tile → Tile) : (s.modTile d n f).cur = s.cur := rfl
@[simp] theorem State.modTile_agenda (d n : Nat) (f : Tile → Tile) : (s.modTile d n f).agenda = s.agenda := rfl
@[simp] theorem State.modTile_freeCtr (d n : Nat) (f : Tile → Tile) : (s.modTile d n f).freeCtr = s.freeCtr := rfl
@[simp] theorem State.modTile_nextId (d n : Nat) (f : Tile → Tile) : (s.modTile d n f).nextId = s.nextId := rfl
@[simp] theorem State.modTile_tiles (d n : Nat) (f : Tile → Tile) : (s.modTile d n f).tiles = tput s.tiles (tileKey d n) (f (s.tile d n)) := rfl
@[simp] theorem State.modTile_dies (d n : Nat) (f : Tile → Tile) : (s.modTile d n f).dies = s.dies := rfl
@[simp] theorem State.modTile_access (d n : Nat) (f : Tile → Tile) : (s.modTile d n f).access = s.access := rfl
@[simp] theorem State.modTile_reports (d n : Nat) (f : Tile → Tile) : (s.modTile d n f).reports = s.reports := rfl
@[simp] theorem State.modTile_messages (d n : Nat) (f : Tile → Tile) : (s.modTile d n f).messages = s.messages := rfl
@[simp] theorem State.modTile_net (d n : Nat) (f : Tile → Tile) : (s.modTile d n f).net = s.net := rfl
@[simp] theorem State.modTile_hbm (d n : Nat) (f : Tile → Tile) : (s.modTile d n f).hbm = s.hbm := rfl
@[simp] theorem State.modTile_homes (d n : Nat) (f : Tile → Tile) : (s.modTile d n f).homes = s.homes := rfl
@[simp] theorem State.modTile_sliceLines (d n : Nat) (f : Tile → Tile) : (s.modTile d n f).sliceLines = s.sliceLines := rfl
@[simp] theorem State.modTile_walks (d n : Nat) (f : Tile → Tile) : (s.modTile d n f).walks = s.walks := rfl
@[simp] theorem State.modTile_trackers (d n : Nat) (f : Tile → Tile) : (s.modTile d n f).trackers = s.trackers := rfl
@[simp] theorem State.modTile_tickets (d n : Nat) (f : Tile → Tile) : (s.modTile d n f).tickets = s.tickets := rfl
@[simp] theorem State.modTile_persistent (d n : Nat) (f : Tile → Tile) : (s.modTile d n f).persistent = s.persistent := rfl
@[simp] theorem State.modTile_epochs (d n : Nat) (f : Tile → Tile) : (s.modTile d n f).epochs = s.epochs := rfl
@[simp] theorem State.modTile_homeMap (d n : Nat) (f : Tile → Tile) : (s.modTile d n f).homeMap = s.homeMap := rfl
@[simp] theorem State.modTile_keys (d n : Nat) (f : Tile → Tile) : (s.modTile d n f).keys = s.keys := rfl
@[simp] theorem State.modTile_contexts (d n : Nat) (f : Tile → Tile) : (s.modTile d n f).contexts = s.contexts := rfl
@[simp] theorem State.modTile_window (d n : Nat) (f : Tile → Tile) : (s.modTile d n f).window = s.window := rfl
@[simp] theorem State.modTile_windowWait (d n : Nat) (f : Tile → Tile) : (s.modTile d n f).windowWait = s.windowWait := rfl
@[simp] theorem State.modTile_windowOwner (d n : Nat) (f : Tile → Tile) : (s.modTile d n f).windowOwner = s.windowOwner := rfl
@[simp] theorem State.modTile_windowDies (d n : Nat) (f : Tile → Tile) : (s.modTile d n f).windowDies = s.windowDies := rfl
@[simp] theorem State.modTile_scLap (d n : Nat) (f : Tile → Tile) : (s.modTile d n f).scLap = s.scLap := rfl
@[simp] theorem State.modTile_scAt (d n : Nat) (f : Tile → Tile) : (s.modTile d n f).scAt = s.scAt := rfl
@[simp] theorem State.modTile_scFresh (d n : Nat) (f : Tile → Tile) : (s.modTile d n f).scFresh = s.scFresh := rfl
@[simp] theorem State.modTile_scQueue (d n : Nat) (f : Tile → Tile) : (s.modTile d n f).scQueue = s.scQueue := rfl
@[simp] theorem State.modTile_scInput (d n : Nat) (f : Tile → Tile) : (s.modTile d n f).scInput = s.scInput := rfl
@[simp] theorem State.modTile_tilePorts (d n : Nat) (f : Tile → Tile) : (s.modTile d n f).tilePorts = s.tilePorts := rfl
@[simp] theorem State.modTile_bankTurn (d n : Nat) (f : Tile → Tile) : (s.modTile d n f).bankTurn = s.bankTurn := rfl
@[simp] theorem State.modTile_homeWait (d n : Nat) (f : Tile → Tile) : (s.modTile d n f).homeWait = s.homeWait := rfl
@[simp] theorem State.modTile_weights (d n : Nat) (f : Tile → Tile) : (s.modTile d n f).weights = s.weights := rfl
@[simp] theorem State.modTile_insts (d n : Nat) (f : Tile → Tile) : (s.modTile d n f).insts = s.insts := rfl
@[simp] theorem State.modTile_lastInst (d n : Nat) (f : Tile → Tile) : (s.modTile d n f).lastInst = s.lastInst := rfl
@[simp] theorem State.modTile_pools (d n : Nat) (f : Tile → Tile) : (s.modTile d n f).pools = s.pools := rfl
@[simp] theorem State.modTile_freezePool (d n : Nat) (f : Tile → Tile) : (s.modTile d n f).freezePool = s.freezePool := rfl
@[simp] theorem State.modTile_uaOut (d n : Nat) (f : Tile → Tile) : (s.modTile d n f).uaOut = s.uaOut := rfl
@[simp] theorem State.modTile_peerAnswer (d n : Nat) (f : Tile → Tile) : (s.modTile d n f).peerAnswer = s.peerAnswer := rfl
@[simp] theorem State.modTile_peerReqs (d n : Nat) (f : Tile → Tile) : (s.modTile d n f).peerReqs = s.peerReqs := rfl
@[simp] theorem State.modTile_uaSeen (d n : Nat) (f : Tile → Tile) : (s.modTile d n f).uaSeen = s.uaSeen := rfl
@[simp] theorem State.modTile_hostMem (d n : Nat) (f : Tile → Tile) : (s.modTile d n f).hostMem = s.hostMem := rfl
@[simp] theorem State.modTile_plinth (d n : Nat) (f : Tile → Tile) : (s.modTile d n f).plinth = s.plinth := rfl

@[simp] theorem State.modStrand_cur (d n k : Nat) (f : Strand → Strand) : (s.modStrand d n k f).cur = s.cur := rfl
@[simp] theorem State.modStrand_agenda (d n k : Nat) (f : Strand → Strand) : (s.modStrand d n k f).agenda = s.agenda := rfl
@[simp] theorem State.modStrand_freeCtr (d n k : Nat) (f : Strand → Strand) : (s.modStrand d n k f).freeCtr = s.freeCtr := rfl
@[simp] theorem State.modStrand_nextId (d n k : Nat) (f : Strand → Strand) : (s.modStrand d n k f).nextId = s.nextId := rfl
@[simp] theorem State.modStrand_tiles (d n k : Nat) (f : Strand → Strand) : (s.modStrand d n k f).tiles = tput s.tiles (tileKey d n) ((s.tile d n).setStrand k (f ((s.tile d n).strand k))) := rfl
@[simp] theorem State.modStrand_dies (d n k : Nat) (f : Strand → Strand) : (s.modStrand d n k f).dies = s.dies := rfl
@[simp] theorem State.modStrand_access (d n k : Nat) (f : Strand → Strand) : (s.modStrand d n k f).access = s.access := rfl
@[simp] theorem State.modStrand_reports (d n k : Nat) (f : Strand → Strand) : (s.modStrand d n k f).reports = s.reports := rfl
@[simp] theorem State.modStrand_messages (d n k : Nat) (f : Strand → Strand) : (s.modStrand d n k f).messages = s.messages := rfl
@[simp] theorem State.modStrand_net (d n k : Nat) (f : Strand → Strand) : (s.modStrand d n k f).net = s.net := rfl
@[simp] theorem State.modStrand_hbm (d n k : Nat) (f : Strand → Strand) : (s.modStrand d n k f).hbm = s.hbm := rfl
@[simp] theorem State.modStrand_homes (d n k : Nat) (f : Strand → Strand) : (s.modStrand d n k f).homes = s.homes := rfl
@[simp] theorem State.modStrand_sliceLines (d n k : Nat) (f : Strand → Strand) : (s.modStrand d n k f).sliceLines = s.sliceLines := rfl
@[simp] theorem State.modStrand_walks (d n k : Nat) (f : Strand → Strand) : (s.modStrand d n k f).walks = s.walks := rfl
@[simp] theorem State.modStrand_trackers (d n k : Nat) (f : Strand → Strand) : (s.modStrand d n k f).trackers = s.trackers := rfl
@[simp] theorem State.modStrand_tickets (d n k : Nat) (f : Strand → Strand) : (s.modStrand d n k f).tickets = s.tickets := rfl
@[simp] theorem State.modStrand_persistent (d n k : Nat) (f : Strand → Strand) : (s.modStrand d n k f).persistent = s.persistent := rfl
@[simp] theorem State.modStrand_epochs (d n k : Nat) (f : Strand → Strand) : (s.modStrand d n k f).epochs = s.epochs := rfl
@[simp] theorem State.modStrand_homeMap (d n k : Nat) (f : Strand → Strand) : (s.modStrand d n k f).homeMap = s.homeMap := rfl
@[simp] theorem State.modStrand_keys (d n k : Nat) (f : Strand → Strand) : (s.modStrand d n k f).keys = s.keys := rfl
@[simp] theorem State.modStrand_contexts (d n k : Nat) (f : Strand → Strand) : (s.modStrand d n k f).contexts = s.contexts := rfl
@[simp] theorem State.modStrand_window (d n k : Nat) (f : Strand → Strand) : (s.modStrand d n k f).window = s.window := rfl
@[simp] theorem State.modStrand_windowWait (d n k : Nat) (f : Strand → Strand) : (s.modStrand d n k f).windowWait = s.windowWait := rfl
@[simp] theorem State.modStrand_windowOwner (d n k : Nat) (f : Strand → Strand) : (s.modStrand d n k f).windowOwner = s.windowOwner := rfl
@[simp] theorem State.modStrand_windowDies (d n k : Nat) (f : Strand → Strand) : (s.modStrand d n k f).windowDies = s.windowDies := rfl
@[simp] theorem State.modStrand_scLap (d n k : Nat) (f : Strand → Strand) : (s.modStrand d n k f).scLap = s.scLap := rfl
@[simp] theorem State.modStrand_scAt (d n k : Nat) (f : Strand → Strand) : (s.modStrand d n k f).scAt = s.scAt := rfl
@[simp] theorem State.modStrand_scFresh (d n k : Nat) (f : Strand → Strand) : (s.modStrand d n k f).scFresh = s.scFresh := rfl
@[simp] theorem State.modStrand_scQueue (d n k : Nat) (f : Strand → Strand) : (s.modStrand d n k f).scQueue = s.scQueue := rfl
@[simp] theorem State.modStrand_scInput (d n k : Nat) (f : Strand → Strand) : (s.modStrand d n k f).scInput = s.scInput := rfl
@[simp] theorem State.modStrand_tilePorts (d n k : Nat) (f : Strand → Strand) : (s.modStrand d n k f).tilePorts = s.tilePorts := rfl
@[simp] theorem State.modStrand_bankTurn (d n k : Nat) (f : Strand → Strand) : (s.modStrand d n k f).bankTurn = s.bankTurn := rfl
@[simp] theorem State.modStrand_homeWait (d n k : Nat) (f : Strand → Strand) : (s.modStrand d n k f).homeWait = s.homeWait := rfl
@[simp] theorem State.modStrand_weights (d n k : Nat) (f : Strand → Strand) : (s.modStrand d n k f).weights = s.weights := rfl
@[simp] theorem State.modStrand_insts (d n k : Nat) (f : Strand → Strand) : (s.modStrand d n k f).insts = s.insts := rfl
@[simp] theorem State.modStrand_lastInst (d n k : Nat) (f : Strand → Strand) : (s.modStrand d n k f).lastInst = s.lastInst := rfl
@[simp] theorem State.modStrand_pools (d n k : Nat) (f : Strand → Strand) : (s.modStrand d n k f).pools = s.pools := rfl
@[simp] theorem State.modStrand_freezePool (d n k : Nat) (f : Strand → Strand) : (s.modStrand d n k f).freezePool = s.freezePool := rfl
@[simp] theorem State.modStrand_uaOut (d n k : Nat) (f : Strand → Strand) : (s.modStrand d n k f).uaOut = s.uaOut := rfl
@[simp] theorem State.modStrand_peerAnswer (d n k : Nat) (f : Strand → Strand) : (s.modStrand d n k f).peerAnswer = s.peerAnswer := rfl
@[simp] theorem State.modStrand_peerReqs (d n k : Nat) (f : Strand → Strand) : (s.modStrand d n k f).peerReqs = s.peerReqs := rfl
@[simp] theorem State.modStrand_uaSeen (d n k : Nat) (f : Strand → Strand) : (s.modStrand d n k f).uaSeen = s.uaSeen := rfl
@[simp] theorem State.modStrand_hostMem (d n k : Nat) (f : Strand → Strand) : (s.modStrand d n k f).hostMem = s.hostMem := rfl
@[simp] theorem State.modStrand_plinth (d n k : Nat) (f : Strand → Strand) : (s.modStrand d n k f).plinth = s.plinth := rfl

@[simp] theorem State.modHere_cur (f : Tile → Tile) : (s.modHere f).cur = s.cur := rfl
@[simp] theorem State.modHere_agenda (f : Tile → Tile) : (s.modHere f).agenda = s.agenda := rfl
@[simp] theorem State.modHere_freeCtr (f : Tile → Tile) : (s.modHere f).freeCtr = s.freeCtr := rfl
@[simp] theorem State.modHere_nextId (f : Tile → Tile) : (s.modHere f).nextId = s.nextId := rfl
@[simp] theorem State.modHere_tiles (f : Tile → Tile) : (s.modHere f).tiles = tput s.tiles (tileKey s.cur.die s.cur.site) (f s.here) := rfl
@[simp] theorem State.modHere_dies (f : Tile → Tile) : (s.modHere f).dies = s.dies := rfl
@[simp] theorem State.modHere_access (f : Tile → Tile) : (s.modHere f).access = s.access := rfl
@[simp] theorem State.modHere_reports (f : Tile → Tile) : (s.modHere f).reports = s.reports := rfl
@[simp] theorem State.modHere_messages (f : Tile → Tile) : (s.modHere f).messages = s.messages := rfl
@[simp] theorem State.modHere_net (f : Tile → Tile) : (s.modHere f).net = s.net := rfl
@[simp] theorem State.modHere_hbm (f : Tile → Tile) : (s.modHere f).hbm = s.hbm := rfl
@[simp] theorem State.modHere_homes (f : Tile → Tile) : (s.modHere f).homes = s.homes := rfl
@[simp] theorem State.modHere_sliceLines (f : Tile → Tile) : (s.modHere f).sliceLines = s.sliceLines := rfl
@[simp] theorem State.modHere_walks (f : Tile → Tile) : (s.modHere f).walks = s.walks := rfl
@[simp] theorem State.modHere_trackers (f : Tile → Tile) : (s.modHere f).trackers = s.trackers := rfl
@[simp] theorem State.modHere_tickets (f : Tile → Tile) : (s.modHere f).tickets = s.tickets := rfl
@[simp] theorem State.modHere_persistent (f : Tile → Tile) : (s.modHere f).persistent = s.persistent := rfl
@[simp] theorem State.modHere_epochs (f : Tile → Tile) : (s.modHere f).epochs = s.epochs := rfl
@[simp] theorem State.modHere_homeMap (f : Tile → Tile) : (s.modHere f).homeMap = s.homeMap := rfl
@[simp] theorem State.modHere_keys (f : Tile → Tile) : (s.modHere f).keys = s.keys := rfl
@[simp] theorem State.modHere_contexts (f : Tile → Tile) : (s.modHere f).contexts = s.contexts := rfl
@[simp] theorem State.modHere_window (f : Tile → Tile) : (s.modHere f).window = s.window := rfl
@[simp] theorem State.modHere_windowWait (f : Tile → Tile) : (s.modHere f).windowWait = s.windowWait := rfl
@[simp] theorem State.modHere_windowOwner (f : Tile → Tile) : (s.modHere f).windowOwner = s.windowOwner := rfl
@[simp] theorem State.modHere_windowDies (f : Tile → Tile) : (s.modHere f).windowDies = s.windowDies := rfl
@[simp] theorem State.modHere_scLap (f : Tile → Tile) : (s.modHere f).scLap = s.scLap := rfl
@[simp] theorem State.modHere_scAt (f : Tile → Tile) : (s.modHere f).scAt = s.scAt := rfl
@[simp] theorem State.modHere_scFresh (f : Tile → Tile) : (s.modHere f).scFresh = s.scFresh := rfl
@[simp] theorem State.modHere_scQueue (f : Tile → Tile) : (s.modHere f).scQueue = s.scQueue := rfl
@[simp] theorem State.modHere_scInput (f : Tile → Tile) : (s.modHere f).scInput = s.scInput := rfl
@[simp] theorem State.modHere_tilePorts (f : Tile → Tile) : (s.modHere f).tilePorts = s.tilePorts := rfl
@[simp] theorem State.modHere_bankTurn (f : Tile → Tile) : (s.modHere f).bankTurn = s.bankTurn := rfl
@[simp] theorem State.modHere_homeWait (f : Tile → Tile) : (s.modHere f).homeWait = s.homeWait := rfl
@[simp] theorem State.modHere_weights (f : Tile → Tile) : (s.modHere f).weights = s.weights := rfl
@[simp] theorem State.modHere_insts (f : Tile → Tile) : (s.modHere f).insts = s.insts := rfl
@[simp] theorem State.modHere_lastInst (f : Tile → Tile) : (s.modHere f).lastInst = s.lastInst := rfl
@[simp] theorem State.modHere_pools (f : Tile → Tile) : (s.modHere f).pools = s.pools := rfl
@[simp] theorem State.modHere_freezePool (f : Tile → Tile) : (s.modHere f).freezePool = s.freezePool := rfl
@[simp] theorem State.modHere_uaOut (f : Tile → Tile) : (s.modHere f).uaOut = s.uaOut := rfl
@[simp] theorem State.modHere_peerAnswer (f : Tile → Tile) : (s.modHere f).peerAnswer = s.peerAnswer := rfl
@[simp] theorem State.modHere_peerReqs (f : Tile → Tile) : (s.modHere f).peerReqs = s.peerReqs := rfl
@[simp] theorem State.modHere_uaSeen (f : Tile → Tile) : (s.modHere f).uaSeen = s.uaSeen := rfl
@[simp] theorem State.modHere_hostMem (f : Tile → Tile) : (s.modHere f).hostMem = s.hostMem := rfl
@[simp] theorem State.modHere_plinth (f : Tile → Tile) : (s.modHere f).plinth = s.plinth := rfl

@[simp] theorem State.modMe_cur (f : Strand → Strand) : (s.modMe f).cur = s.cur := rfl
@[simp] theorem State.modMe_agenda (f : Strand → Strand) : (s.modMe f).agenda = s.agenda := rfl
@[simp] theorem State.modMe_freeCtr (f : Strand → Strand) : (s.modMe f).freeCtr = s.freeCtr := rfl
@[simp] theorem State.modMe_nextId (f : Strand → Strand) : (s.modMe f).nextId = s.nextId := rfl
@[simp] theorem State.modMe_tiles (f : Strand → Strand) : (s.modMe f).tiles = tput s.tiles (tileKey s.cur.die s.cur.site) (s.here.setStrand s.cur.strand (f s.me)) := rfl
@[simp] theorem State.modMe_dies (f : Strand → Strand) : (s.modMe f).dies = s.dies := rfl
@[simp] theorem State.modMe_access (f : Strand → Strand) : (s.modMe f).access = s.access := rfl
@[simp] theorem State.modMe_reports (f : Strand → Strand) : (s.modMe f).reports = s.reports := rfl
@[simp] theorem State.modMe_messages (f : Strand → Strand) : (s.modMe f).messages = s.messages := rfl
@[simp] theorem State.modMe_net (f : Strand → Strand) : (s.modMe f).net = s.net := rfl
@[simp] theorem State.modMe_hbm (f : Strand → Strand) : (s.modMe f).hbm = s.hbm := rfl
@[simp] theorem State.modMe_homes (f : Strand → Strand) : (s.modMe f).homes = s.homes := rfl
@[simp] theorem State.modMe_sliceLines (f : Strand → Strand) : (s.modMe f).sliceLines = s.sliceLines := rfl
@[simp] theorem State.modMe_walks (f : Strand → Strand) : (s.modMe f).walks = s.walks := rfl
@[simp] theorem State.modMe_trackers (f : Strand → Strand) : (s.modMe f).trackers = s.trackers := rfl
@[simp] theorem State.modMe_tickets (f : Strand → Strand) : (s.modMe f).tickets = s.tickets := rfl
@[simp] theorem State.modMe_persistent (f : Strand → Strand) : (s.modMe f).persistent = s.persistent := rfl
@[simp] theorem State.modMe_epochs (f : Strand → Strand) : (s.modMe f).epochs = s.epochs := rfl
@[simp] theorem State.modMe_homeMap (f : Strand → Strand) : (s.modMe f).homeMap = s.homeMap := rfl
@[simp] theorem State.modMe_keys (f : Strand → Strand) : (s.modMe f).keys = s.keys := rfl
@[simp] theorem State.modMe_contexts (f : Strand → Strand) : (s.modMe f).contexts = s.contexts := rfl
@[simp] theorem State.modMe_window (f : Strand → Strand) : (s.modMe f).window = s.window := rfl
@[simp] theorem State.modMe_windowWait (f : Strand → Strand) : (s.modMe f).windowWait = s.windowWait := rfl
@[simp] theorem State.modMe_windowOwner (f : Strand → Strand) : (s.modMe f).windowOwner = s.windowOwner := rfl
@[simp] theorem State.modMe_windowDies (f : Strand → Strand) : (s.modMe f).windowDies = s.windowDies := rfl
@[simp] theorem State.modMe_scLap (f : Strand → Strand) : (s.modMe f).scLap = s.scLap := rfl
@[simp] theorem State.modMe_scAt (f : Strand → Strand) : (s.modMe f).scAt = s.scAt := rfl
@[simp] theorem State.modMe_scFresh (f : Strand → Strand) : (s.modMe f).scFresh = s.scFresh := rfl
@[simp] theorem State.modMe_scQueue (f : Strand → Strand) : (s.modMe f).scQueue = s.scQueue := rfl
@[simp] theorem State.modMe_scInput (f : Strand → Strand) : (s.modMe f).scInput = s.scInput := rfl
@[simp] theorem State.modMe_tilePorts (f : Strand → Strand) : (s.modMe f).tilePorts = s.tilePorts := rfl
@[simp] theorem State.modMe_bankTurn (f : Strand → Strand) : (s.modMe f).bankTurn = s.bankTurn := rfl
@[simp] theorem State.modMe_homeWait (f : Strand → Strand) : (s.modMe f).homeWait = s.homeWait := rfl
@[simp] theorem State.modMe_weights (f : Strand → Strand) : (s.modMe f).weights = s.weights := rfl
@[simp] theorem State.modMe_insts (f : Strand → Strand) : (s.modMe f).insts = s.insts := rfl
@[simp] theorem State.modMe_lastInst (f : Strand → Strand) : (s.modMe f).lastInst = s.lastInst := rfl
@[simp] theorem State.modMe_pools (f : Strand → Strand) : (s.modMe f).pools = s.pools := rfl
@[simp] theorem State.modMe_freezePool (f : Strand → Strand) : (s.modMe f).freezePool = s.freezePool := rfl
@[simp] theorem State.modMe_uaOut (f : Strand → Strand) : (s.modMe f).uaOut = s.uaOut := rfl
@[simp] theorem State.modMe_peerAnswer (f : Strand → Strand) : (s.modMe f).peerAnswer = s.peerAnswer := rfl
@[simp] theorem State.modMe_peerReqs (f : Strand → Strand) : (s.modMe f).peerReqs = s.peerReqs := rfl
@[simp] theorem State.modMe_uaSeen (f : Strand → Strand) : (s.modMe f).uaSeen = s.uaSeen := rfl
@[simp] theorem State.modMe_hostMem (f : Strand → Strand) : (s.modMe f).hostMem = s.hostMem := rfl
@[simp] theorem State.modMe_plinth (f : Strand → Strand) : (s.modMe f).plinth = s.plinth := rfl

@[simp] theorem State.modDie_cur (d : Nat) (f : FDie → FDie) : (s.modDie d f).cur = s.cur := rfl
@[simp] theorem State.modDie_agenda (d : Nat) (f : FDie → FDie) : (s.modDie d f).agenda = s.agenda := rfl
@[simp] theorem State.modDie_freeCtr (d : Nat) (f : FDie → FDie) : (s.modDie d f).freeCtr = s.freeCtr := rfl
@[simp] theorem State.modDie_nextId (d : Nat) (f : FDie → FDie) : (s.modDie d f).nextId = s.nextId := rfl
@[simp] theorem State.modDie_tiles (d : Nat) (f : FDie → FDie) : (s.modDie d f).tiles = s.tiles := rfl
@[simp] theorem State.modDie_dies (d : Nat) (f : FDie → FDie) : (s.modDie d f).dies = vset s.dies d (f (s.die d)) := rfl
@[simp] theorem State.modDie_access (d : Nat) (f : FDie → FDie) : (s.modDie d f).access = s.access := rfl
@[simp] theorem State.modDie_reports (d : Nat) (f : FDie → FDie) : (s.modDie d f).reports = s.reports := rfl
@[simp] theorem State.modDie_messages (d : Nat) (f : FDie → FDie) : (s.modDie d f).messages = s.messages := rfl
@[simp] theorem State.modDie_net (d : Nat) (f : FDie → FDie) : (s.modDie d f).net = s.net := rfl
@[simp] theorem State.modDie_hbm (d : Nat) (f : FDie → FDie) : (s.modDie d f).hbm = s.hbm := rfl
@[simp] theorem State.modDie_homes (d : Nat) (f : FDie → FDie) : (s.modDie d f).homes = s.homes := rfl
@[simp] theorem State.modDie_sliceLines (d : Nat) (f : FDie → FDie) : (s.modDie d f).sliceLines = s.sliceLines := rfl
@[simp] theorem State.modDie_walks (d : Nat) (f : FDie → FDie) : (s.modDie d f).walks = s.walks := rfl
@[simp] theorem State.modDie_trackers (d : Nat) (f : FDie → FDie) : (s.modDie d f).trackers = s.trackers := rfl
@[simp] theorem State.modDie_tickets (d : Nat) (f : FDie → FDie) : (s.modDie d f).tickets = s.tickets := rfl
@[simp] theorem State.modDie_persistent (d : Nat) (f : FDie → FDie) : (s.modDie d f).persistent = s.persistent := rfl
@[simp] theorem State.modDie_epochs (d : Nat) (f : FDie → FDie) : (s.modDie d f).epochs = s.epochs := rfl
@[simp] theorem State.modDie_homeMap (d : Nat) (f : FDie → FDie) : (s.modDie d f).homeMap = s.homeMap := rfl
@[simp] theorem State.modDie_keys (d : Nat) (f : FDie → FDie) : (s.modDie d f).keys = s.keys := rfl
@[simp] theorem State.modDie_contexts (d : Nat) (f : FDie → FDie) : (s.modDie d f).contexts = s.contexts := rfl
@[simp] theorem State.modDie_window (d : Nat) (f : FDie → FDie) : (s.modDie d f).window = s.window := rfl
@[simp] theorem State.modDie_windowWait (d : Nat) (f : FDie → FDie) : (s.modDie d f).windowWait = s.windowWait := rfl
@[simp] theorem State.modDie_windowOwner (d : Nat) (f : FDie → FDie) : (s.modDie d f).windowOwner = s.windowOwner := rfl
@[simp] theorem State.modDie_windowDies (d : Nat) (f : FDie → FDie) : (s.modDie d f).windowDies = s.windowDies := rfl
@[simp] theorem State.modDie_scLap (d : Nat) (f : FDie → FDie) : (s.modDie d f).scLap = s.scLap := rfl
@[simp] theorem State.modDie_scAt (d : Nat) (f : FDie → FDie) : (s.modDie d f).scAt = s.scAt := rfl
@[simp] theorem State.modDie_scFresh (d : Nat) (f : FDie → FDie) : (s.modDie d f).scFresh = s.scFresh := rfl
@[simp] theorem State.modDie_scQueue (d : Nat) (f : FDie → FDie) : (s.modDie d f).scQueue = s.scQueue := rfl
@[simp] theorem State.modDie_scInput (d : Nat) (f : FDie → FDie) : (s.modDie d f).scInput = s.scInput := rfl
@[simp] theorem State.modDie_tilePorts (d : Nat) (f : FDie → FDie) : (s.modDie d f).tilePorts = s.tilePorts := rfl
@[simp] theorem State.modDie_bankTurn (d : Nat) (f : FDie → FDie) : (s.modDie d f).bankTurn = s.bankTurn := rfl
@[simp] theorem State.modDie_homeWait (d : Nat) (f : FDie → FDie) : (s.modDie d f).homeWait = s.homeWait := rfl
@[simp] theorem State.modDie_weights (d : Nat) (f : FDie → FDie) : (s.modDie d f).weights = s.weights := rfl
@[simp] theorem State.modDie_insts (d : Nat) (f : FDie → FDie) : (s.modDie d f).insts = s.insts := rfl
@[simp] theorem State.modDie_lastInst (d : Nat) (f : FDie → FDie) : (s.modDie d f).lastInst = s.lastInst := rfl
@[simp] theorem State.modDie_pools (d : Nat) (f : FDie → FDie) : (s.modDie d f).pools = s.pools := rfl
@[simp] theorem State.modDie_freezePool (d : Nat) (f : FDie → FDie) : (s.modDie d f).freezePool = s.freezePool := rfl
@[simp] theorem State.modDie_uaOut (d : Nat) (f : FDie → FDie) : (s.modDie d f).uaOut = s.uaOut := rfl
@[simp] theorem State.modDie_peerAnswer (d : Nat) (f : FDie → FDie) : (s.modDie d f).peerAnswer = s.peerAnswer := rfl
@[simp] theorem State.modDie_peerReqs (d : Nat) (f : FDie → FDie) : (s.modDie d f).peerReqs = s.peerReqs := rfl
@[simp] theorem State.modDie_uaSeen (d : Nat) (f : FDie → FDie) : (s.modDie d f).uaSeen = s.uaSeen := rfl
@[simp] theorem State.modDie_hostMem (d : Nat) (f : FDie → FDie) : (s.modDie d f).hostMem = s.hostMem := rfl
@[simp] theorem State.modDie_plinth (d : Nat) (f : FDie → FDie) : (s.modDie d f).plinth = s.plinth := rfl

@[simp] theorem State.setRecord_cur (d r : Nat) (x : Record) : (s.setRecord d r x).cur = s.cur := rfl
@[simp] theorem State.setRecord_agenda (d r : Nat) (x : Record) : (s.setRecord d r x).agenda = s.agenda := rfl
@[simp] theorem State.setRecord_freeCtr (d r : Nat) (x : Record) : (s.setRecord d r x).freeCtr = s.freeCtr := rfl
@[simp] theorem State.setRecord_nextId (d r : Nat) (x : Record) : (s.setRecord d r x).nextId = s.nextId := rfl
@[simp] theorem State.setRecord_tiles (d r : Nat) (x : Record) : (s.setRecord d r x).tiles = s.tiles := rfl
@[simp] theorem State.setRecord_dies (d r : Nat) (x : Record) : (s.setRecord d r x).dies = vset s.dies d { s.die d with records := tput (s.die d).records r x } := rfl
@[simp] theorem State.setRecord_access (d r : Nat) (x : Record) : (s.setRecord d r x).access = s.access := rfl
@[simp] theorem State.setRecord_reports (d r : Nat) (x : Record) : (s.setRecord d r x).reports = s.reports := rfl
@[simp] theorem State.setRecord_messages (d r : Nat) (x : Record) : (s.setRecord d r x).messages = s.messages := rfl
@[simp] theorem State.setRecord_net (d r : Nat) (x : Record) : (s.setRecord d r x).net = s.net := rfl
@[simp] theorem State.setRecord_hbm (d r : Nat) (x : Record) : (s.setRecord d r x).hbm = s.hbm := rfl
@[simp] theorem State.setRecord_homes (d r : Nat) (x : Record) : (s.setRecord d r x).homes = s.homes := rfl
@[simp] theorem State.setRecord_sliceLines (d r : Nat) (x : Record) : (s.setRecord d r x).sliceLines = s.sliceLines := rfl
@[simp] theorem State.setRecord_walks (d r : Nat) (x : Record) : (s.setRecord d r x).walks = s.walks := rfl
@[simp] theorem State.setRecord_trackers (d r : Nat) (x : Record) : (s.setRecord d r x).trackers = s.trackers := rfl
@[simp] theorem State.setRecord_tickets (d r : Nat) (x : Record) : (s.setRecord d r x).tickets = s.tickets := rfl
@[simp] theorem State.setRecord_persistent (d r : Nat) (x : Record) : (s.setRecord d r x).persistent = s.persistent := rfl
@[simp] theorem State.setRecord_epochs (d r : Nat) (x : Record) : (s.setRecord d r x).epochs = s.epochs := rfl
@[simp] theorem State.setRecord_homeMap (d r : Nat) (x : Record) : (s.setRecord d r x).homeMap = s.homeMap := rfl
@[simp] theorem State.setRecord_keys (d r : Nat) (x : Record) : (s.setRecord d r x).keys = s.keys := rfl
@[simp] theorem State.setRecord_contexts (d r : Nat) (x : Record) : (s.setRecord d r x).contexts = s.contexts := rfl
@[simp] theorem State.setRecord_window (d r : Nat) (x : Record) : (s.setRecord d r x).window = s.window := rfl
@[simp] theorem State.setRecord_windowWait (d r : Nat) (x : Record) : (s.setRecord d r x).windowWait = s.windowWait := rfl
@[simp] theorem State.setRecord_windowOwner (d r : Nat) (x : Record) : (s.setRecord d r x).windowOwner = s.windowOwner := rfl
@[simp] theorem State.setRecord_windowDies (d r : Nat) (x : Record) : (s.setRecord d r x).windowDies = s.windowDies := rfl
@[simp] theorem State.setRecord_scLap (d r : Nat) (x : Record) : (s.setRecord d r x).scLap = s.scLap := rfl
@[simp] theorem State.setRecord_scAt (d r : Nat) (x : Record) : (s.setRecord d r x).scAt = s.scAt := rfl
@[simp] theorem State.setRecord_scFresh (d r : Nat) (x : Record) : (s.setRecord d r x).scFresh = s.scFresh := rfl
@[simp] theorem State.setRecord_scQueue (d r : Nat) (x : Record) : (s.setRecord d r x).scQueue = s.scQueue := rfl
@[simp] theorem State.setRecord_scInput (d r : Nat) (x : Record) : (s.setRecord d r x).scInput = s.scInput := rfl
@[simp] theorem State.setRecord_tilePorts (d r : Nat) (x : Record) : (s.setRecord d r x).tilePorts = s.tilePorts := rfl
@[simp] theorem State.setRecord_bankTurn (d r : Nat) (x : Record) : (s.setRecord d r x).bankTurn = s.bankTurn := rfl
@[simp] theorem State.setRecord_homeWait (d r : Nat) (x : Record) : (s.setRecord d r x).homeWait = s.homeWait := rfl
@[simp] theorem State.setRecord_weights (d r : Nat) (x : Record) : (s.setRecord d r x).weights = s.weights := rfl
@[simp] theorem State.setRecord_insts (d r : Nat) (x : Record) : (s.setRecord d r x).insts = s.insts := rfl
@[simp] theorem State.setRecord_lastInst (d r : Nat) (x : Record) : (s.setRecord d r x).lastInst = s.lastInst := rfl
@[simp] theorem State.setRecord_pools (d r : Nat) (x : Record) : (s.setRecord d r x).pools = s.pools := rfl
@[simp] theorem State.setRecord_freezePool (d r : Nat) (x : Record) : (s.setRecord d r x).freezePool = s.freezePool := rfl
@[simp] theorem State.setRecord_uaOut (d r : Nat) (x : Record) : (s.setRecord d r x).uaOut = s.uaOut := rfl
@[simp] theorem State.setRecord_peerAnswer (d r : Nat) (x : Record) : (s.setRecord d r x).peerAnswer = s.peerAnswer := rfl
@[simp] theorem State.setRecord_peerReqs (d r : Nat) (x : Record) : (s.setRecord d r x).peerReqs = s.peerReqs := rfl
@[simp] theorem State.setRecord_uaSeen (d r : Nat) (x : Record) : (s.setRecord d r x).uaSeen = s.uaSeen := rfl
@[simp] theorem State.setRecord_hostMem (d r : Nat) (x : Record) : (s.setRecord d r x).hostMem = s.hostMem := rfl
@[simp] theorem State.setRecord_plinth (d r : Nat) (x : Record) : (s.setRecord d r x).plinth = s.plinth := rfl

@[simp] theorem State.modPlinth_cur (f : Plinth → Plinth) : (s.modPlinth f).cur = s.cur := rfl
@[simp] theorem State.modPlinth_agenda (f : Plinth → Plinth) : (s.modPlinth f).agenda = s.agenda := rfl
@[simp] theorem State.modPlinth_freeCtr (f : Plinth → Plinth) : (s.modPlinth f).freeCtr = s.freeCtr := rfl
@[simp] theorem State.modPlinth_nextId (f : Plinth → Plinth) : (s.modPlinth f).nextId = s.nextId := rfl
@[simp] theorem State.modPlinth_tiles (f : Plinth → Plinth) : (s.modPlinth f).tiles = s.tiles := rfl
@[simp] theorem State.modPlinth_dies (f : Plinth → Plinth) : (s.modPlinth f).dies = s.dies := rfl
@[simp] theorem State.modPlinth_access (f : Plinth → Plinth) : (s.modPlinth f).access = s.access := rfl
@[simp] theorem State.modPlinth_reports (f : Plinth → Plinth) : (s.modPlinth f).reports = s.reports := rfl
@[simp] theorem State.modPlinth_messages (f : Plinth → Plinth) : (s.modPlinth f).messages = s.messages := rfl
@[simp] theorem State.modPlinth_net (f : Plinth → Plinth) : (s.modPlinth f).net = s.net := rfl
@[simp] theorem State.modPlinth_hbm (f : Plinth → Plinth) : (s.modPlinth f).hbm = s.hbm := rfl
@[simp] theorem State.modPlinth_homes (f : Plinth → Plinth) : (s.modPlinth f).homes = s.homes := rfl
@[simp] theorem State.modPlinth_sliceLines (f : Plinth → Plinth) : (s.modPlinth f).sliceLines = s.sliceLines := rfl
@[simp] theorem State.modPlinth_walks (f : Plinth → Plinth) : (s.modPlinth f).walks = s.walks := rfl
@[simp] theorem State.modPlinth_trackers (f : Plinth → Plinth) : (s.modPlinth f).trackers = s.trackers := rfl
@[simp] theorem State.modPlinth_tickets (f : Plinth → Plinth) : (s.modPlinth f).tickets = s.tickets := rfl
@[simp] theorem State.modPlinth_persistent (f : Plinth → Plinth) : (s.modPlinth f).persistent = s.persistent := rfl
@[simp] theorem State.modPlinth_epochs (f : Plinth → Plinth) : (s.modPlinth f).epochs = s.epochs := rfl
@[simp] theorem State.modPlinth_homeMap (f : Plinth → Plinth) : (s.modPlinth f).homeMap = s.homeMap := rfl
@[simp] theorem State.modPlinth_keys (f : Plinth → Plinth) : (s.modPlinth f).keys = s.keys := rfl
@[simp] theorem State.modPlinth_contexts (f : Plinth → Plinth) : (s.modPlinth f).contexts = s.contexts := rfl
@[simp] theorem State.modPlinth_window (f : Plinth → Plinth) : (s.modPlinth f).window = s.window := rfl
@[simp] theorem State.modPlinth_windowWait (f : Plinth → Plinth) : (s.modPlinth f).windowWait = s.windowWait := rfl
@[simp] theorem State.modPlinth_windowOwner (f : Plinth → Plinth) : (s.modPlinth f).windowOwner = s.windowOwner := rfl
@[simp] theorem State.modPlinth_windowDies (f : Plinth → Plinth) : (s.modPlinth f).windowDies = s.windowDies := rfl
@[simp] theorem State.modPlinth_scLap (f : Plinth → Plinth) : (s.modPlinth f).scLap = s.scLap := rfl
@[simp] theorem State.modPlinth_scAt (f : Plinth → Plinth) : (s.modPlinth f).scAt = s.scAt := rfl
@[simp] theorem State.modPlinth_scFresh (f : Plinth → Plinth) : (s.modPlinth f).scFresh = s.scFresh := rfl
@[simp] theorem State.modPlinth_scQueue (f : Plinth → Plinth) : (s.modPlinth f).scQueue = s.scQueue := rfl
@[simp] theorem State.modPlinth_scInput (f : Plinth → Plinth) : (s.modPlinth f).scInput = s.scInput := rfl
@[simp] theorem State.modPlinth_tilePorts (f : Plinth → Plinth) : (s.modPlinth f).tilePorts = s.tilePorts := rfl
@[simp] theorem State.modPlinth_bankTurn (f : Plinth → Plinth) : (s.modPlinth f).bankTurn = s.bankTurn := rfl
@[simp] theorem State.modPlinth_homeWait (f : Plinth → Plinth) : (s.modPlinth f).homeWait = s.homeWait := rfl
@[simp] theorem State.modPlinth_weights (f : Plinth → Plinth) : (s.modPlinth f).weights = s.weights := rfl
@[simp] theorem State.modPlinth_insts (f : Plinth → Plinth) : (s.modPlinth f).insts = s.insts := rfl
@[simp] theorem State.modPlinth_lastInst (f : Plinth → Plinth) : (s.modPlinth f).lastInst = s.lastInst := rfl
@[simp] theorem State.modPlinth_pools (f : Plinth → Plinth) : (s.modPlinth f).pools = s.pools := rfl
@[simp] theorem State.modPlinth_freezePool (f : Plinth → Plinth) : (s.modPlinth f).freezePool = s.freezePool := rfl
@[simp] theorem State.modPlinth_uaOut (f : Plinth → Plinth) : (s.modPlinth f).uaOut = s.uaOut := rfl
@[simp] theorem State.modPlinth_peerAnswer (f : Plinth → Plinth) : (s.modPlinth f).peerAnswer = s.peerAnswer := rfl
@[simp] theorem State.modPlinth_peerReqs (f : Plinth → Plinth) : (s.modPlinth f).peerReqs = s.peerReqs := rfl
@[simp] theorem State.modPlinth_uaSeen (f : Plinth → Plinth) : (s.modPlinth f).uaSeen = s.uaSeen := rfl
@[simp] theorem State.modPlinth_hostMem (f : Plinth → Plinth) : (s.modPlinth f).hostMem = s.hostMem := rfl
@[simp] theorem State.modPlinth_plinth (f : Plinth → Plinth) : (s.modPlinth f).plinth = f s.plinth := rfl

@[simp] theorem State.modAccess_cur (n : Nat) (f : Access → Access) : (s.modAccess n f).cur = s.cur := rfl
@[simp] theorem State.modAccess_agenda (n : Nat) (f : Access → Access) : (s.modAccess n f).agenda = s.agenda := rfl
@[simp] theorem State.modAccess_freeCtr (n : Nat) (f : Access → Access) : (s.modAccess n f).freeCtr = s.freeCtr := rfl
@[simp] theorem State.modAccess_nextId (n : Nat) (f : Access → Access) : (s.modAccess n f).nextId = s.nextId := rfl
@[simp] theorem State.modAccess_tiles (n : Nat) (f : Access → Access) : (s.modAccess n f).tiles = s.tiles := rfl
@[simp] theorem State.modAccess_dies (n : Nat) (f : Access → Access) : (s.modAccess n f).dies = s.dies := rfl
@[simp] theorem State.modAccess_access (n : Nat) (f : Access → Access) : (s.modAccess n f).access = s.access.map fun a => if a.id = n then f a else a := rfl
@[simp] theorem State.modAccess_reports (n : Nat) (f : Access → Access) : (s.modAccess n f).reports = s.reports := rfl
@[simp] theorem State.modAccess_messages (n : Nat) (f : Access → Access) : (s.modAccess n f).messages = s.messages := rfl
@[simp] theorem State.modAccess_net (n : Nat) (f : Access → Access) : (s.modAccess n f).net = s.net := rfl
@[simp] theorem State.modAccess_hbm (n : Nat) (f : Access → Access) : (s.modAccess n f).hbm = s.hbm := rfl
@[simp] theorem State.modAccess_homes (n : Nat) (f : Access → Access) : (s.modAccess n f).homes = s.homes := rfl
@[simp] theorem State.modAccess_sliceLines (n : Nat) (f : Access → Access) : (s.modAccess n f).sliceLines = s.sliceLines := rfl
@[simp] theorem State.modAccess_walks (n : Nat) (f : Access → Access) : (s.modAccess n f).walks = s.walks := rfl
@[simp] theorem State.modAccess_trackers (n : Nat) (f : Access → Access) : (s.modAccess n f).trackers = s.trackers := rfl
@[simp] theorem State.modAccess_tickets (n : Nat) (f : Access → Access) : (s.modAccess n f).tickets = s.tickets := rfl
@[simp] theorem State.modAccess_persistent (n : Nat) (f : Access → Access) : (s.modAccess n f).persistent = s.persistent := rfl
@[simp] theorem State.modAccess_epochs (n : Nat) (f : Access → Access) : (s.modAccess n f).epochs = s.epochs := rfl
@[simp] theorem State.modAccess_homeMap (n : Nat) (f : Access → Access) : (s.modAccess n f).homeMap = s.homeMap := rfl
@[simp] theorem State.modAccess_keys (n : Nat) (f : Access → Access) : (s.modAccess n f).keys = s.keys := rfl
@[simp] theorem State.modAccess_contexts (n : Nat) (f : Access → Access) : (s.modAccess n f).contexts = s.contexts := rfl
@[simp] theorem State.modAccess_window (n : Nat) (f : Access → Access) : (s.modAccess n f).window = s.window := rfl
@[simp] theorem State.modAccess_windowWait (n : Nat) (f : Access → Access) : (s.modAccess n f).windowWait = s.windowWait := rfl
@[simp] theorem State.modAccess_windowOwner (n : Nat) (f : Access → Access) : (s.modAccess n f).windowOwner = s.windowOwner := rfl
@[simp] theorem State.modAccess_windowDies (n : Nat) (f : Access → Access) : (s.modAccess n f).windowDies = s.windowDies := rfl
@[simp] theorem State.modAccess_scLap (n : Nat) (f : Access → Access) : (s.modAccess n f).scLap = s.scLap := rfl
@[simp] theorem State.modAccess_scAt (n : Nat) (f : Access → Access) : (s.modAccess n f).scAt = s.scAt := rfl
@[simp] theorem State.modAccess_scFresh (n : Nat) (f : Access → Access) : (s.modAccess n f).scFresh = s.scFresh := rfl
@[simp] theorem State.modAccess_scQueue (n : Nat) (f : Access → Access) : (s.modAccess n f).scQueue = s.scQueue := rfl
@[simp] theorem State.modAccess_scInput (n : Nat) (f : Access → Access) : (s.modAccess n f).scInput = s.scInput := rfl
@[simp] theorem State.modAccess_tilePorts (n : Nat) (f : Access → Access) : (s.modAccess n f).tilePorts = s.tilePorts := rfl
@[simp] theorem State.modAccess_bankTurn (n : Nat) (f : Access → Access) : (s.modAccess n f).bankTurn = s.bankTurn := rfl
@[simp] theorem State.modAccess_homeWait (n : Nat) (f : Access → Access) : (s.modAccess n f).homeWait = s.homeWait := rfl
@[simp] theorem State.modAccess_weights (n : Nat) (f : Access → Access) : (s.modAccess n f).weights = s.weights := rfl
@[simp] theorem State.modAccess_insts (n : Nat) (f : Access → Access) : (s.modAccess n f).insts = s.insts := rfl
@[simp] theorem State.modAccess_lastInst (n : Nat) (f : Access → Access) : (s.modAccess n f).lastInst = s.lastInst := rfl
@[simp] theorem State.modAccess_pools (n : Nat) (f : Access → Access) : (s.modAccess n f).pools = s.pools := rfl
@[simp] theorem State.modAccess_freezePool (n : Nat) (f : Access → Access) : (s.modAccess n f).freezePool = s.freezePool := rfl
@[simp] theorem State.modAccess_uaOut (n : Nat) (f : Access → Access) : (s.modAccess n f).uaOut = s.uaOut := rfl
@[simp] theorem State.modAccess_peerAnswer (n : Nat) (f : Access → Access) : (s.modAccess n f).peerAnswer = s.peerAnswer := rfl
@[simp] theorem State.modAccess_peerReqs (n : Nat) (f : Access → Access) : (s.modAccess n f).peerReqs = s.peerReqs := rfl
@[simp] theorem State.modAccess_uaSeen (n : Nat) (f : Access → Access) : (s.modAccess n f).uaSeen = s.uaSeen := rfl
@[simp] theorem State.modAccess_hostMem (n : Nat) (f : Access → Access) : (s.modAccess n f).hostMem = s.hostMem := rfl
@[simp] theorem State.modAccess_plinth (n : Nat) (f : Access → Access) : (s.modAccess n f).plinth = s.plinth := rfl

@[simp] theorem State.dropAccess_cur (n : Nat) : (s.dropAccess n).cur = s.cur := rfl
@[simp] theorem State.dropAccess_agenda (n : Nat) : (s.dropAccess n).agenda = s.agenda := rfl
@[simp] theorem State.dropAccess_freeCtr (n : Nat) : (s.dropAccess n).freeCtr = s.freeCtr := rfl
@[simp] theorem State.dropAccess_nextId (n : Nat) : (s.dropAccess n).nextId = s.nextId := rfl
@[simp] theorem State.dropAccess_tiles (n : Nat) : (s.dropAccess n).tiles = s.tiles := rfl
@[simp] theorem State.dropAccess_dies (n : Nat) : (s.dropAccess n).dies = s.dies := rfl
@[simp] theorem State.dropAccess_access (n : Nat) : (s.dropAccess n).access = s.access.filter fun a => a.id != n := rfl
@[simp] theorem State.dropAccess_reports (n : Nat) : (s.dropAccess n).reports = s.reports := rfl
@[simp] theorem State.dropAccess_messages (n : Nat) : (s.dropAccess n).messages = s.messages := rfl
@[simp] theorem State.dropAccess_net (n : Nat) : (s.dropAccess n).net = s.net := rfl
@[simp] theorem State.dropAccess_hbm (n : Nat) : (s.dropAccess n).hbm = s.hbm := rfl
@[simp] theorem State.dropAccess_homes (n : Nat) : (s.dropAccess n).homes = s.homes := rfl
@[simp] theorem State.dropAccess_sliceLines (n : Nat) : (s.dropAccess n).sliceLines = s.sliceLines := rfl
@[simp] theorem State.dropAccess_walks (n : Nat) : (s.dropAccess n).walks = s.walks := rfl
@[simp] theorem State.dropAccess_trackers (n : Nat) : (s.dropAccess n).trackers = s.trackers := rfl
@[simp] theorem State.dropAccess_tickets (n : Nat) : (s.dropAccess n).tickets = s.tickets := rfl
@[simp] theorem State.dropAccess_persistent (n : Nat) : (s.dropAccess n).persistent = s.persistent := rfl
@[simp] theorem State.dropAccess_epochs (n : Nat) : (s.dropAccess n).epochs = s.epochs := rfl
@[simp] theorem State.dropAccess_homeMap (n : Nat) : (s.dropAccess n).homeMap = s.homeMap := rfl
@[simp] theorem State.dropAccess_keys (n : Nat) : (s.dropAccess n).keys = s.keys := rfl
@[simp] theorem State.dropAccess_contexts (n : Nat) : (s.dropAccess n).contexts = s.contexts := rfl
@[simp] theorem State.dropAccess_window (n : Nat) : (s.dropAccess n).window = s.window := rfl
@[simp] theorem State.dropAccess_windowWait (n : Nat) : (s.dropAccess n).windowWait = s.windowWait := rfl
@[simp] theorem State.dropAccess_windowOwner (n : Nat) : (s.dropAccess n).windowOwner = s.windowOwner := rfl
@[simp] theorem State.dropAccess_windowDies (n : Nat) : (s.dropAccess n).windowDies = s.windowDies := rfl
@[simp] theorem State.dropAccess_scLap (n : Nat) : (s.dropAccess n).scLap = s.scLap := rfl
@[simp] theorem State.dropAccess_scAt (n : Nat) : (s.dropAccess n).scAt = s.scAt := rfl
@[simp] theorem State.dropAccess_scFresh (n : Nat) : (s.dropAccess n).scFresh = s.scFresh := rfl
@[simp] theorem State.dropAccess_scQueue (n : Nat) : (s.dropAccess n).scQueue = s.scQueue := rfl
@[simp] theorem State.dropAccess_scInput (n : Nat) : (s.dropAccess n).scInput = s.scInput := rfl
@[simp] theorem State.dropAccess_tilePorts (n : Nat) : (s.dropAccess n).tilePorts = s.tilePorts := rfl
@[simp] theorem State.dropAccess_bankTurn (n : Nat) : (s.dropAccess n).bankTurn = s.bankTurn := rfl
@[simp] theorem State.dropAccess_homeWait (n : Nat) : (s.dropAccess n).homeWait = s.homeWait := rfl
@[simp] theorem State.dropAccess_weights (n : Nat) : (s.dropAccess n).weights = s.weights := rfl
@[simp] theorem State.dropAccess_insts (n : Nat) : (s.dropAccess n).insts = s.insts := rfl
@[simp] theorem State.dropAccess_lastInst (n : Nat) : (s.dropAccess n).lastInst = s.lastInst := rfl
@[simp] theorem State.dropAccess_pools (n : Nat) : (s.dropAccess n).pools = s.pools := rfl
@[simp] theorem State.dropAccess_freezePool (n : Nat) : (s.dropAccess n).freezePool = s.freezePool := rfl
@[simp] theorem State.dropAccess_uaOut (n : Nat) : (s.dropAccess n).uaOut = s.uaOut := rfl
@[simp] theorem State.dropAccess_peerAnswer (n : Nat) : (s.dropAccess n).peerAnswer = s.peerAnswer := rfl
@[simp] theorem State.dropAccess_peerReqs (n : Nat) : (s.dropAccess n).peerReqs = s.peerReqs := rfl
@[simp] theorem State.dropAccess_uaSeen (n : Nat) : (s.dropAccess n).uaSeen = s.uaSeen := rfl
@[simp] theorem State.dropAccess_hostMem (n : Nat) : (s.dropAccess n).hostMem = s.hostMem := rfl
@[simp] theorem State.dropAccess_plinth (n : Nat) : (s.dropAccess n).plinth = s.plinth := rfl

@[simp] theorem State.addAccess_cur (a : Access) : (s.addAccess a).cur = s.cur := rfl
@[simp] theorem State.addAccess_agenda (a : Access) : (s.addAccess a).agenda = s.agenda := rfl
@[simp] theorem State.addAccess_freeCtr (a : Access) : (s.addAccess a).freeCtr = s.freeCtr := rfl
@[simp] theorem State.addAccess_nextId (a : Access) : (s.addAccess a).nextId = s.nextId := rfl
@[simp] theorem State.addAccess_tiles (a : Access) : (s.addAccess a).tiles = s.tiles := rfl
@[simp] theorem State.addAccess_dies (a : Access) : (s.addAccess a).dies = s.dies := rfl
@[simp] theorem State.addAccess_access (a : Access) : (s.addAccess a).access = s.access ++ [a] := rfl
@[simp] theorem State.addAccess_reports (a : Access) : (s.addAccess a).reports = s.reports := rfl
@[simp] theorem State.addAccess_messages (a : Access) : (s.addAccess a).messages = s.messages := rfl
@[simp] theorem State.addAccess_net (a : Access) : (s.addAccess a).net = s.net := rfl
@[simp] theorem State.addAccess_hbm (a : Access) : (s.addAccess a).hbm = s.hbm := rfl
@[simp] theorem State.addAccess_homes (a : Access) : (s.addAccess a).homes = s.homes := rfl
@[simp] theorem State.addAccess_sliceLines (a : Access) : (s.addAccess a).sliceLines = s.sliceLines := rfl
@[simp] theorem State.addAccess_walks (a : Access) : (s.addAccess a).walks = s.walks := rfl
@[simp] theorem State.addAccess_trackers (a : Access) : (s.addAccess a).trackers = s.trackers := rfl
@[simp] theorem State.addAccess_tickets (a : Access) : (s.addAccess a).tickets = s.tickets := rfl
@[simp] theorem State.addAccess_persistent (a : Access) : (s.addAccess a).persistent = s.persistent := rfl
@[simp] theorem State.addAccess_epochs (a : Access) : (s.addAccess a).epochs = s.epochs := rfl
@[simp] theorem State.addAccess_homeMap (a : Access) : (s.addAccess a).homeMap = s.homeMap := rfl
@[simp] theorem State.addAccess_keys (a : Access) : (s.addAccess a).keys = s.keys := rfl
@[simp] theorem State.addAccess_contexts (a : Access) : (s.addAccess a).contexts = s.contexts := rfl
@[simp] theorem State.addAccess_window (a : Access) : (s.addAccess a).window = s.window := rfl
@[simp] theorem State.addAccess_windowWait (a : Access) : (s.addAccess a).windowWait = s.windowWait := rfl
@[simp] theorem State.addAccess_windowOwner (a : Access) : (s.addAccess a).windowOwner = s.windowOwner := rfl
@[simp] theorem State.addAccess_windowDies (a : Access) : (s.addAccess a).windowDies = s.windowDies := rfl
@[simp] theorem State.addAccess_scLap (a : Access) : (s.addAccess a).scLap = s.scLap := rfl
@[simp] theorem State.addAccess_scAt (a : Access) : (s.addAccess a).scAt = s.scAt := rfl
@[simp] theorem State.addAccess_scFresh (a : Access) : (s.addAccess a).scFresh = s.scFresh := rfl
@[simp] theorem State.addAccess_scQueue (a : Access) : (s.addAccess a).scQueue = s.scQueue := rfl
@[simp] theorem State.addAccess_scInput (a : Access) : (s.addAccess a).scInput = s.scInput := rfl
@[simp] theorem State.addAccess_tilePorts (a : Access) : (s.addAccess a).tilePorts = s.tilePorts := rfl
@[simp] theorem State.addAccess_bankTurn (a : Access) : (s.addAccess a).bankTurn = s.bankTurn := rfl
@[simp] theorem State.addAccess_homeWait (a : Access) : (s.addAccess a).homeWait = s.homeWait := rfl
@[simp] theorem State.addAccess_weights (a : Access) : (s.addAccess a).weights = s.weights := rfl
@[simp] theorem State.addAccess_insts (a : Access) : (s.addAccess a).insts = s.insts := rfl
@[simp] theorem State.addAccess_lastInst (a : Access) : (s.addAccess a).lastInst = s.lastInst := rfl
@[simp] theorem State.addAccess_pools (a : Access) : (s.addAccess a).pools = s.pools := rfl
@[simp] theorem State.addAccess_freezePool (a : Access) : (s.addAccess a).freezePool = s.freezePool := rfl
@[simp] theorem State.addAccess_uaOut (a : Access) : (s.addAccess a).uaOut = s.uaOut := rfl
@[simp] theorem State.addAccess_peerAnswer (a : Access) : (s.addAccess a).peerAnswer = s.peerAnswer := rfl
@[simp] theorem State.addAccess_peerReqs (a : Access) : (s.addAccess a).peerReqs = s.peerReqs := rfl
@[simp] theorem State.addAccess_uaSeen (a : Access) : (s.addAccess a).uaSeen = s.uaSeen := rfl
@[simp] theorem State.addAccess_hostMem (a : Access) : (s.addAccess a).hostMem = s.hostMem := rfl
@[simp] theorem State.addAccess_plinth (a : Access) : (s.addAccess a).plinth = s.plinth := rfl

@[simp] theorem State.send_cur (n : Nat) (p : Packet) : (s.send n p).cur = s.cur := rfl
@[simp] theorem State.send_agenda (n : Nat) (p : Packet) : (s.send n p).agenda = s.agenda := rfl
@[simp] theorem State.send_freeCtr (n : Nat) (p : Packet) : (s.send n p).freeCtr = s.freeCtr := rfl
@[simp] theorem State.send_nextId (n : Nat) (p : Packet) : (s.send n p).nextId = s.nextId := rfl
@[simp] theorem State.send_tiles (n : Nat) (p : Packet) : (s.send n p).tiles = s.tiles := rfl
@[simp] theorem State.send_dies (n : Nat) (p : Packet) : (s.send n p).dies = s.dies := rfl
@[simp] theorem State.send_access (n : Nat) (p : Packet) : (s.send n p).access = s.access := rfl
@[simp] theorem State.send_reports (n : Nat) (p : Packet) : (s.send n p).reports = s.reports := rfl
@[simp] theorem State.send_messages (n : Nat) (p : Packet) : (s.send n p).messages = s.messages := rfl
@[simp] theorem State.send_net (n : Nat) (p : Packet) : (s.send n p).net = s.net ++ [⟨n, 0, p, 0, 0, p.src, p.src, 0⟩] := rfl
@[simp] theorem State.send_hbm (n : Nat) (p : Packet) : (s.send n p).hbm = s.hbm := rfl
@[simp] theorem State.send_homes (n : Nat) (p : Packet) : (s.send n p).homes = s.homes := rfl
@[simp] theorem State.send_sliceLines (n : Nat) (p : Packet) : (s.send n p).sliceLines = s.sliceLines := rfl
@[simp] theorem State.send_walks (n : Nat) (p : Packet) : (s.send n p).walks = s.walks := rfl
@[simp] theorem State.send_trackers (n : Nat) (p : Packet) : (s.send n p).trackers = s.trackers := rfl
@[simp] theorem State.send_tickets (n : Nat) (p : Packet) : (s.send n p).tickets = s.tickets := rfl
@[simp] theorem State.send_persistent (n : Nat) (p : Packet) : (s.send n p).persistent = s.persistent := rfl
@[simp] theorem State.send_epochs (n : Nat) (p : Packet) : (s.send n p).epochs = s.epochs := rfl
@[simp] theorem State.send_homeMap (n : Nat) (p : Packet) : (s.send n p).homeMap = s.homeMap := rfl
@[simp] theorem State.send_keys (n : Nat) (p : Packet) : (s.send n p).keys = s.keys := rfl
@[simp] theorem State.send_contexts (n : Nat) (p : Packet) : (s.send n p).contexts = s.contexts := rfl
@[simp] theorem State.send_window (n : Nat) (p : Packet) : (s.send n p).window = s.window := rfl
@[simp] theorem State.send_windowWait (n : Nat) (p : Packet) : (s.send n p).windowWait = s.windowWait := rfl
@[simp] theorem State.send_windowOwner (n : Nat) (p : Packet) : (s.send n p).windowOwner = s.windowOwner := rfl
@[simp] theorem State.send_windowDies (n : Nat) (p : Packet) : (s.send n p).windowDies = s.windowDies := rfl
@[simp] theorem State.send_scLap (n : Nat) (p : Packet) : (s.send n p).scLap = s.scLap := rfl
@[simp] theorem State.send_scAt (n : Nat) (p : Packet) : (s.send n p).scAt = s.scAt := rfl
@[simp] theorem State.send_scFresh (n : Nat) (p : Packet) : (s.send n p).scFresh = s.scFresh := rfl
@[simp] theorem State.send_scQueue (n : Nat) (p : Packet) : (s.send n p).scQueue = s.scQueue := rfl
@[simp] theorem State.send_scInput (n : Nat) (p : Packet) : (s.send n p).scInput = s.scInput := rfl
@[simp] theorem State.send_tilePorts (n : Nat) (p : Packet) : (s.send n p).tilePorts = s.tilePorts := rfl
@[simp] theorem State.send_bankTurn (n : Nat) (p : Packet) : (s.send n p).bankTurn = s.bankTurn := rfl
@[simp] theorem State.send_homeWait (n : Nat) (p : Packet) : (s.send n p).homeWait = s.homeWait := rfl
@[simp] theorem State.send_weights (n : Nat) (p : Packet) : (s.send n p).weights = s.weights := rfl
@[simp] theorem State.send_insts (n : Nat) (p : Packet) : (s.send n p).insts = s.insts := rfl
@[simp] theorem State.send_lastInst (n : Nat) (p : Packet) : (s.send n p).lastInst = s.lastInst := rfl
@[simp] theorem State.send_pools (n : Nat) (p : Packet) : (s.send n p).pools = s.pools := rfl
@[simp] theorem State.send_freezePool (n : Nat) (p : Packet) : (s.send n p).freezePool = s.freezePool := rfl
@[simp] theorem State.send_uaOut (n : Nat) (p : Packet) : (s.send n p).uaOut = s.uaOut := rfl
@[simp] theorem State.send_peerAnswer (n : Nat) (p : Packet) : (s.send n p).peerAnswer = s.peerAnswer := rfl
@[simp] theorem State.send_peerReqs (n : Nat) (p : Packet) : (s.send n p).peerReqs = s.peerReqs := rfl
@[simp] theorem State.send_uaSeen (n : Nat) (p : Packet) : (s.send n p).uaSeen = s.uaSeen := rfl
@[simp] theorem State.send_hostMem (n : Nat) (p : Packet) : (s.send n p).hostMem = s.hostMem := rfl
@[simp] theorem State.send_plinth (n : Nat) (p : Packet) : (s.send n p).plinth = s.plinth := rfl

@[simp] theorem State.setHome_cur (n : Nat) (h : HomeLine) : (s.setHome n h).cur = s.cur := rfl
@[simp] theorem State.setHome_agenda (n : Nat) (h : HomeLine) : (s.setHome n h).agenda = s.agenda := rfl
@[simp] theorem State.setHome_freeCtr (n : Nat) (h : HomeLine) : (s.setHome n h).freeCtr = s.freeCtr := rfl
@[simp] theorem State.setHome_nextId (n : Nat) (h : HomeLine) : (s.setHome n h).nextId = s.nextId := rfl
@[simp] theorem State.setHome_tiles (n : Nat) (h : HomeLine) : (s.setHome n h).tiles = s.tiles := rfl
@[simp] theorem State.setHome_dies (n : Nat) (h : HomeLine) : (s.setHome n h).dies = s.dies := rfl
@[simp] theorem State.setHome_access (n : Nat) (h : HomeLine) : (s.setHome n h).access = s.access := rfl
@[simp] theorem State.setHome_reports (n : Nat) (h : HomeLine) : (s.setHome n h).reports = s.reports := rfl
@[simp] theorem State.setHome_messages (n : Nat) (h : HomeLine) : (s.setHome n h).messages = s.messages := rfl
@[simp] theorem State.setHome_net (n : Nat) (h : HomeLine) : (s.setHome n h).net = s.net := rfl
@[simp] theorem State.setHome_hbm (n : Nat) (h : HomeLine) : (s.setHome n h).hbm = s.hbm := rfl
@[simp] theorem State.setHome_homes (n : Nat) (h : HomeLine) : (s.setHome n h).homes = tput s.homes n h := rfl
@[simp] theorem State.setHome_sliceLines (n : Nat) (h : HomeLine) : (s.setHome n h).sliceLines = s.sliceLines := rfl
@[simp] theorem State.setHome_walks (n : Nat) (h : HomeLine) : (s.setHome n h).walks = s.walks := rfl
@[simp] theorem State.setHome_trackers (n : Nat) (h : HomeLine) : (s.setHome n h).trackers = s.trackers := rfl
@[simp] theorem State.setHome_tickets (n : Nat) (h : HomeLine) : (s.setHome n h).tickets = s.tickets := rfl
@[simp] theorem State.setHome_persistent (n : Nat) (h : HomeLine) : (s.setHome n h).persistent = s.persistent := rfl
@[simp] theorem State.setHome_epochs (n : Nat) (h : HomeLine) : (s.setHome n h).epochs = s.epochs := rfl
@[simp] theorem State.setHome_homeMap (n : Nat) (h : HomeLine) : (s.setHome n h).homeMap = s.homeMap := rfl
@[simp] theorem State.setHome_keys (n : Nat) (h : HomeLine) : (s.setHome n h).keys = s.keys := rfl
@[simp] theorem State.setHome_contexts (n : Nat) (h : HomeLine) : (s.setHome n h).contexts = s.contexts := rfl
@[simp] theorem State.setHome_window (n : Nat) (h : HomeLine) : (s.setHome n h).window = s.window := rfl
@[simp] theorem State.setHome_windowWait (n : Nat) (h : HomeLine) : (s.setHome n h).windowWait = s.windowWait := rfl
@[simp] theorem State.setHome_windowOwner (n : Nat) (h : HomeLine) : (s.setHome n h).windowOwner = s.windowOwner := rfl
@[simp] theorem State.setHome_windowDies (n : Nat) (h : HomeLine) : (s.setHome n h).windowDies = s.windowDies := rfl
@[simp] theorem State.setHome_scLap (n : Nat) (h : HomeLine) : (s.setHome n h).scLap = s.scLap := rfl
@[simp] theorem State.setHome_scAt (n : Nat) (h : HomeLine) : (s.setHome n h).scAt = s.scAt := rfl
@[simp] theorem State.setHome_scFresh (n : Nat) (h : HomeLine) : (s.setHome n h).scFresh = s.scFresh := rfl
@[simp] theorem State.setHome_scQueue (n : Nat) (h : HomeLine) : (s.setHome n h).scQueue = s.scQueue := rfl
@[simp] theorem State.setHome_scInput (n : Nat) (h : HomeLine) : (s.setHome n h).scInput = s.scInput := rfl
@[simp] theorem State.setHome_tilePorts (n : Nat) (h : HomeLine) : (s.setHome n h).tilePorts = s.tilePorts := rfl
@[simp] theorem State.setHome_bankTurn (n : Nat) (h : HomeLine) : (s.setHome n h).bankTurn = s.bankTurn := rfl
@[simp] theorem State.setHome_homeWait (n : Nat) (h : HomeLine) : (s.setHome n h).homeWait = s.homeWait := rfl
@[simp] theorem State.setHome_weights (n : Nat) (h : HomeLine) : (s.setHome n h).weights = s.weights := rfl
@[simp] theorem State.setHome_insts (n : Nat) (h : HomeLine) : (s.setHome n h).insts = s.insts := rfl
@[simp] theorem State.setHome_lastInst (n : Nat) (h : HomeLine) : (s.setHome n h).lastInst = s.lastInst := rfl
@[simp] theorem State.setHome_pools (n : Nat) (h : HomeLine) : (s.setHome n h).pools = s.pools := rfl
@[simp] theorem State.setHome_freezePool (n : Nat) (h : HomeLine) : (s.setHome n h).freezePool = s.freezePool := rfl
@[simp] theorem State.setHome_uaOut (n : Nat) (h : HomeLine) : (s.setHome n h).uaOut = s.uaOut := rfl
@[simp] theorem State.setHome_peerAnswer (n : Nat) (h : HomeLine) : (s.setHome n h).peerAnswer = s.peerAnswer := rfl
@[simp] theorem State.setHome_peerReqs (n : Nat) (h : HomeLine) : (s.setHome n h).peerReqs = s.peerReqs := rfl
@[simp] theorem State.setHome_uaSeen (n : Nat) (h : HomeLine) : (s.setHome n h).uaSeen = s.uaSeen := rfl
@[simp] theorem State.setHome_hostMem (n : Nat) (h : HomeLine) : (s.setHome n h).hostMem = s.hostMem := rfl
@[simp] theorem State.setHome_plinth (n : Nat) (h : HomeLine) : (s.setHome n h).plinth = s.plinth := rfl

@[simp] theorem State.setWord_cur (n : Nat) (w : WindowWord) : (s.setWord n w).cur = s.cur := rfl
@[simp] theorem State.setWord_agenda (n : Nat) (w : WindowWord) : (s.setWord n w).agenda = s.agenda := rfl
@[simp] theorem State.setWord_freeCtr (n : Nat) (w : WindowWord) : (s.setWord n w).freeCtr = s.freeCtr := rfl
@[simp] theorem State.setWord_nextId (n : Nat) (w : WindowWord) : (s.setWord n w).nextId = s.nextId := rfl
@[simp] theorem State.setWord_tiles (n : Nat) (w : WindowWord) : (s.setWord n w).tiles = s.tiles := rfl
@[simp] theorem State.setWord_dies (n : Nat) (w : WindowWord) : (s.setWord n w).dies = s.dies := rfl
@[simp] theorem State.setWord_access (n : Nat) (w : WindowWord) : (s.setWord n w).access = s.access := rfl
@[simp] theorem State.setWord_reports (n : Nat) (w : WindowWord) : (s.setWord n w).reports = s.reports := rfl
@[simp] theorem State.setWord_messages (n : Nat) (w : WindowWord) : (s.setWord n w).messages = s.messages := rfl
@[simp] theorem State.setWord_net (n : Nat) (w : WindowWord) : (s.setWord n w).net = s.net := rfl
@[simp] theorem State.setWord_hbm (n : Nat) (w : WindowWord) : (s.setWord n w).hbm = s.hbm := rfl
@[simp] theorem State.setWord_homes (n : Nat) (w : WindowWord) : (s.setWord n w).homes = s.homes := rfl
@[simp] theorem State.setWord_sliceLines (n : Nat) (w : WindowWord) : (s.setWord n w).sliceLines = s.sliceLines := rfl
@[simp] theorem State.setWord_walks (n : Nat) (w : WindowWord) : (s.setWord n w).walks = s.walks := rfl
@[simp] theorem State.setWord_trackers (n : Nat) (w : WindowWord) : (s.setWord n w).trackers = s.trackers := rfl
@[simp] theorem State.setWord_tickets (n : Nat) (w : WindowWord) : (s.setWord n w).tickets = s.tickets := rfl
@[simp] theorem State.setWord_persistent (n : Nat) (w : WindowWord) : (s.setWord n w).persistent = s.persistent := rfl
@[simp] theorem State.setWord_epochs (n : Nat) (w : WindowWord) : (s.setWord n w).epochs = s.epochs := rfl
@[simp] theorem State.setWord_homeMap (n : Nat) (w : WindowWord) : (s.setWord n w).homeMap = s.homeMap := rfl
@[simp] theorem State.setWord_keys (n : Nat) (w : WindowWord) : (s.setWord n w).keys = s.keys := rfl
@[simp] theorem State.setWord_contexts (n : Nat) (w : WindowWord) : (s.setWord n w).contexts = s.contexts := rfl
@[simp] theorem State.setWord_window (n : Nat) (w : WindowWord) : (s.setWord n w).window = tput s.window (n / 8) w := rfl
@[simp] theorem State.setWord_windowWait (n : Nat) (w : WindowWord) : (s.setWord n w).windowWait = s.windowWait := rfl
@[simp] theorem State.setWord_windowOwner (n : Nat) (w : WindowWord) : (s.setWord n w).windowOwner = s.windowOwner := rfl
@[simp] theorem State.setWord_windowDies (n : Nat) (w : WindowWord) : (s.setWord n w).windowDies = s.windowDies := rfl
@[simp] theorem State.setWord_scLap (n : Nat) (w : WindowWord) : (s.setWord n w).scLap = s.scLap := rfl
@[simp] theorem State.setWord_scAt (n : Nat) (w : WindowWord) : (s.setWord n w).scAt = s.scAt := rfl
@[simp] theorem State.setWord_scFresh (n : Nat) (w : WindowWord) : (s.setWord n w).scFresh = s.scFresh := rfl
@[simp] theorem State.setWord_scQueue (n : Nat) (w : WindowWord) : (s.setWord n w).scQueue = s.scQueue := rfl
@[simp] theorem State.setWord_scInput (n : Nat) (w : WindowWord) : (s.setWord n w).scInput = s.scInput := rfl
@[simp] theorem State.setWord_tilePorts (n : Nat) (w : WindowWord) : (s.setWord n w).tilePorts = s.tilePorts := rfl
@[simp] theorem State.setWord_bankTurn (n : Nat) (w : WindowWord) : (s.setWord n w).bankTurn = s.bankTurn := rfl
@[simp] theorem State.setWord_homeWait (n : Nat) (w : WindowWord) : (s.setWord n w).homeWait = s.homeWait := rfl
@[simp] theorem State.setWord_weights (n : Nat) (w : WindowWord) : (s.setWord n w).weights = s.weights := rfl
@[simp] theorem State.setWord_insts (n : Nat) (w : WindowWord) : (s.setWord n w).insts = s.insts := rfl
@[simp] theorem State.setWord_lastInst (n : Nat) (w : WindowWord) : (s.setWord n w).lastInst = s.lastInst := rfl
@[simp] theorem State.setWord_pools (n : Nat) (w : WindowWord) : (s.setWord n w).pools = s.pools := rfl
@[simp] theorem State.setWord_freezePool (n : Nat) (w : WindowWord) : (s.setWord n w).freezePool = s.freezePool := rfl
@[simp] theorem State.setWord_uaOut (n : Nat) (w : WindowWord) : (s.setWord n w).uaOut = s.uaOut := rfl
@[simp] theorem State.setWord_peerAnswer (n : Nat) (w : WindowWord) : (s.setWord n w).peerAnswer = s.peerAnswer := rfl
@[simp] theorem State.setWord_peerReqs (n : Nat) (w : WindowWord) : (s.setWord n w).peerReqs = s.peerReqs := rfl
@[simp] theorem State.setWord_uaSeen (n : Nat) (w : WindowWord) : (s.setWord n w).uaSeen = s.uaSeen := rfl
@[simp] theorem State.setWord_hostMem (n : Nat) (w : WindowWord) : (s.setWord n w).hostMem = s.hostMem := rfl
@[simp] theorem State.setWord_plinth (n : Nat) (w : WindowWord) : (s.setWord n w).plinth = s.plinth := rfl

@[simp] theorem State.setCacheLine_cur (d n : Nat) (c : CacheLine) : (s.setCacheLine d n c).cur = s.cur := rfl
@[simp] theorem State.setCacheLine_agenda (d n : Nat) (c : CacheLine) : (s.setCacheLine d n c).agenda = s.agenda := rfl
@[simp] theorem State.setCacheLine_freeCtr (d n : Nat) (c : CacheLine) : (s.setCacheLine d n c).freeCtr = s.freeCtr := rfl
@[simp] theorem State.setCacheLine_nextId (d n : Nat) (c : CacheLine) : (s.setCacheLine d n c).nextId = s.nextId := rfl
@[simp] theorem State.setCacheLine_tiles (d n : Nat) (c : CacheLine) : (s.setCacheLine d n c).tiles = s.tiles := rfl
@[simp] theorem State.setCacheLine_dies (d n : Nat) (c : CacheLine) : (s.setCacheLine d n c).dies = vset s.dies d { s.die d with lines := if c.tok = 0 then tdel (s.die d).lines n else tput (s.die d).lines n c } := rfl
@[simp] theorem State.setCacheLine_access (d n : Nat) (c : CacheLine) : (s.setCacheLine d n c).access = s.access := rfl
@[simp] theorem State.setCacheLine_reports (d n : Nat) (c : CacheLine) : (s.setCacheLine d n c).reports = s.reports := rfl
@[simp] theorem State.setCacheLine_messages (d n : Nat) (c : CacheLine) : (s.setCacheLine d n c).messages = s.messages := rfl
@[simp] theorem State.setCacheLine_net (d n : Nat) (c : CacheLine) : (s.setCacheLine d n c).net = s.net := rfl
@[simp] theorem State.setCacheLine_hbm (d n : Nat) (c : CacheLine) : (s.setCacheLine d n c).hbm = s.hbm := rfl
@[simp] theorem State.setCacheLine_homes (d n : Nat) (c : CacheLine) : (s.setCacheLine d n c).homes = s.homes := rfl
@[simp] theorem State.setCacheLine_sliceLines (d n : Nat) (c : CacheLine) : (s.setCacheLine d n c).sliceLines = s.sliceLines := rfl
@[simp] theorem State.setCacheLine_walks (d n : Nat) (c : CacheLine) : (s.setCacheLine d n c).walks = s.walks := rfl
@[simp] theorem State.setCacheLine_trackers (d n : Nat) (c : CacheLine) : (s.setCacheLine d n c).trackers = s.trackers := rfl
@[simp] theorem State.setCacheLine_tickets (d n : Nat) (c : CacheLine) : (s.setCacheLine d n c).tickets = s.tickets := rfl
@[simp] theorem State.setCacheLine_persistent (d n : Nat) (c : CacheLine) : (s.setCacheLine d n c).persistent = s.persistent := rfl
@[simp] theorem State.setCacheLine_epochs (d n : Nat) (c : CacheLine) : (s.setCacheLine d n c).epochs = s.epochs := rfl
@[simp] theorem State.setCacheLine_homeMap (d n : Nat) (c : CacheLine) : (s.setCacheLine d n c).homeMap = s.homeMap := rfl
@[simp] theorem State.setCacheLine_keys (d n : Nat) (c : CacheLine) : (s.setCacheLine d n c).keys = s.keys := rfl
@[simp] theorem State.setCacheLine_contexts (d n : Nat) (c : CacheLine) : (s.setCacheLine d n c).contexts = s.contexts := rfl
@[simp] theorem State.setCacheLine_window (d n : Nat) (c : CacheLine) : (s.setCacheLine d n c).window = s.window := rfl
@[simp] theorem State.setCacheLine_windowWait (d n : Nat) (c : CacheLine) : (s.setCacheLine d n c).windowWait = s.windowWait := rfl
@[simp] theorem State.setCacheLine_windowOwner (d n : Nat) (c : CacheLine) : (s.setCacheLine d n c).windowOwner = s.windowOwner := rfl
@[simp] theorem State.setCacheLine_windowDies (d n : Nat) (c : CacheLine) : (s.setCacheLine d n c).windowDies = s.windowDies := rfl
@[simp] theorem State.setCacheLine_scLap (d n : Nat) (c : CacheLine) : (s.setCacheLine d n c).scLap = s.scLap := rfl
@[simp] theorem State.setCacheLine_scAt (d n : Nat) (c : CacheLine) : (s.setCacheLine d n c).scAt = s.scAt := rfl
@[simp] theorem State.setCacheLine_scFresh (d n : Nat) (c : CacheLine) : (s.setCacheLine d n c).scFresh = s.scFresh := rfl
@[simp] theorem State.setCacheLine_scQueue (d n : Nat) (c : CacheLine) : (s.setCacheLine d n c).scQueue = s.scQueue := rfl
@[simp] theorem State.setCacheLine_scInput (d n : Nat) (c : CacheLine) : (s.setCacheLine d n c).scInput = s.scInput := rfl
@[simp] theorem State.setCacheLine_tilePorts (d n : Nat) (c : CacheLine) : (s.setCacheLine d n c).tilePorts = s.tilePorts := rfl
@[simp] theorem State.setCacheLine_bankTurn (d n : Nat) (c : CacheLine) : (s.setCacheLine d n c).bankTurn = s.bankTurn := rfl
@[simp] theorem State.setCacheLine_homeWait (d n : Nat) (c : CacheLine) : (s.setCacheLine d n c).homeWait = s.homeWait := rfl
@[simp] theorem State.setCacheLine_weights (d n : Nat) (c : CacheLine) : (s.setCacheLine d n c).weights = s.weights := rfl
@[simp] theorem State.setCacheLine_insts (d n : Nat) (c : CacheLine) : (s.setCacheLine d n c).insts = s.insts := rfl
@[simp] theorem State.setCacheLine_lastInst (d n : Nat) (c : CacheLine) : (s.setCacheLine d n c).lastInst = s.lastInst := rfl
@[simp] theorem State.setCacheLine_pools (d n : Nat) (c : CacheLine) : (s.setCacheLine d n c).pools = s.pools := rfl
@[simp] theorem State.setCacheLine_freezePool (d n : Nat) (c : CacheLine) : (s.setCacheLine d n c).freezePool = s.freezePool := rfl
@[simp] theorem State.setCacheLine_uaOut (d n : Nat) (c : CacheLine) : (s.setCacheLine d n c).uaOut = s.uaOut := rfl
@[simp] theorem State.setCacheLine_peerAnswer (d n : Nat) (c : CacheLine) : (s.setCacheLine d n c).peerAnswer = s.peerAnswer := rfl
@[simp] theorem State.setCacheLine_peerReqs (d n : Nat) (c : CacheLine) : (s.setCacheLine d n c).peerReqs = s.peerReqs := rfl
@[simp] theorem State.setCacheLine_uaSeen (d n : Nat) (c : CacheLine) : (s.setCacheLine d n c).uaSeen = s.uaSeen := rfl
@[simp] theorem State.setCacheLine_hostMem (d n : Nat) (c : CacheLine) : (s.setCacheLine d n c).hostMem = s.hostMem := rfl
@[simp] theorem State.setCacheLine_plinth (d n : Nat) (c : CacheLine) : (s.setCacheLine d n c).plinth = s.plinth := rfl

@[simp] theorem State.report_cur (d n k : Nat) (c : Report) : (s.report d n k c).cur = s.cur := rfl
@[simp] theorem State.report_agenda (d n k : Nat) (c : Report) : (s.report d n k c).agenda = s.agenda := rfl
@[simp] theorem State.report_freeCtr (d n k : Nat) (c : Report) : (s.report d n k c).freeCtr = s.freeCtr := rfl
@[simp] theorem State.report_nextId (d n k : Nat) (c : Report) : (s.report d n k c).nextId = s.nextId := rfl
@[simp] theorem State.report_tiles (d n k : Nat) (c : Report) : (s.report d n k c).tiles = s.tiles := rfl
@[simp] theorem State.report_dies (d n k : Nat) (c : Report) : (s.report d n k c).dies = s.dies := rfl
@[simp] theorem State.report_access (d n k : Nat) (c : Report) : (s.report d n k c).access = s.access := rfl
@[simp] theorem State.report_reports (d n k : Nat) (c : Report) : (s.report d n k c).reports = s.reports ++ [(.strand d n k, c)] := rfl
@[simp] theorem State.report_messages (d n k : Nat) (c : Report) : (s.report d n k c).messages = s.messages := rfl
@[simp] theorem State.report_net (d n k : Nat) (c : Report) : (s.report d n k c).net = s.net := rfl
@[simp] theorem State.report_hbm (d n k : Nat) (c : Report) : (s.report d n k c).hbm = s.hbm := rfl
@[simp] theorem State.report_homes (d n k : Nat) (c : Report) : (s.report d n k c).homes = s.homes := rfl
@[simp] theorem State.report_sliceLines (d n k : Nat) (c : Report) : (s.report d n k c).sliceLines = s.sliceLines := rfl
@[simp] theorem State.report_walks (d n k : Nat) (c : Report) : (s.report d n k c).walks = s.walks := rfl
@[simp] theorem State.report_trackers (d n k : Nat) (c : Report) : (s.report d n k c).trackers = s.trackers := rfl
@[simp] theorem State.report_tickets (d n k : Nat) (c : Report) : (s.report d n k c).tickets = s.tickets := rfl
@[simp] theorem State.report_persistent (d n k : Nat) (c : Report) : (s.report d n k c).persistent = s.persistent := rfl
@[simp] theorem State.report_epochs (d n k : Nat) (c : Report) : (s.report d n k c).epochs = s.epochs := rfl
@[simp] theorem State.report_homeMap (d n k : Nat) (c : Report) : (s.report d n k c).homeMap = s.homeMap := rfl
@[simp] theorem State.report_keys (d n k : Nat) (c : Report) : (s.report d n k c).keys = s.keys := rfl
@[simp] theorem State.report_contexts (d n k : Nat) (c : Report) : (s.report d n k c).contexts = s.contexts := rfl
@[simp] theorem State.report_window (d n k : Nat) (c : Report) : (s.report d n k c).window = s.window := rfl
@[simp] theorem State.report_windowWait (d n k : Nat) (c : Report) : (s.report d n k c).windowWait = s.windowWait := rfl
@[simp] theorem State.report_windowOwner (d n k : Nat) (c : Report) : (s.report d n k c).windowOwner = s.windowOwner := rfl
@[simp] theorem State.report_windowDies (d n k : Nat) (c : Report) : (s.report d n k c).windowDies = s.windowDies := rfl
@[simp] theorem State.report_scLap (d n k : Nat) (c : Report) : (s.report d n k c).scLap = s.scLap := rfl
@[simp] theorem State.report_scAt (d n k : Nat) (c : Report) : (s.report d n k c).scAt = s.scAt := rfl
@[simp] theorem State.report_scFresh (d n k : Nat) (c : Report) : (s.report d n k c).scFresh = s.scFresh := rfl
@[simp] theorem State.report_scQueue (d n k : Nat) (c : Report) : (s.report d n k c).scQueue = s.scQueue := rfl
@[simp] theorem State.report_scInput (d n k : Nat) (c : Report) : (s.report d n k c).scInput = s.scInput := rfl
@[simp] theorem State.report_tilePorts (d n k : Nat) (c : Report) : (s.report d n k c).tilePorts = s.tilePorts := rfl
@[simp] theorem State.report_bankTurn (d n k : Nat) (c : Report) : (s.report d n k c).bankTurn = s.bankTurn := rfl
@[simp] theorem State.report_homeWait (d n k : Nat) (c : Report) : (s.report d n k c).homeWait = s.homeWait := rfl
@[simp] theorem State.report_weights (d n k : Nat) (c : Report) : (s.report d n k c).weights = s.weights := rfl
@[simp] theorem State.report_insts (d n k : Nat) (c : Report) : (s.report d n k c).insts = s.insts := rfl
@[simp] theorem State.report_lastInst (d n k : Nat) (c : Report) : (s.report d n k c).lastInst = s.lastInst := rfl
@[simp] theorem State.report_pools (d n k : Nat) (c : Report) : (s.report d n k c).pools = s.pools := rfl
@[simp] theorem State.report_freezePool (d n k : Nat) (c : Report) : (s.report d n k c).freezePool = s.freezePool := rfl
@[simp] theorem State.report_uaOut (d n k : Nat) (c : Report) : (s.report d n k c).uaOut = s.uaOut := rfl
@[simp] theorem State.report_peerAnswer (d n k : Nat) (c : Report) : (s.report d n k c).peerAnswer = s.peerAnswer := rfl
@[simp] theorem State.report_peerReqs (d n k : Nat) (c : Report) : (s.report d n k c).peerReqs = s.peerReqs := rfl
@[simp] theorem State.report_uaSeen (d n k : Nat) (c : Report) : (s.report d n k c).uaSeen = s.uaSeen := rfl
@[simp] theorem State.report_hostMem (d n k : Nat) (c : Report) : (s.report d n k c).hostMem = s.hostMem := rfl
@[simp] theorem State.report_plinth (d n k : Nat) (c : Report) : (s.report d n k c).plinth = s.plinth := rfl

@[simp] theorem State.routeReport_cur (d n k : Nat) (c : Report) : (s.routeReport d n k c).cur = s.cur := rfl
@[simp] theorem State.routeReport_agenda (d n k : Nat) (c : Report) : (s.routeReport d n k c).agenda = s.agenda := rfl
@[simp] theorem State.routeReport_freeCtr (d n k : Nat) (c : Report) : (s.routeReport d n k c).freeCtr = s.freeCtr := rfl
@[simp] theorem State.routeReport_nextId (d n k : Nat) (c : Report) : (s.routeReport d n k c).nextId = s.nextId := rfl
@[simp] theorem State.routeReport_tiles (d n k : Nat) (c : Report) : (s.routeReport d n k c).tiles = s.tiles := rfl
@[simp] theorem State.routeReport_dies (d n k : Nat) (c : Report) : (s.routeReport d n k c).dies = s.dies := rfl
@[simp] theorem State.routeReport_access (d n k : Nat) (c : Report) : (s.routeReport d n k c).access = s.access := rfl
@[simp] theorem State.routeReport_reports (d n k : Nat) (c : Report) : (s.routeReport d n k c).reports = s.reports ++ [(.routed d n k, c)] := rfl
@[simp] theorem State.routeReport_messages (d n k : Nat) (c : Report) : (s.routeReport d n k c).messages = s.messages := rfl
@[simp] theorem State.routeReport_net (d n k : Nat) (c : Report) : (s.routeReport d n k c).net = s.net := rfl
@[simp] theorem State.routeReport_hbm (d n k : Nat) (c : Report) : (s.routeReport d n k c).hbm = s.hbm := rfl
@[simp] theorem State.routeReport_homes (d n k : Nat) (c : Report) : (s.routeReport d n k c).homes = s.homes := rfl
@[simp] theorem State.routeReport_sliceLines (d n k : Nat) (c : Report) : (s.routeReport d n k c).sliceLines = s.sliceLines := rfl
@[simp] theorem State.routeReport_walks (d n k : Nat) (c : Report) : (s.routeReport d n k c).walks = s.walks := rfl
@[simp] theorem State.routeReport_trackers (d n k : Nat) (c : Report) : (s.routeReport d n k c).trackers = s.trackers := rfl
@[simp] theorem State.routeReport_tickets (d n k : Nat) (c : Report) : (s.routeReport d n k c).tickets = s.tickets := rfl
@[simp] theorem State.routeReport_persistent (d n k : Nat) (c : Report) : (s.routeReport d n k c).persistent = s.persistent := rfl
@[simp] theorem State.routeReport_epochs (d n k : Nat) (c : Report) : (s.routeReport d n k c).epochs = s.epochs := rfl
@[simp] theorem State.routeReport_homeMap (d n k : Nat) (c : Report) : (s.routeReport d n k c).homeMap = s.homeMap := rfl
@[simp] theorem State.routeReport_keys (d n k : Nat) (c : Report) : (s.routeReport d n k c).keys = s.keys := rfl
@[simp] theorem State.routeReport_contexts (d n k : Nat) (c : Report) : (s.routeReport d n k c).contexts = s.contexts := rfl
@[simp] theorem State.routeReport_window (d n k : Nat) (c : Report) : (s.routeReport d n k c).window = s.window := rfl
@[simp] theorem State.routeReport_windowWait (d n k : Nat) (c : Report) : (s.routeReport d n k c).windowWait = s.windowWait := rfl
@[simp] theorem State.routeReport_windowOwner (d n k : Nat) (c : Report) : (s.routeReport d n k c).windowOwner = s.windowOwner := rfl
@[simp] theorem State.routeReport_windowDies (d n k : Nat) (c : Report) : (s.routeReport d n k c).windowDies = s.windowDies := rfl
@[simp] theorem State.routeReport_scLap (d n k : Nat) (c : Report) : (s.routeReport d n k c).scLap = s.scLap := rfl
@[simp] theorem State.routeReport_scAt (d n k : Nat) (c : Report) : (s.routeReport d n k c).scAt = s.scAt := rfl
@[simp] theorem State.routeReport_scFresh (d n k : Nat) (c : Report) : (s.routeReport d n k c).scFresh = s.scFresh := rfl
@[simp] theorem State.routeReport_scQueue (d n k : Nat) (c : Report) : (s.routeReport d n k c).scQueue = s.scQueue := rfl
@[simp] theorem State.routeReport_scInput (d n k : Nat) (c : Report) : (s.routeReport d n k c).scInput = s.scInput := rfl
@[simp] theorem State.routeReport_tilePorts (d n k : Nat) (c : Report) : (s.routeReport d n k c).tilePorts = s.tilePorts := rfl
@[simp] theorem State.routeReport_bankTurn (d n k : Nat) (c : Report) : (s.routeReport d n k c).bankTurn = s.bankTurn := rfl
@[simp] theorem State.routeReport_homeWait (d n k : Nat) (c : Report) : (s.routeReport d n k c).homeWait = s.homeWait := rfl
@[simp] theorem State.routeReport_weights (d n k : Nat) (c : Report) : (s.routeReport d n k c).weights = s.weights := rfl
@[simp] theorem State.routeReport_insts (d n k : Nat) (c : Report) : (s.routeReport d n k c).insts = s.insts := rfl
@[simp] theorem State.routeReport_lastInst (d n k : Nat) (c : Report) : (s.routeReport d n k c).lastInst = s.lastInst := rfl
@[simp] theorem State.routeReport_pools (d n k : Nat) (c : Report) : (s.routeReport d n k c).pools = s.pools := rfl
@[simp] theorem State.routeReport_freezePool (d n k : Nat) (c : Report) : (s.routeReport d n k c).freezePool = s.freezePool := rfl
@[simp] theorem State.routeReport_uaOut (d n k : Nat) (c : Report) : (s.routeReport d n k c).uaOut = s.uaOut := rfl
@[simp] theorem State.routeReport_peerAnswer (d n k : Nat) (c : Report) : (s.routeReport d n k c).peerAnswer = s.peerAnswer := rfl
@[simp] theorem State.routeReport_peerReqs (d n k : Nat) (c : Report) : (s.routeReport d n k c).peerReqs = s.peerReqs := rfl
@[simp] theorem State.routeReport_uaSeen (d n k : Nat) (c : Report) : (s.routeReport d n k c).uaSeen = s.uaSeen := rfl
@[simp] theorem State.routeReport_hostMem (d n k : Nat) (c : Report) : (s.routeReport d n k c).hostMem = s.hostMem := rfl
@[simp] theorem State.routeReport_plinth (d n k : Nat) (c : Report) : (s.routeReport d n k c).plinth = s.plinth := rfl


/-! ### Reads after updates -/

theorem State.tile_setTile (d n e q : Nat) (x : Tile) :
    (s.setTile d n x).tile e q = if tileKey e q = tileKey d n then x else s.tile e q := by
  simp only [State.tile, State.setTile_tiles, tgetD, tget_tput]; split <;> rfl
@[simp] theorem State.tile_setTile_self (d n : Nat) (x : Tile) : (s.setTile d n x).tile d n = x := by simp [State.tile_setTile]
@[simp] theorem State.tile_modTile_self (d n : Nat) (f : Tile → Tile) : (s.modTile d n f).tile d n = f (s.tile d n) := by simp [State.modTile]
theorem State.tile_modTile (d n e q : Nat) (f : Tile → Tile) :
    (s.modTile d n f).tile e q = if tileKey e q = tileKey d n then f (s.tile d n) else s.tile e q := by simp [State.modTile, State.tile_setTile]
theorem State.tile_modStrand (d n k e q : Nat) (f : Strand → Strand) :
    (s.modStrand d n k f).tile e q =
      if tileKey e q = tileKey d n then (s.tile d n).setStrand k (f ((s.tile d n).strand k)) else s.tile e q := by
  simp [State.modStrand, State.tile_modTile]
theorem Tile.strand_setStrand (t : Tile) (k m : Nat) (x : Strand) : (t.setStrand k x).strand m = if m % 4 = k % 4 then x else t.strand m := by
  simp [Tile.strand, Tile.setStrand, vget_vset]
@[simp] theorem Tile.strand_setStrand_self (t : Tile) (k : Nat) (x : Strand) : (t.setStrand k x).strand k = x := by simp [Tile.strand_setStrand]
@[simp] theorem State.here_modMe (f : Strand → Strand) : (s.modMe f).here = s.here.setStrand s.cur.strand (f s.me) := by
  simp [State.here, State.modMe, State.modStrand, State.me]
@[simp] theorem State.me_modMe (f : Strand → Strand) : (s.modMe f).me = f s.me := by
  rw [State.me, State.here_modMe]; simp
@[simp] theorem State.here_modHere (f : Tile → Tile) : (s.modHere f).here = f s.here := by simp [State.here, State.modHere]
@[simp] theorem State.strand_modStrand_self (d n k : Nat) (f : Strand → Strand) : (s.modStrand d n k f).strand d n k = f (s.strand d n k) := by
  simp [State.strand, State.tile_modStrand]
@[simp] theorem State.die_modDie_self (d : Nat) (f : FDie → FDie) : (s.modDie d f).die d = f (s.die d) := by simp [State.die]
theorem State.die_modDie (d e : Nat) (f : FDie → FDie) : (s.modDie d f).die e = if e % 8 = d % 8 then f (s.die d) else s.die e := by
  simp [State.die, vget_vset]
@[simp] theorem State.record_setRecord_self (d r : Nat) (x : Record) : (s.setRecord d r x).record d r = some x := by
  simp [State.record, State.setRecord]
@[simp] theorem State.record_modRecord_self (d r : Nat) (f : Record → Record) : (s.modRecord d r f).record d r = (s.record d r).map f := by
  simp only [State.modRecord]; split <;> simp_all

/-! ### Registers of a strand -/

@[simp] theorem Strand.rd_zero (t : Strand) : t.rd 0 = 0 := rfl
/-- A write reaches its register, but for x0, which discards it. -/
theorem Strand.rd_wr (t : Strand) (d r : Reg) (v : Word) : (t.wr d v).rd r = if r = d ∧ d ≠ 0 then v else t.rd r := by
  by_cases h : d = 0
  · subst h; simp [Strand.wr]
  · by_cases g : r = d
    · subst g; simp [Strand.wr, Strand.rd, h]
    · by_cases k : r = 0
      · subst k; simp [h, Ne.symm h, Strand.rd]
      · simp only [Strand.wr, if_neg h, Strand.rd, if_neg k, g, false_and, if_false]
        exact Vector.getElem_set_ne _ _ (fun e => g (Fin.ext e.symm))
theorem Strand.rd_wr_self {d : Reg} (h : d ≠ 0) (t : Strand) (v : Word) : (t.wr d v).rd d = v := by simp [Strand.rd_wr, h]
@[simp] theorem Strand.wr_zero (t : Strand) (v : Word) : t.wr 0 v = t := rfl

@[simp] theorem Strand.wr_p (t : Strand) (d : Reg) (v : Word) : (t.wr d v).p = t.p := by simp only [Strand.wr]; split <;> rfl
@[simp] theorem Strand.wr_k (t : Strand) (d : Reg) (v : Word) : (t.wr d v).k = t.k := by simp only [Strand.wr]; split <;> rfl
@[simp] theorem Strand.wr_pc (t : Strand) (d : Reg) (v : Word) : (t.wr d v).pc = t.pc := by simp only [Strand.wr]; split <;> rfl
@[simp] theorem Strand.wr_sb (t : Strand) (d : Reg) (v : Word) : (t.wr d v).sb = t.sb := by simp only [Strand.wr]; split <;> rfl
@[simp] theorem Strand.wr_prv (t : Strand) (d : Reg) (v : Word) : (t.wr d v).prv = t.prv := by simp only [Strand.wr]; split <;> rfl
@[simp] theorem Strand.wr_intrap (t : Strand) (d : Reg) (v : Word) : (t.wr d v).intrap = t.intrap := by simp only [Strand.wr]; split <;> rfl
@[simp] theorem Strand.wr_imp (t : Strand) (d : Reg) (v : Word) : (t.wr d v).imp = t.imp := by simp only [Strand.wr]; split <;> rfl
@[simp] theorem Strand.wr_barbrk (t : Strand) (d : Reg) (v : Word) : (t.wr d v).barbrk = t.barbrk := by simp only [Strand.wr]; split <;> rfl
@[simp] theorem Strand.wr_causeCode (t : Strand) (d : Reg) (v : Word) : (t.wr d v).causeCode = t.causeCode := by simp only [Strand.wr]; split <;> rfl
@[simp] theorem Strand.wr_causeDetail (t : Strand) (d : Reg) (v : Word) : (t.wr d v).causeDetail = t.causeDetail := by simp only [Strand.wr]; split <;> rfl
@[simp] theorem Strand.wr_epc (t : Strand) (d : Reg) (v : Word) : (t.wr d v).epc = t.epc := by simp only [Strand.wr]; split <;> rfl
@[simp] theorem Strand.wr_tvec (t : Strand) (d : Reg) (v : Word) : (t.wr d v).tvec = t.tvec := by simp only [Strand.wr]; split <;> rfl
@[simp] theorem Strand.wr_eval (t : Strand) (d : Reg) (v : Word) : (t.wr d v).eval = t.eval := by simp only [Strand.wr]; split <;> rfl
@[simp] theorem Strand.wr_wid (t : Strand) (d : Reg) (v : Word) : (t.wr d v).wid = t.wid := by simp only [Strand.wr]; split <;> rfl
@[simp] theorem Strand.wr_run (t : Strand) (d : Reg) (v : Word) : (t.wr d v).run = t.run := by simp only [Strand.wr]; split <;> rfl
@[simp] theorem Strand.wr_wake (t : Strand) (d : Reg) (v : Word) : (t.wr d v).wake = t.wake := by simp only [Strand.wr]; split <;> rfl
@[simp] theorem Strand.wr_pending (t : Strand) (d : Reg) (v : Word) : (t.wr d v).pending = t.pending := by simp only [Strand.wr]; split <;> rfl
@[simp] theorem Strand.wr_busy (t : Strand) (d : Reg) (v : Word) : (t.wr d v).busy = t.busy := by simp only [Strand.wr]; split <;> rfl
@[simp] theorem Strand.wr_yielded (t : Strand) (d : Reg) (v : Word) : (t.wr d v).yielded = t.yielded := by simp only [Strand.wr]; split <;> rfl
@[simp] theorem Strand.wr_acquires (t : Strand) (d : Reg) (v : Word) : (t.wr d v).acquires = t.acquires := by simp only [Strand.wr]; split <;> rfl
@[simp] theorem Strand.wr_stall (t : Strand) (d : Reg) (v : Word) : (t.wr d v).stall = t.stall := by simp only [Strand.wr]; split <;> rfl

end Sys2Proof.Machine
end

