-- ==== Sys2Proof/Tests/Slice0.lean ====
section
/-! SUPPORT. Tests of the model: decoding of words written out from the spec, ill-formed terms, states that meet the hypotheses of the
statements, and single steps whose results the spec gives. -/
namespace Sys2Proof.Tests
set_option Elab.async false
open Sys2Proof Sys2Proof.Machine

/-! ### Decoding -/

/-- Words of R294 to R296. -/
theorem test_decodes_arithmetic :
    decode 0x02000000 0 = .ok (.nop)
      ∧ decode 0x04531C00 0 = .ok (.add 5 6 7)
      ∧ decode 0x06531C00 0 = .ok (.sub 5 6 7)
      ∧ decode 0x08531C00 0 = .ok (.mul 5 6 7)
      ∧ decode 0x0A531C40 0 = .ok (.mulh 5 6 7 true)
      ∧ decode 0x0C531C40 0 = .ok (.div 5 6 7 true)
      ∧ decode 0x0E531C40 0 = .ok (.rem 5 6 7 true)
      ∧ decode 0x10531C00 0 = .ok (.and 5 6 7)
      ∧ decode 0x12531C00 0 = .ok (.or 5 6 7)
      ∧ decode 0x14531C00 0 = .ok (.xor 5 6 7)
      ∧ decode 0x16531C00 0 = .ok (.shl 5 6 7)
      ∧ decode 0x18531C00 0 = .ok (.shr 5 6 7)
      ∧ decode 0x1A531C00 0 = .ok (.sra 5 6 7)
      ∧ decode 0x1C531C40 0 = .ok (.min 5 6 7 true)
      ∧ decode 0x1E531C40 0 = .ok (.max 5 6 7 true) :=
  ⟨rfl, rfl, rfl, rfl, rfl, rfl, rfl, rfl, rfl, rfl, rfl, rfl, rfl, rfl, rfl⟩

/-- Words of R294 to R296. -/
theorem test_decodes_immediates :
    decode 0x20534001 0 = .ok (.addi 5 6 0x4001)
      ∧ decode 0x22534001 0 = .ok (.andi 5 6 0x4001)
      ∧ decode 0x24534001 0 = .ok (.ori 5 6 0x4001)
      ∧ decode 0x26534001 0 = .ok (.xori 5 6 0x4001)
      ∧ decode 0x28530021 0 = .ok (.shli 5 6 33)
      ∧ decode 0x2A530021 0 = .ok (.shri 5 6 33)
      ∧ decode 0x2C530021 0 = .ok (.srai 5 6 33)
      ∧ decode 0x2E332C01 0 = .ok (.cmpi 3 6 .lt true 0x401)
      ∧ decode 0x30119100 0 = .ok (.cmp 1 3 4 .lt false)
      ∧ decode 0x32531CC0 0 = .ok (.sel 5 6 7 3)
      ∧ decode 0x34530000 0 = .ok (.clz 5 6)
      ∧ decode 0x36530000 0 = .ok (.ctz 5 6)
      ∧ decode 0x38530000 0 = .ok (.popc 5 6)
      ∧ decode 0x3A53120F 0 = .ok (.bfx 5 6 true 8 15)
      ∧ decode 0x3C530237 0 = .ok (.bfi 5 6 8 55)
      ∧ decode 0x3E530080 0 = .ok (.sext 5 6 .w) :=
  ⟨rfl, rfl, rfl, rfl, rfl, rfl, rfl, rfl, rfl, rfl, rfl, rfl, rfl, rfl, rfl, rfl⟩

/-- Words of R294 to R296. -/
theorem test_decodes_moves :
    decode 0x40530000 0 = .ok (.mov 5 6)
      ∧ decode 0x40518200 0 = .ok (.movChannel 5 3)
      ∧ decode 0x42504001 0 = .ok (.lis 5 0x4001)
      ∧ decode 0x46500005 0 = .ok (.widf 5 5)
      ∧ decode 0x48110D00 0 = .ok (.plog 1 2 3 .orn)
      ∧ decode 0x4A500000 0 = .ok (.pmovToRegister 5)
      ∧ decode 0x4A030040 0 = .ok (.pmovToPredicates 6)
      ∧ decode 0x4C530000 0 = .ok (.enrd 5 6)
      ∧ decode 0x447FFFFF 0xFFFFFFFE = .ok (.li 7 (BitVec.ofInt 52 (-2))) :=
  ⟨rfl, rfl, rfl, rfl, rfl, rfl, rfl, rfl, rfl⟩

/-- Words of R294 to R296. -/
theorem test_decodes_control :
    decode 0x501FFFFE 0 = .ok (.b 0x1FFFFE)
      ∧ decode 0x52A00005 0 = .ok (.bc 2 true 5)
      ∧ decode 0x54000003 0 = .ok (.call 3)
      ∧ decode 0x56030000 0 = .ok (.callr 6)
      ∧ decode 0x58000000 0 = .ok (.ret)
      ∧ decode 0x5A030000 0 = .ok (.jmpr 6)
      ∧ decode 0x98031C11 0 = .ok (.send 6 7 ⟨2, 1⟩)
      ∧ decode 0x9A000081 0 = .ok (.waitk 0x81)
      ∧ decode 0x9C000082 0 = .ok (.sbwait 0x41)
      ∧ decode 0x9E000000 0 = .ok (.yield)
      ∧ decode 0xA0031C00 0 = .ok (.strgo 6 7)
      ∧ decode 0xA2030000 0 = .ok (.strhlt 6)
      ∧ decode 0xA4000000 0 = .ok (.sleep)
      ∧ decode 0xA6030000 0 = .ok (.wake 6)
      ∧ decode 0xF2000042 0 = .ok (.svc 0x42)
      ∧ decode 0xF4000042 0 = .ok (.trap 0x42)
      ∧ decode 0xF6000000 0 = .ok (.eret)
      ∧ decode 0xF8500008 0 = .ok (.srd 5 .rgnb)
      ∧ decode 0xFA03000E 0 = .ok (.swr 6 .rndm)
      ∧ decode 0xFC000000 0 = .ok (.halt)
      ∧ decode 0xFE000042 0 = .ok (.brk 0x42) :=
  ⟨rfl, rfl, rfl, rfl, rfl, rfl, rfl, rfl, rfl, rfl, rfl, rfl, rfl, rfl, rfl, rfl, rfl, rfl, rfl, rfl, rfl⟩

/-- Words of R294 to R296. -/
theorem test_decodes_memory :
    decode 0x60535FD1 0 = .ok (.ldl 5 6 .hs 0x3F ⟨2, 1⟩)
      ∧ decode 0x62531811 0 = .ok (.stl 5 6 .h 0x20 ⟨2, 1⟩)
      ∧ decode 0x6451B091 0 = .ok (.ldg 5 3 .d 2 ⟨2, 1⟩)
      ∧ decode 0x6641B010 0 = .ok (.stg 4 3 .d 0 ⟨2, 0⟩)
      ∧ decode 0x68531E11 0 = .ok (.lda 5 6 .acq .sys .w ⟨2, 1⟩)
      ∧ decode 0x6A532511 0 = .ok (.strl 5 6 .rel .die .h ⟨2, 1⟩)
      ∧ decode 0x6C648A40 0 = .ok (.amo 6 9 .rlx .dev true .min Order.none)
      ∧ decode 0x6FE34011 0 = .ok (.cas 30 6 .sc .tile false ⟨2, 1⟩)
      ∧ decode 0x70533391 0 = .ok (.amol 5 6 .ar .tile true .swap ⟨2, 1⟩)
      ∧ decode 0x72003C00 0 = .ok (.fence .ar .sys Order.none)
      ∧ decode 0x74037FD1 0 = .ok (.pref 6 0x1FF ⟨2, 1⟩)
      ∧ decode 0x76037FD1 0 = .ok (.cflush 6 0x1FF ⟨2, 1⟩)
      ∧ decode 0x78037FD1 0 = .ok (.cinv 6 0x1FF ⟨2, 1⟩)
      ∧ decode 0xEE530011 0 = .ok (.xlt 5 6 ⟨2, 1⟩)
      ∧ decode 0xF0031C00 0 = .ok (.tlbi 6 7) :=
  ⟨rfl, rfl, rfl, rfl, rfl, rfl, rfl, rfl, rfl, rfl, rfl, rfl, rfl, rfl, rfl⟩

/-- Words of R294 to R296. -/
theorem test_decodes_window :
    decode 0x80531C11 0 = .ok (.tlook 5 6 7 ⟨2, 1⟩)
      ∧ decode 0x82531C11 0 = .ok (.tins 5 6 7 ⟨2, 1⟩)
      ∧ decode 0x84531C11 0 = .ok (.tevict 5 6 7 ⟨2, 1⟩)
      ∧ decode 0x86031C11 0 = .ok (.bari 6 7 ⟨2, 1⟩)
      ∧ decode 0x88530011 0 = .ok (.bara 5 6 ⟨2, 1⟩)
      ∧ decode 0x8A031C11 0 = .ok (.barw 6 7 ⟨2, 1⟩)
      ∧ decode 0x8C531C11 0 = .ok (.tsb 5 6 7 ⟨2, 1⟩)
      ∧ decode 0x8E030011 0 = .ok (.lrel 6 ⟨2, 1⟩)
      ∧ decode 0x90531C51 0 = .ok (.eqput 5 6 7 true ⟨2, 1⟩)
      ∧ decode 0x92531C51 0 = .ok (.eqget 5 6 7 true ⟨2, 1⟩) :=
  ⟨rfl, rfl, rfl, rfl, rfl, rfl, rfl, rfl, rfl, rfl⟩

/-- Words of R294 to R296. -/
theorem test_decodes_engines :
    decode 0xA8531C11 0 = .ok (.halloc 5 6 7 ⟨2, 1⟩)
      ∧ decode 0xAA006411 0 = .ok (.hfree 100 ⟨2, 1⟩)
      ∧ decode 0xAC000998 0 = .ok (.hset 9 .full ⟨3, 0⟩)
      ∧ decode 0xAE0064D1 0 = .ok (.hwait 100 .draining ⟨2, 1⟩)
      ∧ decode 0xB0506411 0 = .ok (.hstat 5 100 ⟨2, 1⟩)
      ∧ decode 0xB2030011 0 = .ok (.cpy 6 ⟨2, 1⟩)
      ∧ decode 0xB4034211 0 = .ok (.cpyt 6 33 ⟨2, 1⟩)
      ∧ decode 0xB6034211 0 = .ok (.cpyq 6 33 ⟨2, 1⟩)
      ∧ decode 0xB8030011 0 = .ok (.cpyc 6 ⟨2, 1⟩)
      ∧ decode 0xBA031411 0 = .ok (.scfg 6 5 ⟨2, 1⟩)
      ∧ decode 0xBC031411 0 = .ok (.swin 6 5 ⟨2, 1⟩)
      ∧ decode 0xBE001411 0 = .ok (.sgo 5 ⟨2, 1⟩)
      ∧ decode 0xC0001411 0 = .ok (.shalt 5 ⟨2, 1⟩)
      ∧ decode 0xC2501411 0 = .ok (.sstat 5 5 ⟨2, 1⟩) :=
  ⟨rfl, rfl, rfl, rfl, rfl, rfl, rfl, rfl, rfl, rfl, rfl, rfl, rfl, rfl⟩

/-- Words of R294 to R296. -/
theorem test_decodes_grid_commands :
    decode 0xC4030051 0 = .ok (.gload 6 .all ⟨2, 1⟩)
      ∧ decode 0xC6000011 0 = .ok (.gcommit ⟨2, 1⟩)
      ∧ decode 0xC8031C11 0 = .ok (.gsplice 6 (.one 7) ⟨2, 1⟩)
      ∧ decode 0xCA001C11 0 = .ok (.grun (.one 7) ⟨2, 1⟩)
      ∧ decode 0xCC001C11 0 = .ok (.gfrz (.one 7) ⟨2, 1⟩)
      ∧ decode 0xCE000051 0 = .ok (.gdrain .all ⟨2, 1⟩)
      ∧ decode 0xD0031CD1 0 = .ok (.gsend 6 7 3 ⟨2, 1⟩)
      ∧ decode 0xD2500191 0 = .ok (.grecv 5 true 2 ⟨2, 1⟩)
      ∧ decode 0xD4031C11 0 = .ok (.gconst 6 7 ⟨2, 1⟩)
      ∧ decode 0xD6501C11 0 = .ok (.gstat 5 7 ⟨2, 1⟩)
      ∧ decode 0xD8030011 0 = .ok (.mxcfg 6 ⟨2, 1⟩)
      ∧ decode 0xDA030011 0 = .ok (.mxldb 6 ⟨2, 1⟩)
      ∧ decode 0xDC000011 0 = .ok (.mxrot ⟨2, 1⟩)
      ∧ decode 0xDE030011 0 = .ok (.mxzero 6 ⟨2, 1⟩)
      ∧ decode 0xE0031C51 0 = .ok (.mxrd 6 7 true ⟨2, 1⟩)
      ∧ decode 0xE2500011 0 = .ok (.mxchk 5 ⟨2, 1⟩) :=
  ⟨rfl, rfl, rfl, rfl, rfl, rfl, rfl, rfl, rfl, rfl, rfl, rfl, rfl, rfl, rfl, rfl⟩

/-- Words of R294 to R296. -/
theorem test_decodes_tasks :
    decode 0xE4000000 0 = .ok (.tdone)
      ∧ decode 0xE6030011 0 = .ok (.tsig 6 ⟨2, 1⟩)
      ∧ decode 0xE8531C00 0 = .ok (.ginst 5 6 7)
      ∧ decode 0xEA530000 0 = .ok (.tstat 5 6)
      ∧ decode 0xEC000011 0 = .ok (.tfail 0x11) :=
  ⟨rfl, rfl, rfl, rfl, rfl⟩


/-- The verdicts of R296's examples and R294's reserved opcodes. -/
theorem test_rejects_words :
    decode 0x6641C010 0 = .error .reserved ∧ decode 0x72000800 0 = .error .suffix ∧ decode 0x04000001 0 = .error .orderField
      ∧ decode 0x3E0008C1 0 = .error .reserved ∧ decode 0x00000000 0 = .error .opcode ∧ decode 0x94000000 0 = .error .opcode
      ∧ decode 0x3A031FFF 0 = .error .reserved ∧ decode 0xEC000014 0 = .error .reserved ∧ decode 0xF800000F 0 = .error .reserved :=
  ⟨rfl, rfl, rfl, rfl, rfl, rfl, rfl, rfl, rfl⟩

/-- The fields of R298's example slot. -/
def exampleSlot : PeWord := ⟨0x0C, 0x04, 2, 0, true, 1, 4, 3, 9, 3, 2, 5, 3, 3⟩

/-- The example slot of R298 with each opcode of its table. -/
theorem test_decodes_slots_arithmetic :
    decodePe 0x0C0420A400726573 = some (.gridNop exampleSlot)
      ∧ decodePe 0x0C0420A402726573 = some (.move exampleSlot)
      ∧ decodePe 0x0C0420A404726573 = some (.dup exampleSlot)
      ∧ decodePe 0x0C0420A406726573 = some (.gridAdd exampleSlot)
      ∧ decodePe 0x0C0420A408726573 = some (.gridSub exampleSlot)
      ∧ decodePe 0x0C0420A40A726573 = some (.gridMul exampleSlot)
      ∧ decodePe 0x0C0420A40C726573 = some (.fma exampleSlot)
      ∧ decodePe 0x0C0420A40E726573 = some (.fms exampleSlot)
      ∧ decodePe 0x0C0420A410726573 = some (.gridMin exampleSlot)
      ∧ decodePe 0x0C0420A412726573 = some (.gridMax exampleSlot)
      ∧ decodePe 0x0C0420A414726573 = some (.abs exampleSlot)
      ∧ decodePe 0x0C0420A416726573 = some (.neg exampleSlot)
      ∧ decodePe 0x0C0420A418726573 = some (.gridCmp exampleSlot)
      ∧ decodePe 0x0C0420A41A726573 = some (.gridSel exampleSlot)
      ∧ decodePe 0x0C0420A41C726573 = some (.gridAnd exampleSlot)
      ∧ decodePe 0x0C0420A41E726573 = some (.gridOr exampleSlot)
      ∧ decodePe 0x0C0420A420726573 = some (.gridXor exampleSlot)
      ∧ decodePe 0x0C0420A422726573 = some (.not exampleSlot)
      ∧ decodePe 0x0C0420A424726573 = some (.gridShl exampleSlot)
      ∧ decodePe 0x0C0420A426726573 = some (.gridShr exampleSlot)
      ∧ decodePe 0x0C0420A428726573 = some (.gridSra exampleSlot) :=
  ⟨rfl, rfl, rfl, rfl, rfl, rfl, rfl, rfl, rfl, rfl, rfl, rfl, rfl, rfl, rfl, rfl, rfl, rfl, rfl, rfl, rfl⟩

/-- The example slot of R298 with each opcode of its table. -/
theorem test_decodes_slots_functions :
    decodePe 0x0C0420A42A726573 = some (.cvt exampleSlot)
      ∧ decodePe 0x0C0420A42C726573 = some (.cvts exampleSlot)
      ∧ decodePe 0x0C0420A42E726573 = some (.exp2 exampleSlot)
      ∧ decodePe 0x0C0420A430726573 = some (.log2 exampleSlot)
      ∧ decodePe 0x0C0420A432726573 = some (.rcp exampleSlot)
      ∧ decodePe 0x0C0420A434726573 = some (.rsq exampleSlot)
      ∧ decodePe 0x0C0420A436726573 = some (.red exampleSlot)
      ∧ decodePe 0x0C0420A438726573 = some (.bcst exampleSlot)
      ∧ decodePe 0x0C0420A43A726573 = some (.shuf exampleSlot)
      ∧ decodePe 0x0C0420A43C726573 = some (.tag exampleSlot)
      ∧ decodePe 0x0C0420A43E726573 = some (.steer exampleSlot)
      ∧ decodePe 0x0C0420A440726573 = some (.merge exampleSlot) :=
  ⟨rfl, rfl, rfl, rfl, rfl, rfl, rfl, rfl, rfl, rfl, rfl, rfl⟩

/-- The example slot of R298 with each opcode; EMPTY and the first unassigned opcode are no instruction. -/
theorem test_decodes_slots_memory :
    decodePe 0x0C0420A442726573 = some (.lgen exampleSlot)
      ∧ decodePe 0x0C0420A444726573 = some (.cnt exampleSlot)
      ∧ decodePe 0x0C0420A446726573 = some (.rand exampleSlot)
      ∧ decodePe 0x0C0420A448726573 = some (.mld exampleSlot)
      ∧ decodePe 0x0C0420A44A726573 = some (.mst exampleSlot)
      ∧ decodePe 0x0C0420A44C726573 = some (.mamo exampleSlot)
      ∧ decodePe 0x0C0420A44E726573 = some (.mtas exampleSlot)
      ∧ decodePe 0x0C0420A450726573 = some (.xltn exampleSlot)
      ∧ decodePe 0x0C0420A452726573 = some (.barn exampleSlot)
      ∧ decodePe 0x0C0420A454726573 = some (.endk exampleSlot)
      ∧ decodePe 0x0C0420A446726576 = some (.randSeed { exampleSlot with lt := 6 })
      ∧ decodePe 0x00000000FE000000 = none
      ∧ decodePe 0x0000000056000000 = none :=
  ⟨rfl, rfl, rfl, rfl, rfl, rfl, rfl, rfl, rfl, rfl, rfl, rfl, rfl⟩

/-- A packet of F0 to M-die 8. -/
def packet : Packet := { Packet.zero with src := 0, dst := 8 }

/-- The opcodes of R201; a reserved bit makes a packet malformed (R200). -/
theorem test_decodes_packets :
    decodePacket 0x01 0 packet = .gets packet
      ∧ decodePacket 0x02 0 packet = .getx packet
      ∧ decodePacket 0x03 0 packet = .tokd packet
      ∧ decodePacket 0x04 0 packet = .tokn packet
      ∧ decodePacket 0x05 0 packet = .refuse packet
      ∧ decodePacket 0x06 0 packet = .ticket packet
      ∧ decodePacket 0x07 0 packet = .grant packet
      ∧ decodePacket 0x08 0 packet = .preq packet
      ∧ decodePacket 0x09 0 packet = .pact packet
      ∧ decodePacket 0x0A 0 packet = .pdeact packet
      ∧ decodePacket 0x0B 0 packet = .pack packet
      ∧ decodePacket 0x0C 0 packet = .pdone packet
      ∧ decodePacket 0x0D 0 packet = .ucrd packet
      ∧ decodePacket 0x0E 0 packet = .ucwr packet
      ∧ decodePacket 0x0F 0 packet = .ucrsp packet
      ∧ decodePacket 0x10 0 packet = .mtop packet
      ∧ decodePacket 0x11 0 packet = .mtrsp packet
      ∧ decodePacket 0x13 0 packet = .sct packet
      ∧ decodePacket 0x14 0 packet = .nack packet
      ∧ decodePacket 0 0 packet = .unknownPacket 0 0 packet
      ∧ decodePacket 0x15 0 packet = .unknownPacket 0x15 0 packet
      ∧ decodePacket 1 1 packet = .unknownPacket 1 1 packet :=
  ⟨rfl, rfl, rfl, rfl, rfl, rfl, rfl, rfl, rfl, rfl, rfl, rfl, rfl, rfl, rfl, rfl, rfl, rfl, rfl, rfl, rfl, rfl⟩

/-- Messages of R75: SDEV 1, SDIE 2, TINST 3, SEQ 4, REC 5, the producer region 6, 7, 8, 9. -/
theorem test_decodes_messages :
    decodeDecr packet 0x0050000300000004 0x000000159E240000 = .decrement 8 ⟨1, 2, 3, 4, 5, 6, 7, 8, 9⟩
      ∧ decodeDecr packet 0x0051000300000004 0x000000159E240000 = .forwardDecrement 8 ⟨1, 2, 3, 4, 5, 6, 7, 8, 9⟩
      ∧ decodeDecr packet 0x0052000300000004 0x000000159E240000 = .abortMessage 8 ⟨1, 2, 3, 4, 5, 6, 7, 8, 9⟩
      ∧ decodeDecr packet 0x0053000300000004 0x000000159E240000 = .acknowledgement 8 ⟨1, 2, 3, 4, 5, 6, 7, 8, 9⟩
      ∧ decodeDecr packet 0x0054000300000004 0 = .malformedDecrementMessage packet 0x0054000300000004 0
      ∧ decodeDecr packet 0x0050000300000004 1 = .malformedDecrementMessage packet 0x0050000300000004 1 :=
  ⟨rfl, rfl, rfl, rfl, rfl, rfl⟩

/-- The command with word 0 0xOO300000_00000007, TS 9 and arguments 1 to 6 (R271). -/
def command : Cmd := ⟨3, 0, 7, 9, 1, 2, 3, 4, 5, 6⟩

/-- The opcodes of R273. -/
theorem test_decodes_commands :
    commandFields 0x0530000000000007 9 1 2 3 4 5 6 = (5, command)
      ∧ decodeCommand 1 command = .hostNop command
      ∧ decodeCommand 2 command = .rdinv command
      ∧ decodeCommand 3 command = .rdlog command
      ∧ decodeCommand 4 command = .ldmq command
      ∧ decodeCommand 5 command = .inst command
      ∧ decodeCommand 6 command = .rsvi command
      ∧ decodeCommand 7 command = .kill command
      ∧ decodeCommand 8 command = .freeze command
      ∧ decodeCommand 9 command = .setqw command
      ∧ decodeCommand 10 command = .setctx command
      ∧ decodeCommand 11 command = .setkey command
      ∧ decodeCommand 12 command = .hostTlbi command
      ∧ decodeCommand 13 command = .pans command
      ∧ decodeCommand 14 command = .mtasn command
      ∧ decodeCommand 15 command = .fpool command
      ∧ decodeCommand 16 command = .offline command
      ∧ decodeCommand 17 command = .pwrcap command
      ∧ decodeCommand 18 command = .setid command
      ∧ decodeCommand 19 command = .admitDevice command
      ∧ decodeCommand 20 command = .dismiss command
      ∧ decodeCommand 21 command = .rdcnt command
      ∧ decodeCommand 22 command = .rdpat command
      ∧ decodeCommand 23 command = .rdpub command
      ∧ decodeCommand 24 command = .rdsns command
      ∧ decodeCommand 25 command = .rdwlog command
      ∧ decodeCommand 26 command = .fwstage command
      ∧ decodeCommand 27 command = .fwcommit command
      ∧ decodeCommand 28 command = .rdacc command
      ∧ decodeCommand 32 command = .bpool command
      ∧ decodeCommand 0 command = .reservedCommand 0 command
      ∧ decodeCommand 33 command = .reservedCommand 33 command :=
  ⟨rfl, rfl, rfl, rfl, rfl, rfl, rfl, rfl, rfl, rfl, rfl, rfl, rfl, rfl, rfl, rfl, rfl, rfl, rfl, rfl, rfl, rfl, rfl, rfl, rfl, rfl, rfl, rfl, rfl, rfl, rfl, rfl⟩

/-! ### Ill-formed terms, one for each check -/

/-- The limits of R296: a whole-word SEXT, a field past bit 63, NOT with a second operand, CAS into x31 and x32, TFAIL with a reserved cause. -/
theorem test_refuses_operands :
    wellFormed (.sext 1 2 .d) = false ∧ wellFormed (.bfx 1 2 true 63 1) = false ∧ wellFormed (.bfi 1 2 1 63) = false
      ∧ wellFormed (.plog 1 2 3 .not) = false ∧ wellFormed (.cas 31 2 .rlx .dev true Order.none) = false
      ∧ wellFormed (.tfail 0) = false ∧ wellFormed (.tfail 0x14) = false
      ∧ wellFormed (.eqget 5 9 5 false Order.none) = false ∧ wellFormed (.eqget 0 9 0 false Order.none) = true := by decide

/-- The pairs that R217 does not admit. -/
theorem test_refuses_suffixes :
    wellFormed (.lda 1 2 .rel .dev .d Order.none) = false ∧ wellFormed (.lda 1 2 .ar .dev .d Order.none) = false
      ∧ wellFormed (.strl 1 2 .acq .dev .d Order.none) = false ∧ wellFormed (.fence .rlx .sys Order.none) = false
      ∧ wellFormed (.amol 1 2 .sc .tile true .add Order.none) = false
      ∧ wellFormed (.amol 1 2 .rlx .die true .add Order.none) = false := by decide

/-- The two forms of RAND (R406), fields of a message that do not fit R75, headers that R200 calls malformed. -/
theorem test_refuses_fields :
    wellFormed (.rand { exampleSlot with lt := 6 }) = false ∧ wellFormed (.randSeed exampleSlot) = false
      ∧ wellFormed (.decrement 0 ⟨1024, 0, 0, 1, 0, 0, 0, 0, 0⟩) = false
      ∧ wellFormed (.forwardDecrement 0 ⟨0, 8, 0, 1, 0, 0, 0, 0, 0⟩) = false
      ∧ wellFormed (.abortMessage 0 ⟨0, 0, 65536, 1, 0, 0, 0, 0, 0⟩) = false
      ∧ wellFormed (.acknowledgement 0 ⟨0, 0, 0, 4294967296, 0, 0, 0, 0, 0⟩) = false
      ∧ wellFormed (.decrement 0 ⟨0, 0, 0, 1, 32768, 0, 0, 0, 0⟩) = false
      ∧ wellFormed (.forwardDecrement 0 ⟨0, 0, 0, 1, 0, 16, 0, 0, 0⟩) = false
      ∧ wellFormed (.gets { packet with dst := 17 }) = false ∧ wellFormed (.tokd { packet with tok := 17 }) = false
      ∧ wellFormed (.getx { packet with ndf := 5 }) = false ∧ wellFormed (.tokn { packet with own := true, tok := 0 }) = false
      ∧ wellFormed (.gets packet) = true := by decide

/-- Every other kind of packet has the same check. -/
theorem test_refuses_packets :
    ∀ i ∈ [Instr.refuse { packet with dst := 17 }, .ticket { packet with dst := 17 }, .grant { packet with dst := 17 },
      .preq { packet with dst := 17 }, .pact { packet with dst := 17 }, .pdeact { packet with dst := 17 }, .pack { packet with dst := 17 },
      .pdone { packet with dst := 17 }, .ucrd { packet with dst := 17 }, .ucwr { packet with dst := 17 }, .ucrsp { packet with dst := 17 },
      .mtop { packet with dst := 17 }, .mtrsp { packet with dst := 17 }, .sct { packet with dst := 17 }, .nack { packet with dst := 17 }],
      wellFormed i = false := by decide

/-! ### Small states -/

/-- Strand 0 of site 12 of F0 has the move; its task, of the region of that one tile, is RUNNING. -/
def ready : State :=
  { (State.reset.placeWords 0x04531C00 0).modTile 0 12 (fun t => { t with rgnb := 0x1110, codeLen := 4 }) with cur := ⟨0, 12, 0, 0, 0⟩ }
/-- The same with a changed strand. -/
def withMe (f : Strand → Strand) : State := ready.modMe f
/-- The same with values in registers. -/
def withRegs (l : List (Reg × Word)) : State := withMe fun t => l.foldl (fun t p => t.wr p.1 p.2) t
/-- The same with a changed tile. -/
def withTile (f : Tile → Tile) : State := ready.modHere f
/-- The same with a handler of traps. -/
def handled : State := withMe fun t => { t with tvec := 0x40 }
/-- The state that an outcome holds. -/
def after (o : Host.Outcome State Fault Refusal) : State :=
  match o with
  | .next t => t
  | .fault _ => State.reset
  | .refused _ => State.reset
/-- The orders that a word's order field can hold beside none. -/
def ord21 : Order := ⟨2, 1⟩

/-! ### Premises of the statements about the control processor -/

/-- A strand that sleeps is not ready. -/
def asleep : State := withMe fun t => { t with run := .sleep }

theorem witness_ReadinessAndForfeit :
    asleep.me.ready [5, 6, 7] Order.none = false ∧ asleep.me.ready [] Order.none = false ∧ asleep.me.ready [5] Order.none = false
      ∧ asleep.me.ready [5, 6] ord21 = false ∧ asleep.me.ready [] ord21 = false ∧ asleep.me.ready [5, 6, 7] ord21 = false := by decide

/-- The premise of every statement of the form RegResult, PredResult and StrandResult. -/
theorem witness_register_results :
    ready.me.ready [5, 6, 7] Order.none = true ∧ ready.me.ready [5, 6] Order.none = true ∧ ready.me.ready [5] Order.none = true
      ∧ ready.me.ready [] Order.none = true := by decide

theorem witness_BitCountResults :
    formatA 0x1A 5 6 0 0 0 < 2 ^ 32 ∧ bits (formatA 0x1A 5 6 0 0 0) 25 7 = 0x1A ∧ bits (formatA 0x1B 5 6 0 0 0) 25 7 = 0x1B
      ∧ bits (formatA 0x1C 5 6 0 0 0) 25 7 = 0x1C := by decide

theorem witness_BitFieldResults :
    0x3A531FC0 < 2 ^ 32 ∧ bits 0x3A531FC0 25 7 = 0x1D ∧ 0x3C530FC0 < 2 ^ 32 ∧ bits 0x3C530FC0 25 7 = 0x1E ∧ Size.w ≠ Size.d
      ∧ (63 : Fin 64).val + ((0 : Fin 64).val + 1) ≤ 64 ∧ (0 : Fin 64).val + ((63 : Fin 64).val + 1) ≤ 64 := by decide

theorem witness_CompareSelectResults : (1 : Fin 8) ≠ 0 ∧ (2 : Fin 8) ≠ 1 ∧ ready.me.ready [6, 7] Order.none = true := by decide

theorem witness_EnrdReadsAnAccount :
    (ready.me.ready [5, 6] Order.none = true ∧ ready.me.prv = false)
      ∧ (let s := (withRegs [(6, 16)]).modMe fun t => { t with prv := true };
        s.me.ready [5, 6] Order.none = true ∧ s.me.prv = true ∧ (s.me.rd 6).toNat ≤ 16)
      ∧ (let s := (withRegs [(6, 17)]).modMe fun t => { t with prv := true };
        s.me.ready [5, 6] Order.none = true ∧ s.me.prv = true ∧ 16 < (s.me.rd 6).toNat) := by decide

theorem witness_RegisterInstructionsFrame :
    Completes (.add 5 6 7) ready ∧ Completes (.div 5 6 7 false) ready ∧ Completes (.sel 5 6 7 1) ready ∧ Completes (.li 5 9) ready
      ∧ Completes (.widf 5 2) ready ∧ Completes (.cmp 1 6 7 .lt false) ready ∧ Completes (.plog 1 2 3 .and) ready
      ∧ tileKey 0 13 ≠ tileKey ready.cur.die ready.cur.site :=
  ⟨⟨_, rfl⟩, ⟨_, rfl⟩, ⟨_, rfl⟩, ⟨_, rfl⟩, ⟨_, rfl⟩, ⟨_, rfl⟩, ⟨_, rfl⟩, by decide⟩

/-- Offset 0 starts an instruction; 2 is misaligned and 4 lies past the section. -/
theorem witness_ControlTransfers :
    ready.me.ready [] Order.none = true ∧ ready.me.ready [31] Order.none = true ∧ ready.me.ready [6, 31] Order.none = true
      ∧ ready.me.ready [6] Order.none = true ∧ ready.here.targetOk 0 = true ∧ ready.here.targetOk 2 = false ∧ ready.here.targetOk 4 = false
      ∧ predGet ready.me.p 0 = true ∧ predGet ready.me.p 1 = false ∧ ready.here.firmware = none := by decide

/-- A strand whose channel 7 is full. -/
def fullChannel : State := withMe fun t => { t with k := vset t.k 7 ⟨true, 9, false⟩ }
/-- A strand whose slot 7 counts one operation. -/
def slotBusy : State := withMe fun t => t.raise 7
/-- A strand that yielded. -/
def yielded : State := withMe fun t => { t with yielded := true }

theorem witness_WaitingInstructions :
    ((∀ n < 8, (0x80 : BitVec 8).getLsbD n = true → (vget fullChannel.me.k n).full = true) ∧ fullChannel.me.ready [] Order.none = true)
      ∧ (∃ n < 8, (0x80 : BitVec 8).getLsbD n = true ∧ (vget ready.me.k n).full = false)
      ∧ ((∀ n < 7, (0x40 : BitVec 7).getLsbD n = true → vget ready.me.sb (n + 1) = 0) ∧ ready.me.ready [] Order.none = true)
      ∧ (∃ n < 7, (0x40 : BitVec 7).getLsbD n = true ∧ vget slotBusy.me.sb (n + 1) ≠ 0)
      ∧ (let s' := { yielded with cur := ⟨0, 12, 0, 0, 0⟩ }
        yielded.strandsIssue 0 12 = true ∧ s'.me.run = .run ∧ s'.me.stall = false ∧ s'.me.yielded = true) := by decide

theorem witness_StrandControl :
    (let s := withRegs [(6, 3)];
      s.me.ready [6, 7] Order.none = true ∧ s.me.ready [6] Order.none = true ∧ (s.me.rd 6).toNat ≤ 3)
      ∧ (let s := withRegs [(6, 4)];
        s.me.ready [6, 7] Order.none = true ∧ s.me.ready [6] Order.none = true ∧ 3 < (s.me.rd 6).toNat)
      ∧ ready.me.ready [] Order.none = true := by decide

/-- Every strand of the region is HALTED. -/
def allHalted : State := withTile fun t => { t with strands := Vector.replicate 4 { Strand.init with run := .halted } }

theorem witness_RegionEndsWhenAllHalted :
    ((ready.tile 0 12).task = some 0 ∧ ready.record 0 0 = some Record.running ∧ ¬∀ y ∈ Record.running.sites, ∀ n < 4,
        (ready.strand 0 y n).run = .halted)
      ∧ (allHalted.tile 0 12).task = some 0 ∧ allHalted.record 0 0 = some Record.running ∧ Record.running.endReq = .none
      ∧ Record.running.state = .running ∧ ∀ y ∈ Record.running.sites, ∀ n < 4, (allHalted.strand 0 y n).run = .halted := by decide

/-- A SEND to tile (0, 0), strand 3, channel 7. -/
def sending : State := withRegs [(6, 0x1F00), (7, 9)]

theorem witness_MessagesAreSent :
    (let h := (sending.me.rd 6).toNat;
      sending.me.ready [6, 7] ord21 = true ∧ bits h 13 51 = 0 ∧ bits h 0 4 < sending.here.regionW ∧ bits h 4 4 < sending.here.regionH
        ∧ (sending.tile 0 (sending.here.siteAt 0 0)).requests = [] ∧ (12, 0, 0) ∈ [(12, 0, 0)].take (sending.tile 0 12).credits)
      ∧ (let s := sending.modHere fun t => { t with credits := 1, requests := [(12, 1, 0)] };
        let h := (s.me.rd 6).toNat;
        s.me.ready [6, 7] ord21 = true ∧ bits h 13 51 = 0 ∧ bits h 0 4 < s.here.regionW ∧ bits h 4 4 < s.here.regionH
          ∧ s.here.requests.filter (fun e => (s.strand 0 e.1 e.2.1).run == .run && (s.strand 0 e.1 e.2.1).pc.toNat == e.2.2) = []
          ∧ (12, 0, 0) ∉ [(12, 1, 0), (12, 0, 0)].take s.here.credits)
      ∧ (withMe fun t => { t with busy := 0x40 }).me.ready [6, 7] ord21 = false
      ∧ (let s := withRegs [(6, 0x2000)];
        s.me.ready [6, 7] ord21 = true ∧ bits (s.me.rd 6).toNat 13 51 ≠ 0)
      ∧ (let s := withRegs [(6, 0x1)];
        let h := (s.me.rd 6).toNat;
        s.me.ready [6, 7] ord21 = true ∧ bits h 13 51 = 0 ∧ ¬bits h 0 4 < s.here.regionW) := by decide

/-- A message to channel 7 of strand 0 from strand 3 of the same tile. -/
def message : Message := ⟨0, 12, 0, 7, 9, false, 12, 3, 0, 2⟩
/-- The message on its way. -/
def travelling : State := { ready with messages := [message] }
/-- A tile whose channel 7 of strand 0 is full, with one more message waiting. -/
def waiting : Tile := { fullChannel.here with inbuf := [message] }

theorem witness_MessagesArriveInOrder :
    (lget travelling.messages 0 = some message ∧ (travelling.tile 0 12).holds message.gen = true ∧ travelling.messages.take 0 = [])
      ∧ (travelling.tile 0 12).holds 7 = false
      ∧ ((vget (ready.here.strand 0).k 7).full = false ∧ ready.here.inbuf = [])
      ∧ (vget (waiting.strand 0).k 7).full = true
      ∧ (waiting.inbuf = [] ++ message :: [] ∧ message.strand = 0 ∧ message.chan = 7)
      ∧ ((vget fullChannel.me.k 7).full = true ∧ (vget fullChannel.me.k 7).psn = false ∧ fullChannel.me.ready [5] Order.none = true)
      ∧ (let s := withMe fun t => { t with k := vset t.k 7 ⟨true, 9, true⟩ };
        (vget s.me.k 7).full = true ∧ (vget s.me.k 7).psn = true ∧ s.me.ready [5] Order.none = true)
      ∧ (vget ready.me.k 7).full = false := by decide

/-- In a handler, with so many reports pending. -/
def inHandler (n : Nat) : State := handled.modMe fun t => { t with intrap := true, pending := List.replicate n ⟨4, 1, 0⟩ }

theorem witness_TrapSequence :
    ((handled.strand 0 12 0).intrap = false ∧ (handled.strand 0 12 0).tvec ≠ 0)
      ∧ (((inHandler 3).strand 0 12 0).intrap = true ∧ ((inHandler 3).strand 0 12 0).pending.length < 4)
      ∧ (((inHandler 4).strand 0 12 0).intrap = true ∧ 4 ≤ ((inHandler 4).strand 0 12 0).pending.length)
      ∧ ((ready.strand 0 12 0).intrap = false ∧ (ready.strand 0 12 0).tvec = 0) ∧ handled.me.ready [] Order.none = true
      ∧ (let s := { ready with reports := [(.strand 0 13 0, ⟨8, 1, 0⟩)] };
        lget s.reports 0 = some (.strand 0 13 0, ⟨8, 1, 0⟩) ∧ (s.tile 0 13).task = none)
      ∧ (let s := { ready with reports := [(.strand 0 12 0, ⟨8, 1, 0⟩), (.strand 0 12 1, ⟨8, 1, 0⟩)] };
        lget s.reports 0 = some (.strand 0 12 0, ⟨8, 1, 0⟩) ∧ (s.tile 0 12).task ≠ none ∧ (s.strand 0 12 0).run = .run
          ∧ lget s.reports 1 = some (.strand 0 12 1, ⟨8, 1, 0⟩) ∧ (s.strand 0 12 1).run ≠ .run)
      ∧ (let s := { ready with reports := [(.routed 0 12 0, ⟨8, 1, 0⟩), (.routed 0 12 1, ⟨8, 1, 0⟩)] };
        lget s.reports 0 = some (.routed 0 12 0, ⟨8, 1, 0⟩) ∧ (s.tile 0 12).task = ready.here.task ∧ ready.here.task.isSome ∧ (s.strand 0 12 0).run = .run
          ∧ lget s.reports 1 = some (.routed 0 12 1, ⟨8, 1, 0⟩) ∧ (s.strand 0 12 1).run ≠ .run)
      ∧ ((ready.tile 0 13).task = none ∧ (ready.tile 0 13).firmware = none)
      ∧ (let s := (withTile fun t => { t with task := none, firmware := some 1 });
        s.here.task = none ∧ s.here.firmware ≠ none) := by decide

theorem witness_ReturnFromTrap :
    (ready.me.ready [] Order.none = true ∧ ready.me.intrap = false)
      ∧ ((inHandler 0).me.ready [] Order.none = true ∧ (inHandler 0).me.intrap = true ∧ (inHandler 0).me.pending = []
        ∧ (inHandler 0).here.targetOk (BitVec.ofNat 64 (4 * (inHandler 0).me.epc.toNat)) = true)
      ∧ (let s := (inHandler 0).modMe fun t => { t with epc := 1 };
        s.me.intrap = true ∧ s.me.pending = [] ∧ s.here.targetOk (BitVec.ofNat 64 (4 * s.me.epc.toNat)) = false)
      ∧ ((inHandler 1).me.ready [] Order.none = true ∧ (inHandler 1).me.intrap = true
        ∧ (inHandler 1).me.pending = ⟨4, 1, 0⟩ :: [] ∧ (inHandler 1).me.tvec ≠ 0) := by decide

/-- The machine with two words at offset 0 of a section of `n` bytes. -/
def code (n : Nat) (w w2 : IWord) : State :=
  withTile fun t => { t with codeLen := n, imem := tput (tput t.imem 0 w) 1 w2 }

theorem witness_FetchFaults :
    (let s := withMe fun t => { t with pc := 4 };
      s.me.run = .run ∧ s.me.stall = false ∧ s.here.targetOk s.me.pc = false)
      ∧ (let s := code 4 ⟨0x02000000, true, true⟩ default;
        s.here.targetOk s.me.pc = true ∧ (s.here.codeWord s.me.pc.toNat).psn = true)
      ∧ (let s := code 4 ⟨0x44500000, true, false⟩ default;
        s.here.targetOk s.me.pc = true ∧ (s.here.codeWord 0).psn = false ∧ bits (s.here.codeWord 0).bits.toNat 25 7 = 0x22 ∧ s.here.codeLen ≤ 4)
      ∧ (let s := code 8 ⟨0x44500000, true, false⟩ ⟨0, false, true⟩;
        s.here.targetOk s.me.pc = true ∧ (s.here.codeWord 0).psn = false ∧ bits (s.here.codeWord 0).bits.toNat 25 7 = 0x22 ∧ 4 < s.here.codeLen
          ∧ (s.here.codeWord 4).psn = true)
      ∧ (ready.here.targetOk ready.me.pc = true ∧ (ready.here.codeWord 0).psn = false
        ∧ bits (ready.here.codeWord 0).bits.toNat 25 7 ≠ 0x22) := by decide

theorem witness_SystemRegisters :
    ready.me.ready [5] Order.none = true
      ∧ (let s := withRegs [(6, 3)];
        s.me.ready [6] Order.none = true ∧ (s.me.rd 6).toNat % 8 ≤ 3)
      ∧ (let s := withRegs [(6, 4)];
        s.me.ready [6] Order.none = true ∧ 3 < (s.me.rd 6).toNat % 8) := by decide

/-! ### Premises of the statements about memory -/

/-- A global translation of the first 64 KiB of partition 0 to local HBM, readable, writable and cacheable. -/
def leaf : TlbEntry := ⟨0, 0, 0, 65536, 0, 0, 0, true, true, false, true⟩
/-- A machine whose tile translates by one entry, with key slot 0 for partition 0. -/
def mappedBy (e : TlbEntry) : State :=
  { ready.modHere (fun t => { t with utlb := t.utlb.set 0 [e] }) with contexts := [(0, ⟨true, 0, 0⟩)], keys := [(0, ⟨1, 0⟩)], homeMap := [0] }
/-- The same with the entry above. -/
def mapped : State := mappedBy leaf
/-- A machine with memory tile 0, assigned to partition 0, on M-die 8. -/
def window : State := { mapped with windowOwner := [(0, 0)], windowDies := [0] }
/-- Another value in register 6. -/
def at6 (v : Word) (s : State) : State := s.modMe fun t => t.wr 6 v
/-- A load of eight bytes. -/
def loadAt (s : State) (va : Word) : Access := s.newAccess .load va 8 0

/-- A misaligned address, an aligned one, a window word, and one of an unassigned memory tile. -/
theorem witness_GlobalAccessesIssue :
    window.readyMem [5, 6] ord21 = true ∧ window.readyMem [5, nextReg 5, 6] ord21 = true ∧ window.storesFull = false
      ∧ ((loadAt window 0x1001).va % 2 ^ 3 ≠ 0)
      ∧ ((loadAt window 0x1000).va % 2 ^ 3 = 0 ∧ inWindow (loadAt window 0x1000).va = false)
      ∧ ((loadAt window 0x01FFFFFFC0000008).va % 2 ^ 3 = 0 ∧ inWindow (loadAt window 0x01FFFFFFC0000008).va = true
        ∧ window.windowFault 0 (loadAt window 0x01FFFFFFC0000008).va = none)
      ∧ (inWindow (loadAt window 0x01FFFFFFC0200000).va = true
        ∧ window.windowFault 0 (loadAt window 0x01FFFFFFC0200000).va = some ⟨6, 0x11, 0x01FFFFFFC0200000⟩)
      ∧ (let s := { mapped with access := List.replicate 16 (mapped.newAccess .store 0x1000 8 0) };
        s.storesFull = true ∧ inWindow (s.me.rd 6 + BitVec.ofInt 64 ((0 : BitVec 6).toInt * 8)).toNat = false) := by decide

theorem witness_TranslationChecks :
    (2 ^ 57 ≤ (loadAt mapped (BitVec.ofNat 64 (2 ^ 57))).va) ∧ (ready.context 0).valid = false
      ∧ ((loadAt mapped 0x10000).va < 2 ^ 57 ∧ (mapped.context 0).valid = true ∧ mapped.tlbFind (.strand 0 12 0) 0 0x10000 = none)
      ∧ (let s := mappedBy { leaf with gk := 1 };
        s.tlbFind (.strand 0 12 0) 0 0 = some { leaf with gk := 1 } ∧ (1 : BitVec 8) ≠ 0 ∧ (1 : BitVec 8) ≠ (loadAt s 0).gkey)
      ∧ (let s := mappedBy { leaf with r := false };
        s.tlbFind (.strand 0 12 0) 0 0 = some { leaf with r := false } ∧ (!(false : Bool)) = true)
      ∧ (let s := { mapped with keys := [] };
        s.tlbFind (.strand 0 12 0) 0 0 = some leaf ∧ bits leaf.pbase 50 2 = 0 ∧ s.keyOf 0 0 = none)
      ∧ (mapped.tlbFind (.strand 0 12 0) 0 0 = some leaf ∧ mapped.keyOf 0 0 = some 1 ∧ 0 < mapped.hbmSize)
      ∧ (let s := { mapped with homeMap := [] };
        s.tlbFind (.strand 0 12 0) 0 0 = some leaf ∧ bits leaf.pbase 50 2 = 0 ∧ s.hbmSize ≤ leaf.pbase)
      ∧ mapped.live (loadAt mapped 0) = true := by decide

/-- A machine whose L1 holds line 1, and an LDG.D from address 128. -/
def cached : State :=
  at6 128 (mapped.modHere fun t => { t with l1 := [(1, ⟨0x0123456789ABCDEF, 0, false⟩)] })

theorem witness_LoadHitsTheL1 :
    cached.readyMem [5, 6] ord21 = true ∧ cached.access = [] ∧ (5 : Reg) ≠ 0 ∧ cached.cur.site < 144 ∧ 128 % 2 ^ 3 = 0 ∧ inWindow 128 = false
      ∧ (cached.context 0).valid = true ∧ cached.tlbFind (.strand 0 12 0) 0 128 = some leaf ∧ checkEntry cached leaf 0 0 .read 128 = none
      ∧ bits 128 50 2 = 0 ∧ leaf.c = true ∧ cached.lostHome 1 = false ∧ cached.l1Line 0 12 128 = some ⟨0x0123456789ABCDEF, 0, false⟩ := by decide +kernel

/-- The last doubleword of the scratchpad, poisoned. -/
def poisonedPad : State := withTile fun t => t.spadWrite 0 0x1FFFF8 (toBytes 5 8) true

theorem witness_ScratchpadLoadsAndStores :
    ready.readyMem [5, 6] ord21 = true ∧ ready.readyCommand [5, 6] ord21 = true ∧ ready.unperformed = false
      ∧ (0x200000 < (0x1FFFFF : Word).toNat + 8)
      ∧ ((0x1FFFF4 : Word).toNat + 8 ≤ 0x200000 ∧ (0x1FFFF4 : Word).toNat % 8 ≠ 0)
      ∧ ((0x1FFFF8 : Word).toNat + 8 ≤ 0x200000 ∧ (0x1FFFF8 : Word).toNat % 8 = 0 ∧ ready.here.spadPoisoned 0 0x1FFFF8 8 = false)
      ∧ poisonedPad.here.spadPoisoned 0 0x1FFFF8 8 = true ∧ (0x200000 ≤ (0x200000 : Word).toNat) ∧ ready.here.races = []
      ∧ (Order.none.set = 0 ∧ Ord.rlx.acquires = false ∧ Ord.acq.acquires = true ∧ ord21.set ≠ 0) := by decide

theorem witness_ScratchpadBytes : (3 < 4) ∧ toBytes 5 8 ≠ [] ∧ ready.cur.site < 144
    ∧ (∀ r ∈ [(⟨0, 5, false, .grid, false⟩ : Race)], r.writer.isEngine = (Racer.store 0).isEngine) := by decide

/-- A machine whose die cache holds line 0 with one token, without the owner token. -/
def shared (own : Bool) : State := mapped.setCacheLine 0 0 ⟨1, own, true, false, false, 0, 1, 7⟩

theorem witness_FencesAndLineOperations :
    (mapped.readyMem [] ord21 = true ∧ mapped.access = [] ∧ (mapped.die 0).rwb = [] ∧ Ord.rel ≠ Ord.sc)
      ∧ (mapped.readyMem [6] ord21 = true ∧ mapped.touches 0 128 = false)
      ∧ (mapped.newTxn 0 < 65536 ∧ (ready.context 0).valid = false)
      ∧ ((mapped.context 0).valid = true ∧ mapped.tlbFind (.strand 0 12 0) 0 0x10000 = none)
      ∧ ((mappedBy { leaf with c := false }).hintLine (loadAt mapped 0) { leaf with c := false } (fun e => e.r || e.w) = none)
      ∧ (mapped.hintLine (loadAt mapped 0) leaf (fun e => e.r || e.w) = some 0 ∧ (mapped.cacheLine 0 0).tok = 0)
      ∧ ((shared false).hintLine (loadAt mapped 0) leaf (fun e => e.r || e.w) = some 0 ∧ ((shared false).cacheLine 0 0).tok ≠ 0
        ∧ ((shared false).cacheLine 0 0).own = false ∧ ((shared false).cacheLine 0 0).serves false = true)
      ∧ ((shared true).cacheLine 0 0).own = true
      ∧ (mapped.hintLine (loadAt mapped 0) leaf (fun e => e.r) = some 0 ∧ (mapped.cacheLine 0 0).serves false = false)
      ∧ (let s := { mapped with access := [loadAt mapped 0], nextId := mapped.nextId + 1 };
        s.touches 0 128 = true) := by decide

theorem witness_WindowOperationsIssue :
    window.readyMem [5, 6, 7] ord21 = true ∧ window.readyMem [6, 7] ord21 = true ∧ window.readyMem [5, 6] ord21 = true
      ∧ window.readyMem [6] ord21 = true ∧ inWindow 0x1000 = false
      ∧ (inWindow 0x01FFFFFFC0200000 = true ∧ window.windowFault 0 0x01FFFFFFC0200000 = some ⟨6, 0x11, 0x01FFFFFFC0200000⟩)
      ∧ (inWindow 0x01FFFFFFC0000008 = true ∧ window.windowFault 0 0x01FFFFFFC0000008 = none ∧ 0x01FFFFFFC0000008 % 2 ^ 4 ≠ 0
        ∧ 0x01FFFFFFC0000008 % 2 ^ 3 = 0)
      ∧ decide (2 ^ 47 / 2 ^ 47 = 0) = false ∧ decide ((2 ^ 47 - 1) / 2 ^ 47 = 0) = true ∧ decide (1 ≤ 65536 ∧ 65536 ≤ 65535) = false := by decide

/-- A window with one word at offset 0, and an operation on it. -/
def object (w : WindowWord) : State := { window with window := [(0, w)] }
/-- A window operation on that word. -/
def onObject (op : Nat) (data : Word) : Access :=
  { window.newAccess (.window op) 0x01FFFFFFC0000000 8 0 with data := data }

/-- A barrier for two with one arrived, one with none arrived, a plain word, and a lock in both states. -/
theorem witness_BarriersAndLocks :
    (let s := object ⟨0x00000002, .barrier, 0, false⟩;
      let w := s.wordFor 0 0;
      s.lostWord 0 = false ∧ s.waitersOf 0 = [] ∧ s.descriptorHeld 0 = false ∧ s.windowWait = [] ∧ w.kind = .barrier ∧ bits w.bits.toNat 16 16 + 1 ≠ bits w.bits.toNat 0 16
        ∧ (onObject opBara 0).kind = .window opBara ∧ (onObject opBara 0).va - windowBase = 0)
      ∧ (let w := (object ⟨0x00010002, .barrier, 0, false⟩).wordFor 0 0;
        w.kind = .barrier ∧ bits w.bits.toNat 16 16 + 1 = bits w.bits.toNat 0 16 ∧ bits w.bits.toNat 32 16 = (onObject opBarw 0).data.toNat
          ∧ bits w.bits.toNat 32 16 ≠ (onObject opBarw 1).data.toNat)
      ∧ (let s := object ⟨0, .plain, 0, false⟩;
        (s.wordFor 0 0).kind = .plain ∧ (s.word 0).kind = .plain ∧ (s.wordFor 0 0).kind ≠ .barrier)
      ∧ ((object ⟨0, .lock, 0, false⟩).wordFor 0 0).kind = .lock
      ∧ (((object ⟨0, .lock, 0, false⟩).wordFor 0 0).bits.getLsbD 63) = false
      ∧ (((object ⟨0x8000000000000000, .lock, 0, false⟩).wordFor 0 0).bits.getLsbD 63) = true
      ∧ ((object ⟨0x8000000000000000, .lock, 0, false⟩).wordFor 0 0).psn = false ∧ ((object ⟨0, .lock, 0, false⟩).wordFor 0 0).psn = false
      ∧ ((object ⟨0, .plain, 0, false⟩).wordFor 0 0).psn = false ∧ (onObject opTsb 7).kind = .window opTsb := by decide

/-- A walk of partition 0 at the table of a level, with its result. -/
def walk (level : Nat) (r : Option WalkEnd) : PageWalk := ⟨1, 8, 0, 0, 0, 0, level, r⟩
/-- An access that waits for a walk, or for another attempt. -/
def inPhase (s : State) (p : Phase) : State := { s with access := [{ s.newAccess .load 0 8 0 with id := 5, phase := p }] }

theorem witness_XltAndTlbi :
    ready.me.ready [5, 6] Order.none = true ∧ (ready.context 0).valid = false ∧ inWindow 0x01FFFFFFC0000000 = true
      ∧ (inWindow 0 = false ∧ (mapped.launch (mapped.newAccess .xlt 0 1 0)).tlbFind (.strand 0 12 0) 0 0 = some leaf
        ∧ checkEntry mapped leaf 0 0 .none 0 = none)
      ∧ mapped.tlbFind (.strand 0 12 0) 0 0x10000 = none
      ∧ (ready.me.ready [6, 7] Order.none = true ∧ (4 < 5) ∧ 2 ^ 57 - 1 < 2 ^ 57)
      ∧ (let s := inPhase mapped .walk;
        (s.access? 5).isSome = true ∧ (s.access.all fun a => a.phase == .walk && (s.walkOf a).isNone && a.kind == .load) = true
          ∧ (s.context 0).valid = true ∧ s.tlbFind (.strand 0 12 0) 0 0 = some leaf ∧ (inPhase ready .walk).access.length = 1)
      ∧ (let s := { inPhase mapped .walk with walks := [walk 3 (some .malformed)] };
        (s.access.all fun a => s.walkOf a == some (walk 3 (some .malformed)) && s.walkWaiters (walk 3 (some .malformed)) == [a]) = true)
      ∧ (let s := { inPhase mapped .walk with walks := [walk 3 none] };
        (s.access.all fun a => s.walkOf a == some (walk 3 none)) = true)
      ∧ (inPhase ready .retry).access.length = 1 ∧ (inPhase ready .held).access.length = 1
      ∧ (let s := { ready with access := [{ ready.newAccess (.window opBarw) 0x01FFFFFFC0000000 8 0 with id := 5, phase := .waiter }] };
        (s.access.all fun a => a.phase == .waiter && !isEdge a.op) = true)
      ∧ (({ mapped with homeMap := [] } : State).beyond leaf 0 = true ∧ mapped.beyond leaf 0 = false) := by decide +kernel
/-- R240 to R243: entries of a walk: V = 0, reserved bits of a leaf, the next level, a leaf of 1 GiB. -/
theorem test_walk_entries :
    walkEntry (walk 0 none) 0 = .inl .notPresent ∧ walkEntry (walk 0 none) (2 ^ 63 + 2 ^ 62) = .inl .malformed
      ∧ walkEntry (walk 0 none) (2 ^ 63 + 0x10000) = .inr (0x10000, 1)
      ∧ walkEntry (walk 1 none) (2 ^ 63 + 2 ^ 62 + 2 ^ 47 + 2 ^ 11)
          = .inl (.leaf ⟨0, 0, 0, 2 ^ 30, 2 ^ 51, 0, 0, true, false, false, false⟩) := by decide +kernel

/-! ### Premises of the statements about handles, engines and messages -/

/-- A machine with handle 9. -/
def withHandle (e : Handle) : State := withTile fun t => t.setHandle 9 e
/-- A bound handle in a state. -/
def bound (st : HState) (ws : Bool) (rd : Nat) : Handle := ⟨true, st, ws, false, rd, 0, 0, 64, 0, 0, []⟩
/-- Every handle is bound. -/
def allBound : State := withTile fun t => { t with handles := (List.range 128).map fun n => (n, bound .free false 0) }

theorem witness_HandleInstructions :
    (ready.me.ready [5, 6, 7] ord21 = true ∧ ready.me.ready [] ord21 = true ∧ ready.readyMem [] ord21 = true ∧ ready.me.ready [5] ord21 = true)
      ∧ (0x200000 < 0x200000 + 64) ∧ ¬(0x200000 < 0x1FFFC0 + 64 ∨ 64 = 0 ∨ 0x1FFFC0 % 64 ≠ 0 ∨ 64 % 64 ≠ 0)
      ∧ (ready.here.handle 9).bnd = false ∧ HState.full ≠ .free
      ∧ ((withHandle (bound .free false 0)).here.handle 9).state = .free
      ∧ (((withHandle (bound .filling true 0)).here.handle 9).state = .filling ∧ ((withHandle (bound .filling true 0)).here.handle 9).ws = true)
      ∧ ((withHandle (bound .full false 0)).here.handle 9).state = .full
      ∧ (((withHandle (bound .draining false 0)).here.handle 9).state = .draining ∧ ((withHandle (bound .draining false 0)).here.handle 9).rd = 0)
      ∧ ((withHandle (bound .draining false 1)).here.handle 9).rd ≠ 0
      ∧ ((withHandle (bound .draining false 1)).here.handle 9).bnd = true := by decide

/-- Handle 9 is FULL; a strand stands at an HWAIT for DRAINING, another's HWAIT or HFREE with a slot waits for it. -/
def awaited (want : HState) (unbind : Bool) : State :=
  ((withHandle (bound .full false 0)).modMe fun t => { t with stand := some (9, .draining, false) }).modHere fun t =>
    { t with hwaits := [⟨1, 2, 9, want, unbind⟩] }

theorem witness_HandleInstructions_waits :
    ord21.set ≠ 0 ∧ Order.none.set = 0 ∧ asleep.me.ready [] Order.none = false
      ∧ ((awaited .draining false).me.stand = some (9, .draining, false) ∧ (awaited .draining false).me.stand ≠ some (9, .draining, true))
      ∧ ((withHandle (bound .free false 0)).modMe fun t => { t with stand := some (9, .draining, true) }).me.stand = some (9, .draining, true)
      ∧ ((awaited .draining false).here.handle 9).state ≠ (bound .draining false 0).state
      ∧ (awaited .draining false).here.hwaits.filter (fun w => w.handle == 9 && w.want == .draining) = [⟨1, 2, 9, .draining, false⟩]
      ∧ ((awaited .free true).here.hwaits.all fun w => w.handle == 9 && w.want == .free && w.unbind) = true := by decide

theorem witness_HandleInstructions_all_bound :
    (∀ n < 128, (allBound.here.handle n).bnd = true) ∧ ((allBound.here.setHandle 127 Handle.free).handle 127).bnd = false
      ∧ ∀ m < 127, ((allBound.here.setHandle 127 Handle.free).handle m).bnd = true := by decide +kernel

/-- A machine whose engine 5 is in a state. -/
def withStream (x : Stream) : State := withTile fun t => t.setStream 5 x
/-- A stream with a descriptor that permits SWIN: READ of 16-byte elements in three dimensions. -/
def windowed : Stream := { Stream.init with state := .ready, desc := [0x1000000000000000 + 0x0200000000000000, 1, 0, 0, 0, 0] }

theorem witness_EngineCommandsIssue :
    (ready.here.cmdq.length < 16 ∧ ready.readyCommand [6] ord21 = true ∧ ready.readyCommand [] ord21 = true)
      ∧ ((0x1FFFE0 : Word).toNat < 0x200000 ∧ (0x1FFFE0 : Word).toNat % 32 = 0) ∧ (0x1FFFE1 : Word).toNat % 32 ≠ 0
      ∧ (ready.here.queue 33).length < 8 ∧ (∀ c ∈ ready.here.cmdq, ¬(4 ≤ c.kind ∧ c.unit = 5))
      ∧ ((ready.here.stream 5).state ≠ .run ∧ (ready.here.stream 5).state ≠ .parked)
      ∧ ((0x1FFFD0 : Word).toNat + 47 < 0x200000 ∧ (0x1FFFD0 : Word).toNat % 16 = 0) ∧ 0x200000 ≤ (0x1FFFD1 : Word).toNat + 47
      ∧ (0x1FFFC8 : Word).toNat % 16 ≠ 0
      ∧ (ready.here.stream 5).windowBad 0 = true ∧ ((withStream windowed).here.stream 5).windowBad 0x211 = false
      ∧ ((withStream { Stream.init with state := .ready }).here.stream 5).state = .ready
      ∧ (ready.here.stream 5).state = .idle
      ∧ (let s := withTile fun t => { t with cmdq := List.replicate 16 ⟨0, 0, 0, 0, 0⟩ };
        16 ≤ s.here.cmdq.length) ∧ ready.me.ready [5] ord21 = true
      ∧ (let s := (withTile fun t => { t with cmdq := [⟨4, 0, 0, 0, 5⟩] }).modHere fun t => t.setQueue 33 (List.replicate 8 default);
        (s.here.cmdq.any fun c => decide (4 ≤ c.kind ∧ c.unit = 5)) = true ∧ 8 ≤ (s.here.queue 33).length)
      ∧ ((withStream { Stream.init with state := .run }).here.stream 5).state = .run := by decide

/-- A machine whose command queue holds a command of a kind, for queue or engine 5. -/
def commanded (kind : Nat) (arg : Word) : State :=
  withTile fun t => { (t.spadWrite 0 0x58 (toBytes 64 8) false) with cmdq := [⟨kind, 0, 2, arg, 5⟩] }
/-- The descriptor of 64 bytes that stands at 0x40. -/
def descriptor (cb8 : Bool) : CopyDesc := ⟨0x40, 0, 0, 0, 0, 0, 0, 0, 0, false, 0, 0, 0, 0, false, 64, cb8⟩

theorem witness_EngineCommandsIssue_turn :
    (∀ k < 8, ((commanded k 0).tile 0 12).cmdq = ⟨k, 0, 2, 0, 5⟩ :: [] ∧ ((commanded k 0).tile 0 12).jobs.length < 128)
      ∧ (let s := (commanded 0 0).modHere fun t => { t with jobs := List.replicate 128 default };
        128 ≤ (s.tile 0 12).jobs.length)
      ∧ (((commanded 7 0).tile 0 12).stream 5).state ≠ .run ∧ (((commanded 7 0).tile 0 12).queue 5).length < 8
      ∧ (commanded 2 0x40).here.cmdq.map (fun c => c.arg) ≠ [0]
      ∧ (match (commanded 0 0x40).here.copyDesc 0x40 false with
        | .ok y => decide (y = descriptor false)
        | .error _ => false) = true
      ∧ (match (commanded 1 0x40).here.copyDesc 0x40 true with
        | .ok y => decide (y = descriptor true)
        | .error _ => false) = true
      ∧ (((commanded 7 0).modHere fun t => t.setStream 5 { Stream.init with state := .run }).haltStream 0 12 ⟨7, 0, 2, 0, 5⟩).isSome = true := by
  decide +kernel

/-- A copy of 64 bytes of the tile of which `n` bytes are written. -/
def job (n : Nat) (f : CopyDesc → CopyDesc) : Job :=
  ⟨3, f ⟨0, 0, 0x1000, 0, 0, 0, 0, 0, 0, false, 0, 0, 0, 0, false, 64, false⟩, 0, 2, none, false, n, 0, false, false, [], false, none⟩
/-- A machine with one copy. -/
def copying (j : Job) : State := withTile fun t => { t with jobs := [j] }
/-- A machine with a template for queue 5 that holds a token. -/
def armed (k : Token) (jobs : List Job) : State := withTile fun t =>
  ({ t with jobs := jobs, templates := [(5, ⟨(job 0 id).desc, 0⟩)] }).setQueue 5 [k]
/-- A token for one unit of 64 bytes. -/
def token : Token := ⟨0x400, false, .none, some ⟨(job 0 id).desc, 0⟩⟩
/-- A stream engine that runs, of a kind, with `n` elements of 16 bytes. -/
def running (kind n : Nat) : Stream :=
  { Stream.init with state := .run, desc := [BitVec.ofNat 64 (kind * 2 ^ 61 + 4 * 2 ^ 58), 0, BitVec.ofNat 64 (n * 2 ^ 32)] }

theorem witness_EngineEvents :
    (let j := job 0 id;
      ((copying j).tile 0 12).job 3 = some j ∧ j.wait = false ∧ j.done < j.desc.len ∧ j.desc.sk ≠ 2)
      ∧ (let j := job 64 id;
        ((copying j).tile 0 12).job 3 = some j ∧ j.desc.len ≤ j.done ∧ j.acquired = false ∧ j.staging = none)
      ∧ (let j := { job 64 id with staging := some 0 };
        ((copying j).tile 0 12).job 3 = some j ∧ j.staging ≠ none)
      ∧ (let j := { job 64 id with acquired := true };
        ((copying j).tile 0 12).job 3 = some j ∧ j.acquired = true ∧ j.desc.len ≤ j.done)
      ∧ (let j := job 0 fun x => { x with sk := 2 };
        ((copying j).tile 0 12).job 3 = some j ∧ j.desc.sk = 2 ∧ j.acquired = false ∧ j.done = 0)
      ∧ (((armed token []).tile 0 12).queue 5 = token :: [] ∧ (tget ((armed token []).tile 0 12).templates 5).isSome = true
        ∧ bits token.bits.toNat 10 15 ≠ 0 ∧ bits token.bits.toNat 0 10 = 0 ∧ token.psn = false ∧ ((armed token []).tile 0 12).jobs.length < 128)
      ∧ ¬(bits (0x3FF : Word).toNat 10 15 ≠ 0 ∧ bits (0x3FF : Word).toNat 0 10 = 0)
      ∧ ((withStream { running 0 0 with out := [default] }).tile 0 12 |>.stream 5).out ≠ []
      ∧ (let x := running 6 2;
        x.out = [] ∧ x.state = .run ∧ x.wait = false ∧ x.pos < x.total ∧ x.kind = 6)
      ∧ (let x := running 0 2;
        x.pos < x.total ∧ x.kind ≠ 6 ∧ readKind x.kind = true ∧ x.hu = false)
      ∧ (let x := running 1 2;
        x.pos < x.total ∧ x.kind ≠ 6 ∧ readKind x.kind = false)
      ∧ (let x := running 0 0;
        x.out = [] ∧ x.state = .run ∧ x.wait = false ∧ x.total ≤ x.pos ∧ x.acquired = false ∧ x.rowsLeft = false)
      ∧ ({ token with tpl := none }).tpl = none := by decide

/-- A machine whose engine 5 reads handle 9 through `x`. -/
def consuming (e : Handle) (x : Stream) : State := (withHandle e).modHere fun t => t.setStream 5 x
/-- A READ through handle 9 of `n` elements of 16 bytes. -/
def throughHandle (n : Nat) : Stream :=
  { Stream.init with state := .run, desc := [BitVec.ofNat 64 (4 * 2 ^ 58 + 9 * 2 ^ 38 + 2 ^ 32), 0, BitVec.ofNat 64 (n * 2 ^ 32)] }

theorem witness_EngineEvents_consumers :
    (let x := throughHandle 2;
      x.state = .run ∧ x.kind = 0 ∧ x.hu = true ∧ x.acquired = false ∧ x.pos < x.total ∧ x.hnd = 9)
      ∧ ((consuming (bound .full false 0) (throughHandle 2)).here.handle 9).startConsumer 9 (throughHandle 2).swz = .go
      ∧ ((consuming (bound .free false 0) (throughHandle 2)).here.handle 9).startConsumer 9 (throughHandle 2).swz = .wait
      ∧ ((consuming Handle.free (throughHandle 2)).here.handle 9).startConsumer 9 (throughHandle 2).swz = .fault ⟨10, 0, 9⟩
      ∧ (let x := { throughHandle 0 with acquired := true };
        x.acquired = true ∧ x.total ≤ x.pos) := by decide +kernel

theorem witness_EngineEvents_full :
    128 ≤ ((armed token (List.replicate 128 (job 0 id))).tile 0 12).jobs.length := by decide +kernel

/-! ### Premises of the statements about the grid and the island -/

/-- A machine whose task awaits a splice. -/
def splicing : State := ready.modRecord 0 0 fun r => { r with splSent := true }
/-- A machine whose shadow is loading. -/
def loading : State := withTile fun t => { t with shadow := .loading }
/-- A word without poison in a queue or buffer. -/
def queued : Queued := ⟨⟨9, 31, 0, false, false⟩, .none⟩

theorem witness_GridCommandsIssue :
    (ready.me.ready (selRegs (.one 7)) ord21 = true ∧ ready.here.select (selAll (.one 7)) (ready.me.selValue (.one 7)) = some [12]
      ∧ ready.here.select (selAll .all) 0 = some [12])
      ∧ (withRegs [(7, 1)]).here.select false ((withRegs [(7, 1)]).me.rd 7) = none
      ∧ (ready.readyMem (6 :: selRegs (.one 7)) ord21 = true ∧ ready.gridBusy 0 (ready.selected (.one 7)) = false ∧ ready.splicePending = false)
      ∧ (0x200000 < 0x1F3001 + 53248) ∧ (0x1F2FFF + 53248 ≤ 0x200000 ∧ 0x1F2FFF % 64 ≠ 0) ∧ (0x1F3000 + 53248 ≤ 0x200000 ∧ 0x1F3000 % 64 = 0)
      ∧ (ready.me.ready [] ord21 = true ∧ ready.gridBusy 0 ready.here.sites = false) ∧ splicing.splicePending = true
      ∧ loading.gridBusy 0 loading.here.sites = true
      ∧ (ready.readyMem [6, 7] ord21 = true ∧ (vget (ready.here.pe (portPe 3)).inq 3).length < 4)
      ∧ (let s := withTile fun t => t.modPe (portPe 3) fun p => { p with inq := vset p.inq 3 (List.replicate 4 queued) };
        4 ≤ (vget (s.here.pe (portPe 3)).inq 3).length)
      ∧ (let s := withTile fun t => t.setPort 3 [queued];
        s.here.port 3 = queued :: [] ∧ queued.word.psn.getLsbD 0 = false ∧ queued.word.psn.getLsbD 1 = false ∧ (3#2).getLsbD 0 = true
          ∧ (3#2).getLsbD 1 = true ∧ s.readyMem [5] ord21 = true)
      ∧ ready.here.port 3 = []
      ∧ (0x1FFFF0 + 16 ≤ 0x200000 ∧ 0x1FFFF0 % 16 = 0 ∧ 0x38000 < 2 ^ 19 ∧ flagOf 0x38000 18 = false
        ∧ ready.here.inRegion (bits 0x38000 0 4) (bits 0x38000 4 4) = true ∧ flagOf 0x78000 18 = true ∧ 0x78000 % 256 = 0 ∧ 0x1FFFE8 % 16 ≠ 0
        ∧ flagOf 0x78001 18 = true ∧ 0x78001 % 256 ≠ 0)
      ∧ splicing.readyMem (6 :: selRegs (.one 7)) ord21 = true ∧ splicing.me.ready [] ord21 = true ∧ loading.splicePending = false
      ∧ loading.gridBusy 0 (loading.selected (.one 7)) = true
      ∧ (ready.me.ready [5, 7] ord21 = true ∧ (withRegs [(7, 1)]).me.ready [5, 7] ord21 = true)
      ∧ (ready.me.ready [5, 7] ord21 = true ∧ ready.here.select false (ready.me.rd 7) = some [12]) := by decide

/-- A machine whose island has a configuration word. -/
def configured (c : Word) : State := withTile fun t => { t with island := { t.island with configured := true, config := c } }

theorem witness_IslandCommandsIssue :
    (ready.me.ready [6] ord21 = true ∧ mxConfigBad (ready.queueTaken (mxPe 0) (mxQueue 0)) 0 = false ∧ mxConfigBad false 6 = true)
      ∧ (rowRangeBad true 0x00010000 = false ∧ rowRangeBad true 0 = true)
      ∧ (ready.readyMem [6] ord21 = true ∧ ready.readyMem [] ord21 = true ∧ ready.here.island.judged = none)
      ∧ (configured 0).here.island.judged = some 0 ∧ (64 % 64 = 0 ∧ 1 % 64 ≠ 0)
      ∧ (64 + mxExtent 0 ≤ 0x200000 ∧ 0x200000 < 0x1FFFC0 + mxExtent 0)
      ∧ ready.readyCommand [6, 7] ord21 = true ∧ (mxReadBad 0 0 0 false = true ∧ mxReadBad 0 0 0x00010000 false = false)
      ∧ ready.me.ready [5] ord21 = true := by decide

/-- A machine whose task has a successor list of two. -/
def withSuccs : State := ready.modRecord 0 0 fun r => { r with nsucc := 2 }
/-- A machine whose task's end has been asked for. -/
def ending : State := ready.modRecord 0 0 fun r => { r with endReq := .done }

theorem witness_TaskInstructions :
    (ready.here.task = some 0 ∧ ready.record ready.cur.die 0 = some Record.running ∧ ready.me.ready [] Order.none = true
      ∧ Record.running.endReq = .none)
      ∧ (ending.here.task = some 0 ∧ ending.record 0 0 = some { Record.running with endReq := .done } ∧ ending.me.ready [] Order.none = true)
      ∧ (withSuccs.me.ready [6] ord21 = true ∧ (at6 2 withSuccs).me.rd 6 = 2 ∧ 2 ≤ (at6 2 withSuccs).me.rd 6
        ∧ ((at6 1 withSuccs).me.rd 6).toNat < 2)
      ∧ ready.readyMem [5, 6, 7] Order.none = true
      ∧ (tstatBad 0x8000000000000000 = true ∧ tstatBad 2 = false ∧ bits (2 : Word).toNat 62 2 = 0
        ∧ tstatBad 0x4000000000000000 = false ∧ bits (0x4000000000000000 : Word).toNat 62 2 ≠ 0) := by decide

/-! ### Firings -/

/-- A word that tests and writes nothing: d0 and d1 give d2 in I32 lanes. -/
def plain : PeWord := ⟨0, 0, 0, 0, false, 0, 0, 2, 0, 1, 0, 0, 0, 3⟩
/-- A tile whose grid is FIRING with an active plane; PE 4 has the move. -/
def grid (f : Pe → Pe) : State :=
  { (withTile fun t => ({ t with firing := true, planeOn := true }).modPe 4 f) with cur := ⟨0, 12, 0, 4, 0⟩ }
/-- d0 is 7 and d1 is 5 in every I32 lane. -/
def firing : State := grid fun p => (p.setD 0 0x00000007000000070000000700000007 0).setD 1 0x00000005000000050000000500000005 0
/-- Poison in d0, in d1. -/
def poisonedA : State := grid fun p => p.setD 0 7 1
/-- Poison in d1. -/
def poisonedB : State := grid fun p => p.setD 1 7 1
/-- A word that names I0 and its dequeue. -/
def fromQueue : PeWord := { plain with inrdy := 1, sa := 8, deq := 1 }
/-- A queue whose head's VC entry names F32, which I32 does not read. -/
def mispaired : State := grid fun p => { p with inq := vset p.inq 0 [queued] }
/-- Two queues with words whose VC entry 31 names F32 in one part. -/
def twoQueues : State := grid fun p => { p with inq := vset (vset p.inq 0 [queued]) 1 [queued] }
/-- A word for MERGE, which reads both queues in F32 lanes. -/
def merging : PeWord := { plain with inrdy := 3, sa := 8, sb := 9, deq := 3, lt := 0 }

/-- Every PE opcode is triggered, and its operands are well paired and free of poison. -/
theorem witness_firings :
    ∀ op < 43, op ≠ 0x29 → firing.fires op plain = true ∧ (firing.firingCtx op plain (op == 0x16)).a.ok = true
      ∧ (firing.firingCtx op plain (op == 0x16)).b.ok = true ∧ (firing.firingCtx op plain (op == 0x16)).a.psn = 0
      ∧ (firing.firingCtx op plain (op == 0x16)).b.psn = 0 ∧ plain.pact ≠ 3 := by decide +kernel

theorem witness_FiringFrame :
    (asleep.fires 3 plain = false)
      ∧ (mispaired.fires 3 fromQueue = true ∧ (mispaired.firingCtx 3 fromQueue false).a.ok = false)
      ∧ (∀ op ∈ [0x24, 0x25, 0x26, 0x27, 0x28, 0x21, 0x22], poisonedA.fires op plain = true ∧ (poisonedA.firingCtx op plain false).a.ok = true
        ∧ (poisonedA.firingCtx op plain false).b.ok = true ∧ (poisonedA.firingCtx op plain false).a.psn ≠ 0
        ∧ (poisonedA.firingCtx op plain false).a.psn.getLsbD 0 = true)
      ∧ (∀ op ∈ [0x22, 0x1E], poisonedB.fires op plain = true ∧ (poisonedB.firingCtx op plain false).b.psn.getLsbD 0 = true)
      ∧ (∀ op ∈ [3, 0xE, 1], poisonedA.fires op { plain with pact := 3, pidx := 1 } = true
        ∧ (poisonedA.firingCtx op { plain with pact := 3, pidx := 1 } false).a.psn ≠ 0)
      ∧ (let s := grid fun p => { p with inq := vset p.inq 0 [⟨{ queued.word with psn := 1 }, .none⟩] };
        s.fires 0x22 fromQueue = true ∧ (s.firingCtx 0x22 fromQueue false).a.ok = false ∧ (s.firingCtx 0x22 fromQueue false).a.psn ≠ 0) := by
  decide +kernel

theorem witness_GridMovesAndLogic :
    isQueue merging.sa = true ∧ isQueue merging.sb = true ∧ merging.sa ≠ merging.sb ∧ twoQueues.fires 0x20 merging = true
      ∧ (twoQueues.firingCtx 0x20 merging false).a.ok = true ∧ (twoQueues.firingCtx 0x20 merging false).b.ok = true
      ∧ merging.pact ≠ 3 := by decide +kernel

/-- A PE with d1 as the kind word of RED or CVT. -/
def kindWord (k : QWord) : State := grid fun p => p.setD 1 k 0

theorem witness_GridConversions :
    (let c := (kindWord 0).firingCtx 0x1B plain false;
      (kindWord 0).fires 0x1B plain = true ∧ c.a.ok = true ∧ c.b.ok = true ∧ bits c.b.word.toNat 0 32 ≤ 2)
      ∧ (let c := (kindWord 3).firingCtx 0x15 plain false;
        (kindWord 3).fires 0x15 plain = true ∧ Format.ofCode (bits (bits c.b.word.toNat 0 32) 0 4) = some .i32 ∧ bits (bits c.b.word.toNat 0 32) 6 26 = 0)
      ∧ (let c := (kindWord 0x40).firingCtx 0x15 plain false;
        (kindWord 0x40).fires 0x15 plain = true ∧ bits (bits c.b.word.toNat 0 32) 6 26 ≠ 0) := by decide +kernel

/-- A PE whose queue I0 has a VC entry for E4M3, and words for the two operands of CVTS. -/
def stochastic : State := grid fun p =>
  { p with planeA := { p.planeA with vc := [(31, 0x7000)] }, inq := vset (vset p.inq 0 [queued]) 1 [⟨⟨9, 30, 0, false, false⟩, .none⟩] }

theorem witness_GridConversions_stochastic :
    let w := { merging with sa := 9, sb := 8 };
    let c := stochastic.firingCtx 0x16 w true;
    stochastic.fires 0x16 w = true ∧ c.a.ok = true ∧ c.b.ok = true ∧ bits (c.p.vcEntry (c.b.tag.getD 0)) 12 4 = 7 ∧ 7 ≠ w.lt.val := by
  decide +kernel

/-- A released arrival of BARN in slot 0 of a control PE. -/
def released : State := grid fun p => { p with arrivals := [(0, true)] }

theorem witness_GridControlNodes :
    released.fires 0x29 plain = true ∧ (released.firingCtx 0x29 plain false).a.ok = true
      ∧ (released.firingCtx 0x29 plain false).b.ok = true := by decide +kernel

/-- An address word in d0: an assigned window doubleword, and one that is no window address. -/
def addressed (a : QWord) : State :=
  { (grid fun p => p.setD 0 a 0) with windowOwner := [(0, 0)], windowDies := [0] }

theorem witness_GridMemoryNodes :
    ((addressed 0).windowStatus 0 0 4 false ≠ 0)
      ∧ (addressed 0x01FFFFFFC0000000).windowStatus 0 0x01FFFFFFC0000000 4 false = 0
      ∧ (addressed 0x01FFFFFFC0000000).windowStatus 0 0x01FFFFFFC0000000 8 false = 0
      ∧ (firing.firingCtx 0x2A plain false).p.switched = false
      ∧ (firing.firingCtx 0x2A plain false).tile.succ = none := by decide +kernel

/-- An address word whose upper half is poisoned. -/
def halfPoisoned : State := grid fun p => p.setD 0 7 2

theorem witness_GridMemoryNodes_poison :
    ∀ op ∈ [0x24, 0x25, 0x26, 0x27, 0x28], halfPoisoned.fires op plain = true ∧ (halfPoisoned.firingCtx op plain false).a.ok = true
      ∧ (halfPoisoned.firingCtx op plain false).b.ok = true ∧ (halfPoisoned.firingCtx op plain false).a.psn.getLsbD 0 = false
      ∧ (halfPoisoned.firingCtx op plain false).a.psn.getLsbD 1 = true ∧ plain.pact ≠ 3 := by decide +kernel

theorem witness_FiringDelivers :
    let c := firing.firingCtx 3 plain false;
    let r := c.result 12 false;
    r.delay = none ∧ r.dst < 8 ∧ c.f.deq = 0 := by decide +kernel

/-- An arrival of BARN in slot 0 of PE 4 whose constant names group 0 and one arrival. -/
def arriving : State := grid fun p =>
  { p with planeA := { p.planeA with slots := [(0, 0x0000000053E18003)], consts := vset p.planeA.consts 0 0x0000000100000000 } }
/-- A word on the route of PE 4, queue 0, to I2 of PE 5. -/
def onRoute : InFlight := ⟨4, 0, 0x8005100004000000, ⟨9, 0, 0, false, false⟩⟩
/-- An island command. -/
def islandCmd (kind : Nat) : IslandCmd := ⟨kind, 0, 2, 0x40, 0, 0, 0, false, false⟩
/-- A machine whose island holds a command, with an own and a back latch in a state. -/
def islandWith (c : List IslandCmd) (front back : Nat) : State := withTile fun t => { t with island := { t.island with
  cmds := c, configured := true, front := { t.island.front with state := front }, back := { t.island.back with state := back } } }

theorem witness_GridAndIslandEvents :
    (let t := arriving.tile 0 12;
      tget (t.pe 4).plane.slots 0 = some 0x0000000053E18003 ∧ t.planeTask (t.pe 4) = some 0 ∧ bits 0x0000000053E18003 25 7 = 0x29
        ∧ arriving.mayFire 0 12 4 = true ∧ tget (t.pe 4).arrivals 0 = none ∧ (t.pe 4).trigger 0x29 (peFields 0x0000000053E18003) = true)
      ∧ (let s := grid fun p => { p with delayed := [⟨6, 2, default, false, 0, 0, 0⟩] };
        (s.tile 0 12).pes.find? (fun e => e.2.delayed.any fun x => x.id == 6 && x.kind == 0) = some (4, (s.tile 0 12).pe 4)
          ∧ ((s.tile 0 12).pe 4).delayed.find? (fun x => x.id == 6) = some ⟨6, 2, default, false, 0, 0, 0⟩)
      ∧ (let s := withTile fun t => { t with routes := [onRoute] };
        lget (s.tile 0 12).routes 0 = some onRoute ∧ (s.tile 0 12).routes.take 0 = []
          ∧ ((s.modTile 0 12 fun t => { t with routes := [] }).landWord 0 12 onRoute).isSome = true)
      ∧ (let s := (withTile fun t => ({ t with splicing := true }).modPe 4 fun p => { p with ended := true });
        (s.tile 0 12).splicing = true ∧ ((s.tile 0 12).pe 4).maySwitch = true)
      ∧ (loading.tile 0 12).shadow = .loading := by decide +kernel

theorem witness_GridAndIslandEvents_island :
    ready.here.firmware = none ∧ (withTile fun t => { t with firmware := some 1 }).here.firmware ≠ none ∧ (let s := islandWith [islandCmd 1] 0 0;
      let x := (s.tile 0 12).island;
      x.loadReady = some (islandCmd 1) ∧ x.rotReady (s.tile 0 ((s.tile 0 12).ringNext 12)).island = none)
      ∧ (let s := islandWith [islandCmd 2] 1 0;
        let x := (s.tile 0 12).island;
        x.loadReady = none ∧ x.rotReady (s.tile 0 ((s.tile 0 12).ringNext 12)).island = some (islandCmd 2)
          ∧ (s.tile 0 ((s.tile 0 12).ringNext 12)).island.configured = true)
      ∧ (let s := islandWith [{ islandCmd 1 with fill := true }] 0 1;
        (s.tile 0 12).island.back.state = 1
          ∧ (s.tile 0 12).island.cmds.find? (fun c => c.kind == 1 && c.fill) = some { islandCmd 1 with fill := true })
      ∧ ((islandWith [islandCmd 3] 0 0).tile 0 12).island.dueCmd = some (islandCmd 3)
      ∧ (let s := (islandWith [] 1 0).modHere fun t => { t with island := { t.island with lanes := Vector.replicate 9 [queued] } };
        let x := (s.tile 0 12).island;
        x.dueCmd = none ∧ x.configured = true ∧ (s.die 0).withheld = false ∧ s.here.firmware = none ∧ x.half = none ∧ mxWide x.config = false
          ∧ x.nextBeat = some (queued.word :: List.replicate 8 queued.word) ∧ (s.tile 0 12).takesBeat (some queued.word) = true) := by
  decide +kernel

/-- An island of BF16 whose lanes hold words, with a first beat taken or not. -/
def wideIsland (half : Option (List GWord)) : State := (islandWith [] 1 0).modHere fun t =>
  { t with island := { t.island with config := 4, half := half, lanes := Vector.replicate 9 [queued] } }

theorem witness_GridAndIslandEvents_wide :
    (let x := (wideIsland none).here.island;
      x.dueCmd = none ∧ x.configured = true ∧ ((wideIsland none).die 0).withheld = false ∧ (wideIsland none).here.firmware = none ∧ x.half = none
        ∧ mxWide x.config = true ∧ x.nextBeat = some (queued.word :: List.replicate 8 queued.word)
        ∧ (wideIsland none).here.takesBeat (some queued.word) = true)
      ∧ (let s := wideIsland (some (queued.word :: []));
        let x := s.here.island;
        x.dueCmd = none ∧ x.configured = true ∧ x.half = some (queued.word :: []) ∧ x.nextBeat = some (List.replicate 8 queued.word)
          ∧ s.here.takesBeat none = true) := by decide +kernel

/-! ### Premises of the statements about dispatchers -/

/-- A message of device 0, F1 with a sequence number (R75). -/
def decr (n : Nat) : DecrMsg := ⟨0, 1, 5, n, 7, 0, 0, 0, 0⟩
/-- A dispatcher whose window for F1 of device 0 stands as in R77: HI 100 and its map. -/
def windowed100 (map : BitVec 64) : State := ready.modDie 0 fun f => { f with windows := tput f.windows 1 (100, map) }
/-- A record that awaits decrements of instance 5. -/
def dormant (n : Nat) : Record := { Record.blank with inst := 5, dcnt := n }

theorem witness_DecrementMessagesAreApplied :
    (0 < (BitVec.ofNat 32 101 - BitVec.ofNat 32 100).toInt)
      ∧ ((BitVec.ofNat 32 37 - BitVec.ofNat 32 100).toInt ≤ 0 ∧ -64 < (BitVec.ofNat 32 37 - BitVec.ofNat 32 100).toInt
        ∧ (1 : BitVec 64).getLsbD 63 = false)
      ∧ ((BitVec.ofNat 32 36 - BitVec.ofNat 32 100).toInt ≤ -64) ∧ ((1 : BitVec 64).getLsbD 0 = true)
      ∧ (let s := ready.setRecord 0 7 (dormant 2);
        s.record 0 7 = some (dormant 2) ∧ (dormant 2).inst = (decr 101).tinst ∧ (dormant 2).reserved = false ∧ (dormant 2).state = .dormant
          ∧ 1 < (dormant 2).dcnt ∧ (dormant 1).dcnt = 1)
      ∧ (let r := { dormant 0 with state := .ready };
        (ready.setRecord 0 7 r).record 0 7 = some r ∧ r.state ≠ .dormant)
      ∧ (let r := { dormant 2 with fwd := true };
        (ready.setRecord 0 7 r).record 0 7 = some r ∧ r.inst = (decr 101).tinst ∧ r.reserved = false ∧ r.state = .dormant ∧ r.fwd = true ∧ 1 < r.dcnt)
      ∧ (let r := { dormant 0 with reserved := true };
        (ready.setRecord 0 7 r).record 0 7 = some r ∧ r.inst = (decr 101).tinst ∧ r.reserved = true)
      ∧ ready.record 0 7 = none ∧ (let r := { dormant 2 with inst := 6 };
        (ready.setRecord 0 7 r).record 0 7 = some r ∧ r.inst ≠ (decr 101).tinst) := by decide

/-- A kept message toward F1 of device 0. -/
def kept (n : Nat) : Kept := ⟨0, 1, .decrement, decr n⟩
/-- A dispatcher that keeps the messages 1 to `n`. -/
def keeping (n : Nat) : State := ready.modDie 0 fun f => { f with kept := (List.range n).map fun k => kept (k + 1) }

theorem witness_DecrementMessagesAreKept :
    (∀ y ∈ ready.keptTo 0 0 1, y.msg.seq ≠ 1)
      ∧ ((keeping 64).keptTo 0 0 1).find? (fun y => y.msg.seq == 1) = some (kept 1) ∧ ((keeping 64).keptTo 0 0 1).length ≤ 64
      ∧ ((keeping 65).keptTo 0 0 1).find? (fun y => y.msg.seq == 1) = some (kept 1) ∧ 64 < ((keeping 65).keptTo 0 0 1).length
      ∧ lget ((((keeping 65).modDie 0 fun f => { f with kept := f.kept.erase (kept 1) })).keptTo 0 0 1) 63 = some (kept 65)
      ∧ lget ((keeping 64).die 0).kept 0 = some (kept 1)
      ∧ (inWindowOf ((keeping 64).keptTo 0 0 1) 64 = true ∧ inWindowOf ((keeping 64).keptTo 0 0 1) 65 = false)
      ∧ ((decr 1).ok = true ∧ (encodeDecr .decrement (decr 1)).1 ≠ 0)
      ∧ (let s := ready.modPlinth fun p => { p with admitted := [3] };
        let r : UaReq := { (default : UaReq) with src := 3, op := .write, bytes := 64, mask := List.replicate 64 true };
        s.plinth.admitted.contains r.src = true ∧ r.op = .write ∧ r.bytes = 64 ∧ r.off % 64 = 0 ∧ r.mask = List.replicate 64 true
          ∧ ready.plinth.admitted.contains r.src = false) := by decide +kernel

/-- A machine with a record. -/
def holding (r : Record) : State := ready.setRecord 0 0 r
/-- The record of a task in a state. -/
def inState (x : TaskState) : Record := { Record.running with state := x }
/-- The machine after boot with its host port up; a die serves. -/
def booted : State := ready.modPlinth fun p => { p with booted := true, golfyUp := true }
/-- An operand of 64 bytes for handle 0 of every tile with a code of swizzle. -/
def operand (swz : Nat) : Word × Word := (0, BitVec.ofNat 64 (2 ^ 55 + swz * 2 ^ 43 + 64))

theorem witness_DispatcherEvents :
    (let s := booted.modDie 0 fun f => { f with queues := [(0, [0])] };
      s.mayPlace 0 = true ∧ (s.die 0).spliceReady = none)
      ∧ (let s := (booted.setRecord 0 0 { Record.running with splSent := true, succRec := some 1 }).setRecord 0 1 (inState .ready);
        s.mayPlace 0 = true ∧ (s.die 0).spliceReady = some (0, 1)) := by decide

theorem witness_DispatcherEvents_stage :
    (inState .placed).state = .placed ∧ ({ inState .placed with restore := true }).restore = true
      ∧ (let r := { inState .placed with opds := [operand 0] };
        r.restore = false ∧ (r.opds.all fun o => decide (((holding r).tile 0 (r.stageHost o.2)).jobs.length + r.opds.length ≤ 128))
          ∧ (r.opds.all fun o => !swizzleReserved (BitVec.ofNat 5 (bits o.2.toNat 43 5))))
      ∧ (let r := { inState .placed with opds := [operand 31] };
        (r.opds.all fun o => decide (((holding r).tile 0 (r.stageHost o.2)).jobs.length + r.opds.length ≤ 128))
          ∧ (r.opds.any fun o => swizzleReserved (BitVec.ofNat 5 (bits o.2.toNat 43 5)))) := by decide +kernel

theorem witness_DispatcherEvents_run :
    (let r := { inState .staging with codeResident := true };
        (holding r).record 0 0 = some r ∧ r.state = .staging ∧ r.restore = false ∧ r.codeResident = true ∧ r.pred = none
          ∧ (holding r).staged 0 0 r = true)
      ∧ (inState .runnable).state = .runnable ∧ (inState .runnable).pred = none ∧ (inState .runnable).restore = false := by decide

theorem witness_DispatcherEvents_retire :
    (let r := { Record.running with endReq := .done };
        (holding r).record 0 0 = some r ∧ r.state = .running ∧ r.pred = none ∧ r.succRec = none ∧ (holding r).writesDone 0 r = true
          ∧ r.succPsn = false)
      ∧ (let r := { Record.running with endReq := .done, succRec := some 1 };
        let s := ((holding r).setRecord 0 1 { Record.running with pred := some 0 }).modHere fun t => { t with bndDone := true };
        s.record 0 0 = some r ∧ s.boundaryDone 0 0 1 = true ∧ s.writesDone 0 r = true) := by decide

/-- A machine with a freeze pool of one slot. -/
def pooled (r : Record) : State := { holding r with freezePool := [⟨0, 0, 0, false⟩] }
/-- A restoring task with one image, and the lines that were written into its slot. -/
def restoring (held : List Nat) : Record := { inState .staging with restore := true, image := [⟨12, Tile.init, some 0, [], held⟩] }

theorem witness_DispatcherEvents_freeze :
    (let r := { Record.running with endReq := .freeze };
      (pooled r).record 0 0 = some r ∧ r.state = .running ∧ r.endReq = .freeze ∧ (pooled r).regionAtRest 0 r.sites = true
        ∧ (pooled r).freezeRoom [(0, 0)] = true ∧ (holding r).freezeRoom [(0, 0)] = false)
      ∧ (restoring []).state = .staging ∧ (restoring []).pred = none ∧ (restoring []).succRec = none
      ∧ (pooled (restoring [2])).badTile (restoring [2]) = some 0 ∧ (holding (restoring [])).badTile (restoring []) = none
      ∧ (restoring []).poisonedTile [] = none ∧ (restoring []).poisonedTile [(0, imageParts.sum)] = some 0
      ∧ (pooled (restoring [])).slotsInReach 0 true [0] = true ∧ (pooled (restoring [])).slotsInReach 0 false [0] = true
      ∧ (let s : State := { pooled (restoring []) with homes := [(0, ⟨0, false, false, 0, 0⟩)] };
        s.slotsInReach 0 true [0] = false ∧ s.slotsInReach 0 false [0] = false) := by decide +kernel

/-- A machine whose dispatcher reads a kernel image of one NOP from host memory. -/
def loadable : State :=
  { ((booted.setRecord 0 0 (inState .staging)).modDie 0 fun f => { f with tlb := [{ leaf with pbase := 2 ^ 50, x := true, c := false }] }) with
    contexts := [(0, ⟨true, 0, 0⟩)]
    hostMem := mwrite (mwrite (mwrite [] 0 8 0x4B4E000000000000) 8 8 0x0000000400000040) 64 4 0x02000000 }

/-- The record that the load leaves. -/
theorem witness_DispatcherEvents_load :
    let s := loadable.loadTask 0 0 (inState .staging);
    let q := { inState .staging with codeResident := true };
    loadable.record 0 0 = some (inState .staging) ∧ s.record 0 0 = some q ∧ q.state = .staging ∧ q.codeResident = true ∧ q.pred = none
      ∧ s.staged 0 0 q = true := by decide +kernel

/-! ### Premises of the statements about host commands -/

/-- A command with the expected SEQ. -/
def cmd (a0 a1 a2 a3 a4 : Word) : Cmd := ⟨0, 0, 1, 9, a0, a1, a2, a3, a4, 0⟩
/-- The smallest maquette: one task of one tile on F0 (R301, R303). -/
def smallMaquette : Memory := mwrite (mwrite (mwrite [] 0 8 0x4D51000000200000) 8 8 192) 72 8 0x0000000000880000
/-- The machine with that maquette in host memory at 0. -/
def withImage : State := { booted with hostMem := smallMaquette }
/-- The machine with that maquette loaded on F0 under handle 3. -/
def withMaquette : State := booted.modDie 0 fun f => { f with maquettes := [(3, ⟨smallMaquette, 192, false⟩)] }

theorem witness_HostCommandOrder :
    State.reset.plinth.mayPerform = false
      ∧ (booted.plinth.mayPerform = true ∧ booted.plinth.progress = none ∧ booted.plinth.queue = []
        ∧ (cmd 0 0 0 0 0).seq.toNat = booted.plinth.expectSeq ∧ ({ cmd 0 0 0 0 0 with reserved := 1 }).reserved ≠ 0)
      ∧ (let s := booted.modPlinth fun p => { p with progress := some ⟨0, 8, 0, 0⟩ };
        s.plinth.mayPerform = true ∧ s.plinth.progress = some ⟨0, 8, 0, 0⟩)
      ∧ (({ cmd 0 0 0 0 0 with seq := 2 }).seq.toNat ≠ booted.plinth.expectSeq ∧ booted.plinth.accepted 2 = false) := by decide

/-- The command with the expected SEQ is performed as it arrives; below, the condition of each command's arms. -/
theorem witness_CommandResult :
    booted.performs (cmd 0 0 0 0 0) = true ∧ withImage.performs (cmd 0 0 192 0 0) = true ∧ withMaquette.performs (cmd 3 0 0 0 0) = true := by decide

/-- A task that runs on F0, and a freeze pool with a slot. -/
def freezable : State := ({ booted with freezePool := [⟨0, 0, 0, false⟩] } : State).setRecord 0 0 Record.running

theorem witness_HostCommandsOfTasks_freeze :
    (freezable.accept (cmd 0 0 0 0 0)).online 0 = true ∧ freezable.performs (cmd 0 0 0 0 0) = true
      ∧ ((freezable.accept (cmd 0 0 0 0 0)).requestFreeze 0 0).2 = none
      ∧ (freezable.record 0 0 = some Record.running ∧ Record.running.reserved = false ∧ Record.running.state = .running ∧ Record.running.pred = none
        ∧ Record.running.endReq = .none ∧ freezable.freezeGroup 0 144 [0] = [0])
      ∧ freezable.freezeRoom [(0, 0)] = true ∧ ({ freezable with freezePool := [] } : State).freezeRoom [(0, 0)] = false
      ∧ 7 < (8 : Word).toNat
      ∧ (let s := withMaquette.setDieState 0 2;
        (s.accept (cmd 3 0 0 0 0)).maquetteOf 3 = some ⟨smallMaquette, 192, false⟩
          ∧ (⟨smallMaquette, 192, false⟩ : Maquette).dies.any (fun d => !(s.accept (cmd 3 0 0 0 0)).serving d) = true) := by decide +kernel

theorem witness_HostCommandsOfTasks :
    (16 ≤ 16 ∧ 16 < 17) ∧ ((1 : Nat) ≤ 1 ∧ 7 < 8)
      ∧ (withImage.accept (cmd 0 0 192 0 0)).serving 0 = true
      ∧ (⟨mputs [] 0 ((withImage.accept (cmd 0 0 192 0 0)).hostBytes 0 192), 192, false⟩ : Maquette).bad = false
      ∧ (⟨mputs [] 0 ((booted.accept (cmd 0 0 192 0 0)).hostBytes 0 192), 192, false⟩ : Maquette).bad = true
      ∧ ((withImage.accept (cmd 0 0 192 0 0)).die 0).graphUsed + 192 ≤ 8388608
      ∧ (booted.accept (cmd 3 0 0 0 0)).maquetteOf 3 = none
      ∧ ((withMaquette.accept (cmd 3 0 0 0 0)).maquetteOf 3 = some ⟨smallMaquette, 192, false⟩ ∧ (⟨smallMaquette, 192, false⟩ : Maquette).part = 0
        ∧ (⟨smallMaquette, 192, false⟩ : Maquette).dies.all (withMaquette.accept (cmd 3 0 0 0 0)).serving = true)
      ∧ tget (booted.accept (cmd 5 0 0 0 0)).insts 5 = none
      ∧ (let x : Inst := ⟨0, 0, [], [], none, false, 0, none⟩;
        tget (({ booted with insts := [(5, x)] } : State).accept (cmd 5 0 0 0 0)).insts 5 = some x)
      ∧ ((booted.accept (cmd 0 9 0 0 0)).online 0 = true
        ∧ (booted.accept (cmd 0 9 0 0 0)).requestFreeze 0 9 = (booted.accept (cmd 0 9 0 0 0), some 6))
      ∧ ((255 : Word).toNat ≤ 255 ∧ 255 < (256 : Word).toNat)
      ∧ ((booted.accept (cmd 0 0 7 0 0)).die 7).pageReqs = []
      ∧ (let q : PageRequest := ⟨3, 0, 0, 0, 0, []⟩;
        let s := ({ mapped with plinth := booted.plinth } : State).modDie 7 fun f => { f with pageReqs := [q] };
        (s.accept (cmd 3 1 7 0 0)).online 7 = true ∧ ((s.accept (cmd 3 1 7 0 0)).die 7).pageReqs = [q] ∧ (s.context 0).cgen = q.cgen
          ∧ (s.context 0).valid = true ∧ q.id ≠ bits 4 0 16)
      ∧ (let s : State := { mapped with homeMap := List.replicate 1 0, plinth := booted.plinth };
        let t := s.accept (cmd 0 1 0 0 0);
        s.performs (cmd 0 1 0 0 0) = true ∧ (t.keyOf 0 0).isSome = true ∧ bits 0 50 14 = 0 ∧ 0 + 1 * slotBytes ≤ t.hbmSize ∧ t.freezePool = [])
      ∧ ((16 : Word).toNat ≤ 30 ∧ (tgetD (booted.accept (cmd 15 16 1 0x10000 0)).pools (poolKey 0 15) ⟨0, []⟩).log = 0
        ∧ 0x10000 % 2 ^ 16 = 0 ∧ (booted.accept (cmd 15 16 1 0x10000 0)).poolBlocks (poolKey 0 15) + 1 ≤ 65536) := by decide +kernel

/-- A machine of which only M-die 12 and F0 are there, with a memory tile and one slice. -/
def small : State := ({ booted with windowDies := [0], homeMap := [0] } : State).modPlinth fun p =>
  { p with inventory := (List.range 17).map fun n => if n = 0 ∨ n = 8 then 0 else BitVec.ofNat 64 (3 * 2 ^ 56) }

theorem witness_HostCommandsOfTheDevice :
    (let w := (0x8000000000020000 : Word).toNat;
      bits w 52 11 = 0 ∧ flagOf w 16 = false ∧ bits (bits w 17 35 * 2 ^ 17) 50 2 = 0
        ∧ bits w 17 35 * 2 ^ 17 < (small.accept (cmd 0x8000000000020000 0 0 0 0)).hbmSize)
      ∧ flagOf (0x10000 : Word).toNat 16 = true
      ∧ ((63 : Word).toNat ≤ 63 ∧ 63 < (64 : Word).toNat) ∧ (0 < 2 ^ 57)
      ∧ (63 < small.windowSize / 0x200000 ∧ small.dieState (small.windowNode 0) ≠ 1)
      ∧ (15 < (16 : Word).toNat)
      ∧ diesConnected (booted.leftWithout 15) = true ∧ diesConnected (small.leftWithout 0) = false
      ∧ (diesConnected (booted.leftWithout 7) = true ∧ booted.dieState 7 ≤ 1)
      ∧ (booted.plinth.idSet = false ∧ booted.insts = [])
      ∧ (let s := booted.modPlinth fun p => { p with idSet := true };
        s.plinth.idSet = true)
      ∧ booted.plinth.admitted.contains 5 = false
      ∧ (let s := booted.modPlinth fun p => { p with admitted := [5] };
        s.plinth.admitted.contains 5 = true)
      ∧ booted.plinth.bundles.any (fun b => b.1 == 1) = false
      ∧ (let s := booted.modPlinth fun p => { p with bundles := [(1, [], [])] };
        s.plinth.bundles.any (fun b => b.1 == 1) = true)
      ∧ (let s := booted.modPlinth fun p => { p with banks := [⟨true, 2, true⟩, ⟨false, 0, false⟩] };
        lget s.plinth.banks s.plinth.running = some ⟨true, 2, true⟩) := by decide +kernel

/-! ### Premises of the statements about the network, the links and the Plinth -/

/-- A packet to die `d` about line 0. -/
def toDie (d aux : Nat) : Packet := { Packet.zero with src := 1, dst := d, aux := aux }
/-- A machine with one slice, whose die cache 0 holds line 0. -/
def caching (c : CacheLine) : State := ({ booted with homeMap := [0] } : State).setCacheLine 0 0 c
/-- A cache line with tokens. -/
def held (tok : Nat) (own : Bool) : CacheLine := ⟨tok, own, true, false, false, 0, 1, 7⟩
/-- A miss for line 0. -/
def miss (fails : Nat) (ticket : Bool) : Miss := ⟨false, 0, fails, ticket, false, 0, false⟩
/-- A machine with a miss. -/
def missing (m : Miss) : State := (caching (held 1 false)).modDie 0 fun f => { f with misses := [(0, m)] }
/-- A machine with access 5 in a phase. -/
def accessing (p : Phase) (k : AccessKind) : State :=
  { booted with homeMap := [0], access := [{ booted.newAccess k 0 8 0 with id := 5, phase := p }] }

theorem witness_TokenPackets :
    ((toDie 0 0).dst < 8 ∧ (caching (held 1 true)).activeFor 0 0 = none ∧ ((caching (held 1 true)).cacheLine 0 0).own = true
      ∧ ((caching (held 1 true)).cacheLine 0 0).tok = 1)
      ∧ (((caching (held 2 true)).cacheLine 0 0).own = true ∧ ((caching (held 2 true)).cacheLine 0 0).tok ≠ 1)
      ∧ ((caching (held 1 false)).cacheLine 0 0).own = false
      ∧ (8 ≤ (toDie 8 0).dst ∧ (toDie 8 0).aux ≠ 2 ∧ booted.trackerUse (booted.homeSlice 0) < 32 ∧ booted.activeEntry 0 = none ∧ booted.homeHolds 0 = false)
      ∧ (tget ((missing (miss 1 false)).die 0).misses 0 = some (miss 1 false) ∧ (miss 1 false).txn = (toDie 0 0).txn
        ∧ (miss 1 false).persistent = false ∧ (miss 1 false).fails < 2 ∧ (miss 1 false).ticket = false)
      ∧ ((missing (miss 2 false)).die 0).misses = [(0, miss 2 false)] ∧ tget (booted.die 0).misses 0 = none
      ∧ ((booted.modDie 0 fun f => { f with acts := [(1, ⟨0, 1, true⟩)] }).activeFor 0 0 = some 1)
      ∧ ((toDie 8 2).aux = 2 ∧ (toDie 8 1).aux ≠ 0 ∧ (toDie 8 1).aux ≠ 2)
      ∧ (({ booted with persistent := [⟨0, 1, 1, 0, 0⟩] } : State).activeEntry 0).isSome = true
      ∧ ((accessing .uncached .load).access? 5).isSome = true
      ∧ (let s : State := { booted with trackers := [(0, 32)] };
        32 ≤ s.trackerUse (s.homeSlice 0))
      ∧ (let a := (accessing .uncached .load).access;
        a.all (fun a => a.reads && a.phase == .uncached) = true)
      ∧ (let a := (accessing .serial .store).access;
        a.all (fun a => !a.reads && a.phase == .serial) = true)
      ∧ (let s := { caching (held 1 false) with access := (accessing .cache .load).access };
        (s.access? 5).isSome = true ∧ s.access.all (fun a => a.phase == .cache && a.agent.dieNo == 0 && s.mayPerform a) = true
          ∧ (s.cacheLine 0 0).serves false = true ∧ (s.cacheLine 0 0).serves true = false)
      ∧ (let s := { caching (held 1 false) with access := [{ booted.newAccess .pref 0 128 0 with id := 5, phase := .cache }] };
        s.access.all (fun a => a.kind == .pref) = true ∧ (booted.cacheLine 0 0).serves false = false)
      ∧ (let s := { caching (held 1 false) with access :=
          [{ booted.newAccess .store 0 8 0 with id := 4, phase := .cache }, { booted.newAccess .load 0 8 0 with id := 5, phase := .cache }] };
        (s.access.any fun a => a.id == 5 && !s.mayPerform a) = true) := by decide +kernel

/-- A machine whose access 5 has transaction 3 out. -/
def outWith (g : Agent) (k : AccessKind) (o : Ord) (p : Phase) : State := { booted with access :=
  [{ booted.newAccess k 0x01FFFFFFC0000000 8 0 with id := 5, agent := g, ord := o, phase := p, txn := 3, sent := true }] }

theorem witness_TokenPackets_serial :
    scPacket (toDie 8 0x101) = true ∧ scPacket (toDie 8 1) = false ∧ booted.lostHome 0 = false
      ∧ (let s : State := { booted with trackers := [(0, 32)] };
        32 ≤ s.trackerUse (s.homeSlice 0)) ∧ booted.trackerUse (booted.homeSlice 0) < 32 := by decide +kernel

theorem witness_packets_of_accesses :
    (∀ g ∈ [Agent.strand 0 12 0, .stream 0 12 1, .copy 0 12 1, .pe 0 12 4 7], ∀ o ∈ [Ord.rlx, .sc], ∀ p ∈ [Phase.uncached, .serial, .window],
      let s := outWith g .load o p;
      (s.accessOf 0 3).isSome = true ∧ s.lostWord 0 = false ∧ (s.access.any fun a => s.heldBack a) = false)
      ∧ booted.accessOf 0 3 = none
      ∧ (let s := outWith (.strand 0 12 0) .load .rlx .window;
        (({ s with access := s.access ++ s.access.map fun a => { a with id := 6, txn := 4 } } : State).access.any fun a =>
          ({ s with access := s.access ++ s.access.map fun a => { a with id := 6, txn := 4 } } : State).heldBack a) = true) := by decide +kernel

/-- An entry of a home for a persistent request of slot 1. -/
def entry (state acks : Nat) : Persistent := ⟨0, 1, state, acks, 3⟩

theorem witness_PersistentAndSerialPackets :
    (epochAfter 1 0 = true ∧ epochAfter 2047 0 = true ∧ epochAfter 0 0 = false ∧ epochAfter 2048 0 = false)
      ∧ ((toDie 0 1).aux / 4096 = (toDie 0 1).dst ∧ (toDie 0 0x1001).aux / 4096 ≠ (toDie 0 0x1001).dst ∧ (toDie 0 0x1001).aux % 4096 = 1)
      ∧ (∀ k ∈ [1, 2, 3], ([entry k 1]).find? (fun e => e.line == 0 && e.slot == 1 && e.busy && e.epoch == 3) = some (entry k 1))
      ∧ (([entry 1 2]).find? (fun e => e.line == 0 && e.slot == 1 && e.busy && e.epoch == 3) = some (entry 1 2) ∧ 1 < (entry 1 2).acks)
      ∧ (∀ k ∈ [0, 1, 5], ([entry k 0]).find? (fun e => e.line == 0 && e.slot == (toDie 8 0).src && e.state == k) = some (entry k 0))
      ∧ (([entry 0 0]).find? (fun e => e.state == 1) = none ∧ booted.persistent = [])
      ∧ (let m := { miss 0 false with persistent := true };
        tget ((missing m).die 0).misses 0 = some m)
      ∧ ((accessing .window (.window opBara)).access.all (fun a => a.ord != .sc && a.agent == .strand 0 12 0) = true)
      ∧ ((accessing .window .load).access.map fun a => { a with ord := Ord.sc }).all (fun a => a.ord == .sc) = true
      ∧ (({ toDie 0 0 with stat := 2 }).stat = 2 ∧ ({ toDie 0 0 with stat := 1 }).stat ≠ 2)
      ∧ (let s : State := { booted with homeMap := [0, 1], scAt := 1, scLap := 4 };
        (toDie 8 4).aux = s.scLap ∧ (toDie 8 3).aux ≠ s.scLap ∧ s.firstNode ≠ 2560 ∧ s.ringUsable s.scAt = true ∧ s.scAt ≠ s.firstNode
          ∧ s.plinth.booted = true)
      ∧ (let t : State := { booted with homeMap := [0, 1], scLap := 4 };
        let s : State := { t with scAt := t.firstNode };
        s.ringUsable s.scAt = true ∧ s.scAt = s.firstNode)
      ∧ (let s : State := { booted with homeMap := [0, 1], scAt := 1, scQueue := [(1, 0, 3)],
                                        homeWait := [{ toDie 8 0x101 with src := 0, txn := 3, line := 1 }] };
        s.visitList 1 = [(0, 3)] ∧ s.serialReady (0, 3) = false ∧ s.serialReady (0, 4) = true ∧ (State.visit 1 (s.visitList 1) s).1 ≠ []
          ∧ (State.visit 1 [] s).1 = [] ∧ s.scVisit = none)
      ∧ (booted.activeEntry 0 = none ∧ ({ caching (held 1 false) with persistent := [⟨0, 1, 1, 0, 0⟩] } : State).tokenCount 0 ≠ 16) := by decide +kernel

/-- A remote-write entry toward device 3. -/
def remote (draining : Bool) : RemoteEntry := ⟨0x8000300000000, [(0, 7)], draining, 4, 0, 0, []⟩
/-- A machine with an entry. -/
def writing (e : RemoteEntry) : State := booted.modDie 0 fun f => { f with rwb := [e] }
/-- A request of peer 3 to an offset. -/
def request (off n : Nat) : UaReq := { (default : UaReq) with src := 3, off := off, op := .read, bytes := n }
/-- A machine that has admitted device 3, with one slice and key slot 0. -/
def podded : State := ({ booted with homeMap := [0], keys := [(0, ⟨1, 0⟩)] } : State).modPlinth fun p => { p with admitted := [3] }
/-- A request of this device that awaits its answer. -/
def outstanding (a : Option Nat) (e : Option (Nat × Nat)) : UaOut := ⟨6, 0, 3, 0, a, e, false, 0, default⟩

theorem witness_LinkEvents :
    (((writing (remote false)).die 0).rwb.find? (fun e => e.seq == 4) = some (remote false) ∧ (remote false).draining = false)
      ∧ (({ writing (remote true) with uaOut := [outstanding none (some (0, 4))] } : State).uaOut.any
        (fun u => u.entry == some (0, 4) && !u.held) = true)
      ∧ booted.plinth.admitted.contains (request 0 64).src = false
      ∧ (podded.uaSeen.contains (3, 0) = false ∧ ({ podded with uaSeen := [(3, 0)] } : State).uaSeen.contains (3, 0) = true)
      ∧ (podded.plinth.admitted.contains (request 0 64).src = true ∧ windowOf (dispatcherOffset 7 + 0xFFF) = some 7 ∧ windowOf 0 = none)
      ∧ (0 + 64 ≤ podded.hbmSize ∧ (request 0 64).sizeOk = true ∧ (request 0 32).sizeOk = false ∧ podded.keyOf 0 0 = some 1
        ∧ podded.keyOf 0 1 = none)
      ∧ (let s : State := { accessing .remote .load with uaOut := [outstanding (some 5) none] };
        s.uaOut.find? (fun v => v.id == 6 && !v.held) = some (outstanding (some 5) none) ∧ (s.access? 5).isSome = true
          ∧ s.access.all (fun a => a.agent == .strand 0 12 0 && a.reads) = true
          ∧ ({ accessing .remote .store with uaOut := [outstanding (some 5) none] } : State).access.all (fun a => !a.reads) = true)
      ∧ (let s := booted.modPlinth fun p => { p with portsUp := [2] };
        s.plinth.portsUp.contains 2 = true)
      ∧ (let s := booted.modPlinth fun p => { p with idSet := true, inventory := List.replicate 17 0x0000000003000000 };
        s.plinth.idSet = true ∧ s.portEnabled 2 = true ∧ s.plinth.portsUp.contains 2 = false)
      ∧ (let s := accessing .host .store;
        (s.access? 5).isSome = true ∧ s.plinth.golfyUp = true ∧ s.access.all (fun a => a.phase == .host && s.mayPerform a && a.kind == .store) = true)
      ∧ (booted.plinth.booted = true ∧ booted.plinth.golfyUp = true) := by decide +kernel

/-- A sample in which every die shows a temperature. -/
def sample (t flow : Nat) : SensorInput := { (default : SensorInput) with junction := List.replicate 17 [t], flow := flow }
/-- A boot that finds bank A good. -/
def bootInput (tableOk : Bool) (state : Nat) : BootInput :=
  { (default : BootInput) with bankAOk := true, tableOk := tableOk, dieState := List.replicate 17 state }

theorem witness_PlinthAndErrorEvents :
    ((List.range 17).any (fun n => decide (120 ≤ (sample 120 9).hottest n)) = true ∧ (sample 20 0).flow < 1)
      ∧ ((List.range 17).any (fun n => decide (120 ≤ (sample 119 0).hottest n)) = false ∧ State.reset.plinth.flowLimit ≤ (sample 119 0).flow)
      ∧ booted.plinth.records.length < 170
      ∧ (({ (default : RailInput) with node := 16 } : RailInput).node = 16 ∧ 8 ≤ ({ (default : RailInput) with node := 9 } : RailInput).node)
      ∧ (let r := { Record.running with reserved := true };
        (ready.setRecord 0 0 r).record 0 0 = some r ∧ r.reserved = true)
      ∧ (let s := booted.modPlinth fun p => { p with records := List.replicate 170 default };
        170 ≤ s.plinth.records.length)
      ∧ (ready.record 0 0 = some Record.running ∧ Record.running.reserved = false)
      ∧ (booted.plinth.booted = true ∧ booted.dieState 16 ≠ 3)
      ∧ (let s := ready.modDie 0 fun f => { f with sites := List.replicate 144 1 };
        (lget (s.die 0).sites 12).getD 3 = 1)
      ∧ (∀ k ∈ State.reset.plinth.bankOrder, State.reset.plinth.bankRuns default k = false)
      ∧ State.reset.plinth.bankOrder.find? (fun k => State.reset.plinth.bankRuns (bootInput true 0) k) = some 0
      ∧ ((bootInput true 0).tableOk = true ∧ diesConnected (bootInput true 0).marked = true ∧ (bootInput false 0).tableOk = false) := by
  decide +kernel

/-! ### Premises of the statements about encodings and steps -/

theorem witness_EncodedInstructionsDecode :
    wellFormed (.cas 30 2 .sc .sys true ord21) = true ∧ encode (.cas 30 2 .sc .sys true ord21) ≠ 0
      ∧ wellFormed (.bfx 31 31 true 0 63) = true ∧ encode (.bfx 31 31 true 0 63) ≠ 0 := by decide

theorem witness_EveryWordHasOneMeaning :
    0xFE0000FF < 2 ^ 32 ∧ decode 0xFE0000FF 0 = .ok (.brk 0xFF) ∧ decode 0x44500001 0x23456789 = .ok (.li 5 0x123456789)
      ∧ (Instr.li 5 0x123456789).length = 8 :=
  ⟨by decide, rfl, rfl, rfl⟩

theorem witness_OtherEncodingsRoundTrip :
    0x0C0420A406726573 < 2 ^ 64 ∧ decodePe 0x0C0420A406726573 = some (.gridAdd exampleSlot) ∧ DecrMsg.ok ⟨1023, 7, 65535, 4294967295, 32767, 15, 15, 15, 15⟩ = true
      ∧ bits (0x0002000000000000 : Word).toNat 49 15 ≠ 0 ∧ bits (1 : Word).toNat 0 18 ≠ 0 ∧ 3 < bits (0x0004000000000000 : Word).toNat 48 3
      ∧ packet.fits = true ∧ packet.malformed 0 = false ∧ packet.malformed 1 = true :=
  ⟨by decide, rfl, by decide, by decide, by decide, by decide, by decide, by decide, by decide⟩

/-- R200: a TOKD of M-die 8 to F3 with 2 tokens, the owner token, data, transaction 5 and line 9, written out from the field table. -/
theorem test_packet_header :
    let p : Packet := { Packet.zero with src := 8, dst := 3, ndf := 4, tok := 2, own := true, txn := 5, line := 9 };
    packetHeader 3 0 p = 0x0681C1400005000000000048 * 2 ^ 160 ∧ packetFields (packetHeader 3 0 p) 0 0 0 = (3, 0, p)
      ∧ commandWord 5 command = 0x0530000000000007 := by decide +kernel

/-- An LI whose second word is there. -/
def wide : State := code 8 ⟨0x44500001, true, false⟩ ⟨0x23456789, false, false⟩
/-- The next packet of the network. -/
def netPacket (opc : Nat) : NetPacket := ⟨opc, 0, toDie 0 0, 0, 0, 0, 0, 0⟩

theorem witness_StepRunsDecodedInstruction :
    (ready.strandsIssue 0 12 = true ∧ ready.me.run = .run ∧ ready.me.stall = false ∧ ready.me.yielded = false ∧ ready.here.targetOk ready.me.pc = true
      ∧ (ready.here.codeWord 0).psn = false ∧ isLi (ready.here.codeWord 0).bits.toNat = false)
      ∧ (wide.here.targetOk wide.me.pc = true ∧ isLi (wide.here.codeWord 0).bits.toNat = true ∧ (wide.here.codeWord 4).psn = false
        ∧ wide.me.pc.toNat + 4 < wide.here.codeLen)
      ∧ (let s := grid fun p => { p with planeA := { p.planeA with slots := [(0, 0x0000000006402003)] } };
        s.mayFire 0 12 4 = true ∧ (s.here.pe 4).firingSlot = some (0, 0x0000000006402003))
      ∧ (lget [netPacket 0x12] 0 = some (netPacket 0x12) ∧ (netPacket 1).p.dst < 8 ∧ booted.dieState 0 < 2
        ∧ (netPacket 1).p.malformed (netPacket 1).reserved = false ∧ (netPacket 1).opc ≠ 0x12)
      ∧ isEvent (.sensorSample default) = true := by decide +kernel

theorem witness_StepRunsDecodedInstruction_words :
    (∃ i, decode 0x04531C00 0 = .ok i) ∧ (∃ e, decode 0 0 = .error e) ∧ (decodePe 0x0000000006402003).isSome = true :=
  ⟨⟨_, rfl⟩, ⟨_, rfl⟩, rfl⟩

theorem witness_MemoryKeepsItsForm :
    ready.memoryWf = true ∧ handled.memoryWf = true ∧ handled.me.intrap = false ∧ handled.me.tvec ≠ 0
      ∧ (let s := { firing with cur := firing.cur };
        (s.firingCtx 0x25 plain false).a.ok = true ∧ (s.firingCtx 0x25 plain false).b.ok = true ∧ (s.firingCtx 0x25 plain false).a.psn = 0) := by
  decide +kernel

/-- A property of the fresh tile and of every tile that a machine lists holds of each of its tiles. -/
theorem tile_of_all {s : State} {P : Tile → Prop} (h0 : P Tile.init) (h : ∀ e ∈ s.tiles, P e.2) (d site : Nat) : P (s.tile d site) := by
  unfold State.tile tgetD
  cases hx : tget s.tiles (tileKey d site) with
  | none => exact h0
  | some t => exact h _ (tget_mem hx)

theorem witness_MemoryKeepsItsForm_handles : handled.HandlesWf := by
  have fresh : ∀ t : Tile, t.handles = [] → t.hwaits = [] →
      (∀ h, (t.handle h).wf = true) ∧ ∀ w ∈ t.hwaits, w.unbind = true → w.want = .free := by
    intro t h1 h2
    refine ⟨fun h => ?_, by simp [h2]⟩
    simp [Tile.handle, h1, tgetD, tget]
    decide
  intro d site
  exact tile_of_all (s := handled) (P := fun t => (∀ h, (t.handle h).wf = true) ∧ ∀ w ∈ t.hwaits, w.unbind = true → w.want = .free)
    (fresh _ rfl rfl) (fun e he => fresh _ (by revert e; decide) (by revert e; decide)) d site

theorem witness_MemoryKeepsItsForm_tokens :
    State.reset.OwnersHold ∧ tget (State.reset.die 0).misses 0 = none ∧ (held 1 true).own = true ∧ (held 1 true).tok ≠ 0 := by
  refine ⟨fun line => ⟨fun _ => ?_, fun d hd h => ?_⟩, by decide, by decide, by decide⟩
  · show (tgetD ([] : Tbl HomeLine) line ⟨16, true, false, 0, 0⟩).tok ≠ 0
    simp [tgetD, tget]
  have : ∀ d < 8, (State.reset.die d).lines = [] := by decide
  simp [State.cacheLine, this d hd, tgetD, tget, CacheLine.none] at h

/-! ### Steps whose results the spec gives -/

/-- A value of register 5 after an instruction. -/
def x5 (i : Instr) (s : State) : Word := (after (exec i s)).me.rd 5

/-- The word that the machine fetches first runs as the first step. -/
theorem test_step_runs_the_word :
    ((after (step (State.reset.withFetchWord 32 0x04531C00))).strand 0 12 0).pc = 4 := by decide
theorem test_step_runs_two_words :
    ((after (step (State.reset.withFetchWord 64 0x2345678944500001))).strand 0 12 0).rd 5 = 0x123456789
      ∧ ((after (step (State.reset.withFetchWord 64 0x2345678944500001))).strand 0 12 0).pc = 8 := by decide

/-- R336: x6 = 0xABCD, x5 = 0xFFFF. -/
theorem test_bit_fields :
    let s := withRegs [(6, 0xABCD), (5, 0xFFFF)];
    x5 (.bfx 5 6 false 8 3) s = 0xB ∧ x5 (.bfx 5 6 true 8 3) s = 0xFFFFFFFFFFFFFFFB ∧ x5 (.bfi 5 6 8 3) s = 0xFDFF
      ∧ decode 0x3A530203 0 = .ok (.bfx 5 6 false 8 3) ∧ decode 0x3C530203 0 = .ok (.bfi 5 6 8 3) :=
  ⟨by decide, by decide, by decide, rfl, rfl⟩
/-- R352: x6 = -7, x7 = 2 and 0; the most negative number by -1. -/
theorem test_division :
    let s := withRegs [(6, -7), (7, 2)];
    x5 (.div 5 6 7 false) s = -3 ∧ x5 (.rem 5 6 7 false) s = -1 ∧ x5 (.rem 5 6 0 true) s = -7
      ∧ x5 (.div 5 6 0 true) s = 0xFFFFFFFFFFFFFFFF
      ∧ x5 (.div 5 6 7 false) (withRegs [(6, 0x8000000000000000), (7, -1)]) = 0x8000000000000000 := by decide
/-- R380 and R386. -/
theorem test_multiplication :
    let s := withRegs [(6, 0x8000000000000000), (7, 4)];
    let t := withRegs [(6, -1), (7, 1)];
    x5 (.mulh 5 6 7 true) s = 2 ∧ x5 (.mulh 5 6 7 false) s = 0xFFFFFFFFFFFFFFFE ∧ x5 (.mul 5 6 7) s = 0
      ∧ x5 (.min 5 6 7 false) t = -1 ∧ x5 (.min 5 6 7 true) t = 1 := by decide
/-- R420, R404, R376. -/
theorem test_shifts_and_counts :
    let s := withRegs [(6, 0x8000000000000010), (7, 0xF0F0)];
    x5 (.srai 5 6 4) s = 0xF800000000000001 ∧ x5 (.shri 5 6 4) s = 0x0800000000000001 ∧ x5 (.popc 5 7) s = 8
      ∧ x5 (.clz 5 7) s = 48 ∧ x5 (.ctz 5 7) s = 4 ∧ x5 (.lis 5 0x7FFF) s = 0xFFFFFFFFFFFFFFFF ∧ x5 (.sext 5 7 .b) s = 0xFFFFFFFFFFFFFFF0 := by decide
/-- R84: x0 reads zero and discards writes. -/
theorem test_x0 :
    let s := withRegs [(6, 7)];
    (after (exec (.add 0 6 6) s)).me.rd 0 = 0 ∧ (after (exec (.add 0 6 6) s)).me.pc = 4 ∧ x5 (.sub 5 0 6) s = -7 := by decide
/-- R343, R402: signed and unsigned order, and p0. -/
theorem test_predicates :
    let s := withRegs [(6, -1), (7, 1)];
    predGet (after (exec (.cmp 1 6 7 .lt false) s)).me.p 1 = true ∧ predGet (after (exec (.cmp 1 6 7 .lt true) s)).me.p 1 = false
      ∧ predGet (after (exec (.cmp 0 7 6 .eq false) s)).me.p 0 = true := by decide
/-- R327, R96: a branch back to itself, a branch past the section without a handler, with one. -/
theorem test_branches :
    (after (exec (.b 0) ready)).me.pc = 0 ∧ (after (exec (.call 1) handled)).me.pc = 0x100 ∧ (after (exec (.call 1) handled)).me.rd 31 = 0
      ∧ (after (exec (.call 1) handled)).me.causeCode = 2 ∧ (after (exec (.call 1) handled)).me.eval = 4
      ∧ (after (exec (.callr 31) (withRegs [(31, 0)]))).me.rd 31 = 4 := by decide
/-- R258: SVC names the next instruction, BRK itself; R257: a second trap inside the handler fails the task. -/
theorem test_traps :
    (after (exec (.svc 7) handled)).me.epc = 1 ∧ (after (exec (.svc 7) handled)).me.causeCode = 0x11
      ∧ (after (exec (.svc 7) handled)).me.causeDetail = 7 ∧ (after (exec (.brk 7) handled)).me.epc = 0
      ∧ (after (exec (.brk 7) handled)).me.intrap = true ∧ (after (exec .eret (after (exec (.brk 7) handled)))).me.pc = 0
      ∧ ((after (exec (.brk 7) (inHandler 0))).record 0 0).all (fun r => r.fcause == 0x12 && r.state == .failed) = true := by decide +kernel
/-- R424: SWR STATUS with bit 4 clears BARBRK; SWR to a read-only register faults PRIV. -/
theorem test_system_registers :
    (after (exec (.swr 6 .status) ((withRegs [(6, 0x10)]).modMe fun t => { t with barbrk := true }))).me.barbrk = false
      ∧ (after (exec (.swr 6 .genr) handled)).me.causeCode = 3 ∧ (after (exec (.swr 6 .genr) handled)).me.causeDetail = 9
      ∧ x5 (.srd 5 .rgnb) ready = 0x1110 := by decide

/-- R374, R426, R252: scratchpad bytes and sign extension, the last byte, past the end. -/
theorem test_scratchpad :
    let s := after (exec (.stl 7 6 .w 0 Order.none) (withRegs [(6, 0x1FFFFC), (7, 0x87654321)]));
    x5 (.ldl 5 6 .hs 1 Order.none) s = 0xFFFFFFFFFFFF8765 ∧ x5 (.ldl 5 6 .h 1 Order.none) s = 0x8765
      ∧ x5 (.ldl 5 6 .b 3 Order.none) s = 0x87
      ∧ (after (exec (.ldl 5 6 .h 2 Order.none) (s.modMe fun t => { t with tvec := 1 }))).me.causeDetail = 5 := by decide +kernel
/-- R374: a load of a half from a cached line, and the store buffer's bytes. -/
theorem test_global_load :
    let s := after (exec (.stg 7 6 .w 0 Order.none) ((at6 128 cached).modMe fun t => t.wr 7 0x87654321));
    x5 (.ldg 5 6 .d 0 Order.none) cached = 0x0123456789ABCDEF ∧ x5 (.ldg 5 6 .hs 1 Order.none) s = 0xFFFFFFFFFFFF8765 := by decide +kernel
/-- R254: the walk of the example, entry by entry, and XLT's word of R441. -/
def exampleWalk (gk : BitVec 8) : State :=
  let hbm := mwrite (mwrite (mwrite [] 0x00400010 8 0x8000000000800000) 0x00802468 8 0x8000000000900000) 0x00900158 8 0xC843000001260D00;
  at6 0x00001123456789AB { ready.modHere (fun t => { t with part := 5, gkey := gk }) with
    contexts := [(5, ⟨true, 0x400000, 0⟩)], keys := [(3, ⟨1, 5⟩)], homeMap := [0], hbm := hbm }
/-- The walker reads the entry of the walk that is outstanding. -/
def walkerReads (s : State) (e : Nat) : State := s.over s.walks fun w s => s.walkStep w e false
theorem test_translation :
    let walking := fun (gk : BitVec 8) => after (exec (.xlt 5 6 Order.none) (exampleWalk gk))
    let reads := [0x8000000000800000, 0x8000000000900000, 0xC843000001260D00].foldl walkerReads
    let translated := fun (gk : BitVec 8) => (after (exec (.walkCompletion (exampleWalk gk).nextId) (reads (walking gk)))).me.rd 5
    (walking 0x21).walks.map (fun w => w.entry) = [0x400010] ∧ translated 0x21 = 0xBA00112345600000 ∧ translated 0x22 = 0x0000112345670007 := by decide +kernel

/-- R214, R431: the tag table of the example, with its three operations. -/
def table : State := { window with window := [(0x20000, ⟨0x202, .plain, 0, false⟩)] }
/-- A window operation on the table. -/
def onTable (op : Nat) (v : Word) : Access := { window.newAccess (.window op) 0x01FFFFFFC0100000 16 0 with data := v, id := 9 }
/-- The state that a window operation leaves. -/
def stepped (s : State) (a : Access) : State := ({ s with access := [a], net := [] } : State).windowStep a
/-- The value, and the status, of the reply that a window operation sends. -/
def answer (s : State) : List (Nat × Nat) := s.net.map fun n => (bits n.p.data.toNat 0 64, n.p.stat.toNat)
theorem test_tag_table :
    let s := stepped table (onTable opTins 0x0006000000010007);
    (s.word 0x100040).bits = 0x8006000000010007 ∧ answer (stepped s (onTable opTlook 0x10007)) = [(12, 0)]
      ∧ answer (stepped s (onTable opTevict 0x10007)) = [(12, 0)]
      ∧ ((stepped s (onTable opTevict 0x10007)).word 0x100040).bits.getLsbD 63 = false := by decide +kernel
/-- R377, R329: a lock is taken once, and a barrier for two releases its phase. -/
theorem test_lock_and_barrier :
    ((stepped (object ⟨0, .lock, 0, false⟩) (onObject opTsb 7)).word 0).bits = 0x8000000000000007
      ∧ ((stepped (object ⟨0x00010002, .barrier, 0, false⟩) (onObject opBara 0)).word 0).bits = 0x0000000100000002 := by decide +kernel
/-- R324: AMO.MIN on a window word. -/
theorem test_window_atomic :
    let s := stepped (object ⟨4, .plain, 0, false⟩) { onObject 0 2 with kind := .atomic .min };
    (s.word 0).bits = 2 ∧ answer s = [(4, 0)] := by decide +kernel

/-- R142, R144, R371: HALLOC takes the lowest free handle, HSTAT shows it FULL after two HSETs. -/
theorem test_handles :
    let s := after (exec (.halloc 5 6 7 Order.none) (withRegs [(6, 64), (7, 128)]));
    let t := after (exec (.hset 0 .full Order.none) (after (exec (.hset 0 .filling Order.none) s)));
    s.me.rd 5 = 0 ∧ x5 (.hstat 5 0 Order.none) s = 0x8000000010000080 ∧ x5 (.hstat 5 0 Order.none) t = 0xD000000010000080 := by decide +kernel

/-! ### Firings whose results the spec gives -/

/-- Register 2 of PE 4 after a firing of the plain slot. -/
def d2 (i : Instr) (s : State) : QWord := vget ((after (exec i s)).tile 0 12 |>.pe 4).d 2
/-- The plain slot in another lane type that sets p1 from the flag. -/
def flagged (lt : Fin 16) : PeWord := { plain with lt := lt, pact := 3, pidx := 1 }
/-- p1 of PE 4 after a firing. -/
def p1 (i : Instr) (s : State) : Bool := predGet ((after (exec i s)).tile 0 12 |>.pe 4).p 1

theorem test_integer_lanes :
    d2 (.gridAdd plain) firing = 0x0000000C0000000C0000000C0000000C ∧ d2 (.gridSub plain) firing = 0x00000002000000020000000200000002
      ∧ p1 (.gridSub (flagged 3)) firing = false ∧ d2 (.gridMin plain) firing = 0x00000005000000050000000500000005 := by decide +kernel
/-- R322: 1.0 + 2.0 and 2^24 + 1, which rounds to even. -/
theorem test_float_lanes :
    d2 (.gridAdd { plain with lt := 0 }) (grid fun p => (p.setD 0 0x4B8000003F800000 0).setD 1 0x3F80000040000000 0) = 0x4B80000040400000 := by
  decide +kernel
/-- R407: the example of RED. -/
theorem test_red :
    d2 (.red { plain with lt := 0 }) (grid fun p => p.setD 0 0xCB8000003F8000004B8000003F800000 0) = 0x3F800000 := by decide +kernel
/-- R350: the example of CVT to E4M3. -/
theorem test_cvt :
    let s := grid fun p => (p.setD 0 0x7FA000008000000043EB000043E80000 0).setD 1 7 0;
    d2 (.cvt (flagged 0)) s = 0x7F807E7E ∧ p1 (.cvt (flagged 0)) s = true ∧ ((after (exec (.cvt (flagged 0)) s)).tile 0 12).sat = true := by
  decide +kernel
/-- R351: the example of CVTS to BF16. -/
theorem test_cvts :
    let s := grid fun p => { p with
      planeA := { p.planeA with vc := [(30, 0x0000), (31, 0x1000)] }
      inq := vset (vset p.inq 0 [⟨⟨0x40000000FFFFFFFF3000000050001234, 31, 0, false, false⟩, .none⟩]) 1
        [⟨⟨0xBF80C000404000003F80C0003F80C000, 30, 0, false, false⟩, .none⟩] };
    d2 (.cvts { merging with sa := 9, sb := 8 }) s = 0xBF8140403F803F81 := by decide +kernel
/-- R422: lanes in reverse. -/
theorem test_shuf :
    d2 (.shuf { plain with lt := 0 }) (grid fun p => (p.setD 0 0x00000004000000030000000200000001 0).setD 1 0x0123 0)
      = 0x00000001000000020000000300000004 := by decide +kernel
/-- R406: the block of counter 0 and key 0. -/
theorem test_rand : philox 0 0 = 0x9B00DBD8BC57AC4CE169C58D6627E8D5 := by decide +kernel
/-- R357: LOG2 of 4.0 and RCP of the smallest subnormal, in F16. -/
theorem test_functions : log2Lane .f16 .nearest 0x4400 = 0x4000 ∧ rcpLane .f16 .nearest 0x0001 = 0x7C00 := by decide +kernel
/-- R125: the four words of the example, as the lanes of O0's places and of the counter. -/
theorem test_lgen :
    let bound := fun (w : QWord) (k : Nat) => grid fun p => { p with
      planeA := { p.planeA with vc := [(31, 0x3000)] }, lgen := if k = 0 then [] else [(0, k)], inq := vset p.inq 0 [⟨⟨w, 31, 0, false, false⟩, .none⟩] };
    let w : PeWord := { fromQueue with dst := 2 };
    d2 (.lgen w) (bound 0x00000004000000030000000A 0) = 0x00000001000000000000000A
      ∧ d2 (.lgen w) (bound 0x00000004000000030000000A 2) = 0x000000020000000200000012
      ∧ d2 (.lgen w) (bound 0x000000010000000000000000 0) = 0x000000040000000000000000 := by decide +kernel
/-- R378, R383: a 16-byte store and load through the memory port. -/
theorem test_memory_port :
    let s := after (exec (.mst { plain with dst := 14 }) (grid fun p => (p.setD 0 0x20 0).setD 1 0x1122334455667788 0));
    s.here.spadRead 0 0x20 16 = 0x1122334455667788 := by decide +kernel

/-! ### Other agents -/

/-- R77: the example's four arrivals. -/
theorem test_decrement_window :
    let arrive := fun (s : State) (n : Nat) => after (exec (.decrement 0 (decr n)) s);
    let s := [103, 101, 103, 37].foldl arrive (windowed100 0xF);
    tgetD (s.die 0).windows 1 (0, 0) = (103, 0x7D) ∧ (s.die 0).dropDup = 1 ∧ (s.die 0).dropStale = 1 := by decide +kernel
/-- R272: a NOP completes with OK and the next SEQ is expected; a command with a reserved bit is MALFORMED. -/
theorem test_host_commands :
    (after (exec (.hostNop (cmd 0 0 0 0 0)) booted)).plinth.expectSeq = 2
      ∧ mread (after (exec (.hostNop (cmd 0 0 0 0 0)) booted)).hostMem 0 8 = 0x0100000000000001
      ∧ mread (after (exec (.hostNop { cmd 0 0 0 0 0 with reserved := 1 }) booted)).hostMem 0 8 = 0x0101000000000001 := by decide +kernel
/-- R281: 120 degrees trips the module. -/
theorem test_trip :
    (after (exec (.sensorSample (sample 120 9)) booted)).plinth.tripped = true
      ∧ (after (exec (.sensorSample (sample 119 9)) booted)).plinth.tripped = false
      ∧ (after (exec (.sensorSample (sample 105 9)) booted)).plinth.hot.contains 7 = true := by decide +kernel

end Sys2Proof.Tests
end

section
/-! PROOFS. The execution model (spec 02): the end of a region, the task instructions of a strand, the dispatcher's events, and what reset and the
start of a task leave. -/
namespace Sys2Proof.Machine

/-! ### Records and tiles after an update -/

theorem State.modRecord_of_some {s : State} {d n : Nat} {r : Record} (f : Record → Record) (hr : s.record d n = some r) :
    s.modRecord d n f = s.setRecord d n (f r) := by
  simp only [State.modRecord, hr]
@[simp] theorem State.record_modMe (s : State) (f : Strand → Strand) (d n : Nat) : (s.modMe f).record d n = s.record d n := rfl
@[simp] theorem Tile.setStrand_task (t : Tile) (k : Nat) (x : Strand) : (t.setStrand k x).task = t.task := rfl

/-! ### The end of a region -/

/-- The region of a record has ended of itself: every strand is HALTED, and no end or freeze was asked for before (04 R108, 02 R51). -/
def State.RegionHalted (s : State) (d : Nat) (x : Record) : Prop :=
  x.endReq = .none ∧ x.state = .running ∧ ∀ y ∈ x.sites, ∀ n < 4, (s.strand d y n).run = .halted

/-- The test of `checkHalted`, as a proposition. -/
theorem regionHalted_iff (s : State) (d : Nat) (x : Record) :
    (x.endReq == .none && x.state == .running && x.sites.all (fun t => (List.range 4).all fun n => (s.strand d t n).run == .halted)) = true ↔
      s.RegionHalted d x := by
  simp only [Bool.and_eq_true, beq_iff_eq, List.all_eq_true, List.mem_range, and_assoc, State.RegionHalted]

section
variable {s : State} {d site r : Nat} {x : Record} (ht : (s.tile d site).task = some r) (hr : s.record d r = some x)
include ht hr

theorem checkHalted_of_halted (h : s.RegionHalted d x) : s.checkHalted d site = s.setRecord d r { x with endReq := .done } := by
  simp only [State.checkHalted, ht, hr, if_pos ((regionHalted_iff s d x).2 h), s.modRecord_of_some _ hr]

theorem checkHalted_of_not_halted (h : ¬s.RegionHalted d x) : s.checkHalted d site = s := by
  simp only [State.checkHalted, ht, hr, if_neg (mt (regionHalted_iff s d x).1 h)]

end

/-- Settles O13. -/
theorem regionEndsWhenAllHalted : Obligations.RegionEndsWhenAllHalted := by
  unfold Obligations.RegionEndsWhenAllHalted
  exact fun _ _ _ _ _ ht hr => ⟨checkHalted_of_halted ht hr, checkHalted_of_not_halted ht hr⟩

/-! ### The task instructions of a strand -/

section
variable {s : State} {n : Nat} {r : Record} (ht : s.here.task = some n) (hr : s.record s.cur.die n = some r)
include ht hr

/-- The record of the task that has the move. -/
theorem State.taskRecord_eq : s.here.task.bind (s.record s.cur.die) = some r := by rw [ht]; exact hr

theorem execTdone_asks (hi : s.me.ready [] Order.none = true) (he : r.endReq = .none) :
    execTdone s = .next ((s.modMe fun t => { t with stall := true }).setRecord s.cur.die n { r with endReq := .done }) := by
  rw [execTdone, issue_ready _ hi]
  simp only [State.here_modMe, Tile.setStrand_task, State.modMe_cur, State.record_modMe, ht, hr, he, beq_self_eq_true, if_true,
    State.modRecord_of_some _ ((s.record_modMe _ _ _).trans hr)]

theorem execTdone_asked_before (hi : s.me.ready [] Order.none = true) (he : r.endReq ≠ .none) :
    execTdone s = .next (s.modMe fun t => { t with stall := true }) := by
  rw [execTdone, issue_ready _ hi]
  simp only [State.here_modMe, Tile.setStrand_task, State.modMe_cur, State.record_modMe, ht, hr, beq_iff_eq, he, if_false]

theorem execTfail_fails (c : BitVec 8) (hi : s.me.ready [] Order.none = true) (he : r.endReq = .none) :
    execTfail c s = .next (s.failAt s.cur.die s.cur.site s.cur.strand ⟨c.toNat, 0, 0⟩) := by
  rw [execTfail, issue_ready _ hi]
  simp [State.taskRecord_eq ht hr, he]

theorem execTfail_asked_before (c : BitVec 8) (hi : s.me.ready [] Order.none = true) (he : r.endReq ≠ .none) :
    execTfail c s = .next (s.modMe fun t => { t with stall := true }) := by
  rw [execTfail, issue_ready _ hi]
  simp [State.taskRecord_eq ht hr, he]

theorem execTsig_bad_index (a : Reg) (o : Order) (hi : s.me.ready [a] o = true) (h : r.nsucc ≤ (s.me.rd a).toNat) :
    execTsig a o s = .next (s.trapMe 1 5 (s.me.rd a)) := by
  rw [execTsig, issue_ready _ hi]
  simp only [State.taskRecord_eq ht hr, if_pos h]

theorem execTsig_waits (a : Reg) (o : Order) (hi : s.me.ready [a] o = true) (h : (s.me.rd a).toNat < r.nsucc) :
    execTsig a o s = .next ((s.launch (s.dispatchAccess 16 0 (s.me.rd a) o.set.val 0)).trySignal
      (s.dispatchAccess 16 0 (s.me.rd a) o.set.val 0)) := by
  rw [execTsig, issue_ready _ hi]
  simp only [State.taskRecord_eq ht hr, if_neg (Nat.not_le.2 h)]

theorem execTstat_record (d a : Reg) (hi : s.me.ready [d, a] Order.none = true) (hb : tstatBad (s.me.rd a) = false)
    (hk : bits (s.me.rd a).toNat 62 2 = 0) :
    execTstat d a s = .next (s.modMe fun t => (t.wr d (r.word (bits (s.me.rd a).toNat 0 4))).next) := by
  rw [execTstat, issue_ready _ hi]
  simp only [hb, Bool.false_eq_true, if_false, if_pos hk, State.taskRecord_eq ht hr]

end

theorem execTstat_bad {s : State} (d a : Reg) (hi : s.me.ready [d, a] Order.none = true) (hb : tstatBad (s.me.rd a) = true) :
    execTstat d a s = .next (s.illOperand (.tstat d a)) := by
  rw [execTstat, issue_ready _ hi]
  exact congrArg _ (if_pos hb)

theorem execTstat_inst {s : State} (d a : Reg) (hi : s.me.ready [d, a] Order.none = true) (hb : tstatBad (s.me.rd a) = false)
    (hk : bits (s.me.rd a).toNat 62 2 ≠ 0) :
    execTstat d a s =
      .next (s.modMe fun t => (t.wr d (s.instStatusWord s.cur.die s.here.part (bits (s.me.rd a).toNat 20 16))).next) := by
  rw [execTstat, issue_ready _ hi]
  simp only [hb, Bool.false_eq_true, if_false, if_neg hk]

theorem execGinst_waits {s : State} (d a b : Reg) (hi : s.readyMem [d, a, b] Order.none = true) :
    execGinst d a b s = .next ((s.launch (s.dispatchAccess 24 (s.me.rd b) (s.me.rd a) 0 d)).tryGinst
      (s.dispatchAccess 24 (s.me.rd b) (s.me.rd a) 0 d)) :=
  issueMem_ready _ hi

/-- The word of TSTAT in the fields of format A (14 R296). -/
theorem encode_tstat (d a : Reg) : encode (.tstat d a) = formatA 0x75 d.val a.val 0 0 0 := by
  show 3925868544 + d.val * 1048576 + a.val * 32768 = _
  unfold formatA
  omega

/-- A register result with its step past the instruction, in the form in which the statements write it. -/
theorem Strand.wr_next (t : Strand) (d : Reg) (w : Word) : (t.wr d w).next = { t.wr d w with pc := t.pc + 4 } := by
  rw [Strand.next, Strand.wr_pc]

/-- Settles O35: each instruction under each of its conditions. -/
theorem taskInstructions : Obligations.TaskInstructions := by
  unfold Obligations.TaskInstructions
  intro s d a b c o n r ht hr
  refine ⟨fun hi he => ⟨execTdone_asks ht hr hi he, execTfail_fails ht hr c hi he⟩,
    fun hi he => ⟨execTdone_asked_before ht hr hi he, execTfail_asked_before ht hr c hi he⟩,
    fun hi => ⟨execTsig_bad_index ht hr a o hi, execTsig_waits ht hr a o hi⟩,
    execGinst_waits d a b, fun hi => ⟨fun hb => ?_, fun hb hk => ?_, fun hb hk => ?_⟩⟩
  · rw [← encode_tstat]
    exact execTstat_bad d a hi hb
  · simp only [← Strand.wr_next]
    exact execTstat_record ht hr d a hi hb hk
  · simp only [← Strand.wr_next]
    exact execTstat_inst d a hi hb hk

/-! ### The dispatcher's events -/

theorem execPlacementPass_pass {s : State} {d : Nat} (hp : s.mayPlace d = true) (hs : (s.die d).spliceReady = none) :
    execPlacementPass d s = .next (((s.modDie d fun f => { f with freed := false }).askReservation d).passFrom d 8 []) := by
  simp only [execPlacementPass, hp, hs, Bool.not_true, Bool.false_eq_true, if_false]

theorem execPlacementPass_splice {s : State} {d p q : Nat} (hp : s.mayPlace d = true) (hs : (s.die d).spliceReady = some (p, q)) :
    execPlacementPass d s = .next (s.placeSpliced d p q) := by
  simp only [execPlacementPass, hp, hs, Bool.not_true, Bool.false_eq_true, if_false]

/-- No copy engine that a task stages through is short of room, as `execStagingAccepted` tests it. -/
theorem stagingFits {s : State} {d : Nat} {r : Record}
    (hroom : ∀ o ∈ r.opds, (s.tile d (r.stageHost o.2)).jobs.length + r.opds.length ≤ 128) :
    (r.opds.any fun o => decide (128 < (s.tile d (r.stageHost o.2)).jobs.length + r.opds.length)) = false := by
  simpa using hroom

section
variable {s : State} {d n : Nat} {r : Record} (hr : s.record d n = some r)
include hr

/-! #### Staging -/

theorem execStagingAccepted_restore (hs : r.state = .placed) (hi : r.restore = true) :
    execStagingAccepted d n s = .next (s.setRecord d n { r with state := .staging, peer := [] }) := by
  simp [execStagingAccepted, hr, hs, hi]

theorem execStagingAccepted_stages (hs : r.state = .placed) (hi : r.restore = false)
    (hroom : ∀ o ∈ r.opds, (s.tile d (r.stageHost o.2)).jobs.length + r.opds.length ≤ 128)
    (hswz : ∀ o ∈ r.opds, swizzleReserved (BitVec.ofNat 5 (bits o.2.toNat 43 5)) = false) :
    execStagingAccepted d n s = .next ((s.setRecord d n { r with state := .staging, peer := [] }).stage d n r) := by
  have hnone : (r.opds.find? fun o => swizzleReserved (BitVec.ofNat 5 (bits o.2.toNat 43 5))) = none := by
    simpa [List.find?_eq_none] using hswz
  simp [execStagingAccepted, hr, hs, hi, stagingFits hroom, hnone]

theorem execStagingAccepted_reserved (hs : r.state = .placed) (hi : r.restore = false)
    (hroom : ∀ o ∈ r.opds, (s.tile d (r.stageHost o.2)).jobs.length + r.opds.length ≤ 128)
    (hswz : ∃ o ∈ r.opds, swizzleReserved (BitVec.ofNat 5 (bits o.2.toNat 43 5)) = true) :
    execStagingAccepted d n s =
      .next ((s.setRecord d n { r with state := .staging, peer := [] }).failTask d n ⟨1, 6, 0⟩ FaultAt.none) := by
  obtain ⟨x, hx⟩ := Option.isSome_iff_exists.1 (List.find?_isSome.2 hswz)
  simp [execStagingAccepted, hr, hs, hi, stagingFits hroom, hx]

/-! #### The start -/

/-- The code is in place in `t`, at once or by the load of this event; the record `q` is then judged as it stands. -/
theorem execTaskRunnable_unspliced {t : State} {q : Record} (hs : r.state = .staging) (hi : r.restore = false)
    (ht : (if r.codeResident then s else s.loadTask d n r) = t) (hq : t.record d n = some q) (hqs : q.state = .staging)
    (hqc : q.codeResident = true) (hqp : q.pred = none) (hst : t.staged d n q = true) :
    execTaskRunnable d n s = .next (t.setRecord d n { q with state := .runnable, frz := false }) := by
  simp [execTaskRunnable, hr, hs, hi, ht, hq, hqs, hqc, hqp, hst]

theorem execTaskStart_resumes (hs : r.state = .runnable) (hp : r.pred = none) (hi : r.restore = true) :
    execTaskStart d n s = .next (s.resume d n) := by
  simp [execTaskStart, hr, hs, hp, hi]

theorem execTaskStart_starts (hs : r.state = .runnable) (hp : r.pred = none) (hi : r.restore = false) :
    execTaskStart d n s = .next ((s.setRecord d n { r with state := .running, endReq := .none }).over r.sites
      fun y s => s.modTile d y fun t => t.start y n r) := by
  simp [execTaskStart, hr, hs, hp, hi]

/-! #### The retirement -/

theorem execTaskRetirement_vacates (hs : r.state = .running) (hp : r.pred = none) (hq : r.succRec = none) (he : r.endReq = .done)
    (hw : s.writesDone d r = true) (hpsn : r.succPsn = false) :
    execTaskRetirement d n s =
      .next (((((s.sendSuccessors d n r).closePlace d n 7 0).vacateRegion d r.sites).modRecord d n fun r =>
        { r with state := .done, endReq := .none, codeResident := false }).retireInstance r.inst) := by
  simp [execTaskRetirement, hr, hs, hp, hq, he, hw, hpsn]

theorem execTaskRetirement_hands_over {q : Nat} (hs : r.state = .running) (hp : r.pred = none) (hq : r.succRec = some q)
    (hb : s.boundaryDone d n q = true) (he : r.endReq = .done) (hw : s.writesDone d r = true) (hpsn : r.succPsn = false) :
    execTaskRetirement d n s =
      .next (((((s.sendSuccessors d n r).closePlace d n 7 0).handOver d n q).modRecord d n fun r =>
        { r with state := .done, endReq := .none, codeResident := false }).retireInstance r.inst) := by
  simp [execTaskRetirement, hr, hs, hp, hq, hb, he, hw, hpsn]

/-! #### The freeze -/

section
variable (hs : r.state = .running) (hp : r.pred = none) (hq : r.succRec = none) (he : r.endReq = .freeze)
  (hrest : s.regionAtRest d r.sites = true)
include hs hp hq he hrest

theorem execFreezeSaveComplete_fetches (hroom : s.freezeRoom [(d, n)] = true)
    (hreach : s.slotsInReach d true (s.freeSlots r.part r.area) = false) :
    execFreezeSaveComplete d n s = .next (s.fetchLines d true r.part (s.freeSlots r.part r.area)) := by
  simp [execFreezeSaveComplete, hr, hs, hp, hq, he, hrest, hroom, hreach]

theorem execFreezeSaveComplete_saves (hroom : s.freezeRoom [(d, n)] = true)
    (hreach : s.slotsInReach d true (s.freeSlots r.part r.area) = true) :
    execFreezeSaveComplete d n s = .next (((s.freeze d n r none).markFrozen r.part).answerFreeze d n 0) := by
  simp [execFreezeSaveComplete, hr, hs, hp, hq, he, hrest, hroom, hreach, State.over]

theorem execFreezeSaveComplete_no_room (hroom : s.freezeRoom [(d, n)] = false) :
    execFreezeSaveComplete d n s = .next ((s.modRecord d n fun x => { x with endReq := .none }).answerFreeze d n 3) := by
  simp [execFreezeSaveComplete, hr, hs, hp, hq, he, hrest, hroom, State.over]

end

/-! #### The restore -/

theorem execRestoreComplete_fetches (hs : r.state = .staging) (hi : r.restore = true) (hp : r.pred = none)
    (hreach : s.slotsInReach d false (r.image.filterMap (·.slot)) = false) :
    execRestoreComplete d n s = .next (s.fetchLines d false r.part (r.image.filterMap (·.slot))) := by
  simp [execRestoreComplete, hr, hs, hi, hp, hreach]

theorem execRestoreComplete_alone (hs : r.state = .staging) (hi : r.restore = true) (hp : r.pred = none) (hq : r.succRec = none)
    (hreach : s.slotsInReach d false (r.image.filterMap (·.slot)) = true) :
    execRestoreComplete d n s = .next (s.restoreOne d n r) := by
  simp [execRestoreComplete, hr, hs, hi, hp, hq, hreach]

end

theorem restoreOne_changed {s : State} {d n i : Nat} {r : Record} (h : s.badTile r = some i) :
    s.restoreOne d n r = s.failRestore d n r i := by
  simp only [State.restoreOne, h]

theorem restoreOne_clean {s : State} {d n : Nat} {r : Record} (h : s.badTile r = none) (hp : r.poisonedTile (s.poisonedParts r).1 = none) :
    s.restoreOne d n r = ((s.poisonedParts r).2.writeBack d n r (s.poisonedParts r).1).markFrozen r.part := by
  simp only [State.restoreOne, h, hp]

theorem restoreOne_poisoned {s : State} {d n i : Nat} {r : Record} (h : s.badTile r = none)
    (hp : r.poisonedTile (s.poisonedParts r).1 = some i) :
    s.restoreOne d n r = (s.poisonedParts r).2.failRestore d n r i := by
  simp only [State.restoreOne, h, hp]

/-- Settles O46: each event under each of its conditions. -/
theorem dispatcherEvents : Obligations.DispatcherEvents := by
  unfold Obligations.DispatcherEvents
  intro s d n r hr
  refine ⟨?_, ?_, ?_, ?_, ?_, ?_, ?_, ?_, ?_, ?_, ?_⟩
  · exact execPlacementPass_pass
  · exact fun p q => execPlacementPass_splice
  · exact fun hs => ⟨execStagingAccepted_restore hr hs, fun hi hroom =>
      ⟨execStagingAccepted_stages hr hs hi hroom, execStagingAccepted_reserved hr hs hi hroom⟩⟩
  · exact fun hs hi hc hp hst => execTaskRunnable_unspliced hr hs hi (if_pos hc) hr hs hc hp hst
  · exact fun q hs hi hc => execTaskRunnable_unspliced hr hs hi (if_neg (by simp [hc]))
  · exact fun hs hp => ⟨execTaskStart_resumes hr hs hp, execTaskStart_starts hr hs hp⟩
  · exact execTaskRetirement_vacates hr
  · exact fun q => execTaskRetirement_hands_over hr
  · exact fun hs hp hq he hrest => ⟨execFreezeSaveComplete_fetches hr hs hp hq he hrest,
      execFreezeSaveComplete_saves hr hs hp hq he hrest, execFreezeSaveComplete_no_room hr hs hp hq he hrest⟩
  · exact execRestoreComplete_fetches hr
  · intro hs hi hp hq hreach
    have hone : exec (.restoreComplete d n) s = .next (s.restoreOne d n r) := execRestoreComplete_alone hr hs hi hp hq hreach
    rw [hone]
    exact ⟨fun i h => congrArg _ (restoreOne_changed h),
      fun h => ⟨fun hp => congrArg _ (restoreOne_clean h hp), fun i hp => congrArg _ (restoreOne_poisoned h hp)⟩⟩

/-! ### Reset and the start of a task -/

@[simp] theorem vget_replicate {α : Type} (n i : Nat) (v : α) : vget (Vector.replicate (n + 1) v) i = v := by
  simp [vget]

@[simp] theorem State.reset_die (d : Nat) : State.reset.die d = FDie.init := vget_replicate 7 d FDie.init

/-- The registers of a starting strand hold its task's two arguments and 0 elsewhere (02 R43). -/
theorem startStrand_rd (r : Record) (n y x k : Nat) (j : Reg) :
    (startStrand r n y x k).rd j = if j = 1 then r.arg0 else if j = 2 then r.arg1 else 0 := by
  simp only [Strand.rd, startStrand, Vector.getElem_set, Vector.getElem_replicate, Fin.ext_iff]
  grind

/-- Settles O59. -/
theorem resetAndTaskStart : Obligations.ResetAndTaskStart := by
  unfold Obligations.ResetAndTaskStart
  refine ⟨fun d _ k => ?_, fun p => rfl, rfl, fun r n y x k => ?_, fun t y n r => ⟨rfl, rfl, rfl⟩, fun j _ => vget_replicate 7 j 0, rfl,
    fun j _ => ⟨vget_replicate 3 j [], vget_replicate 3 j []⟩, rfl, rfl⟩
  · rw [State.reset_die]
    exact ⟨rfl, rfl, rfl, rfl⟩
  · refine ⟨rfl, ?_, ?_, fun j h1 h2 => ?_, rfl, rfl, fun j _ => vget_replicate 7 j 0, rfl⟩
    · rw [startStrand_rd, if_pos rfl]
    · rw [startStrand_rd, if_neg (by decide), if_pos rfl]
    · rw [startStrand_rd, if_neg h1, if_neg h2]

end Sys2Proof.Machine
end

section
/-! PROOFS. Decrement messages (spec 03): the window of a source, what a message does to its record, the messages that a dispatcher keeps, and the
slots of a window write. -/
namespace Sys2Proof

/-! ### The words of a message (03 R75) -/

theorem DecrMsg.ok_iff (m : DecrMsg) :
    m.ok = true ↔ m.sdev < 1024 ∧ m.sdie < 8 ∧ m.tinst < 65536 ∧ m.seq < 4294967296 ∧ m.record < 32768 ∧ m.pbx < 16 ∧ m.pby < 16
      ∧ m.pw < 16 ∧ m.ph < 16 := by
  simp only [DecrMsg.ok, Bool.and_eq_true, decide_eq_true_eq, and_assoc]

theorem DecrKind.code_lt (k : DecrKind) : k.code < 4 := by cases k <;> decide

/-- What a message of a kind is at the dispatcher that it reaches. -/
def DecrKind.row : DecrKind → Nat → DecrMsg → Instr
  | .decrement => .decrement
  | .forward => .forwardDecrement
  | .abort => .abortMessage
  | .ack => .acknowledgement

/-- The first word holds, from the top, the sender, the kind, TINST and the sequence number. -/
theorem encodeDecr_fst_fields (k : DecrKind) {m : DecrMsg} (h : m.ok = true) :
    let a := (encodeDecr k m).1.toNat
    bits a 54 10 = m.sdev ∧ bits a 51 3 = m.sdie ∧ bits a 48 3 = k.code ∧ bits a 32 16 = m.tinst ∧ bits a 0 32 = m.seq := by
  obtain ⟨hdev, hdie, hinst, hseq, -⟩ := m.ok_iff.1 h
  have hkind := k.code_lt
  simp only [encodeDecr, bits, BitVec.toNat_ofNat]
  omega

/-- The second word holds the record and the producer's region between bits that are zero. -/
theorem encodeDecr_snd_fields (k : DecrKind) {m : DecrMsg} (h : m.ok = true) :
    let b := (encodeDecr k m).2.toNat
    bits b 49 15 = 0 ∧ bits b 34 15 = m.record ∧ bits b 30 4 = m.pbx ∧ bits b 26 4 = m.pby ∧ bits b 22 4 = m.pw ∧ bits b 18 4 = m.ph
      ∧ bits b 0 18 = 0 := by
  obtain ⟨-, -, -, -, hrec, hbx, hby, hw, hh⟩ := m.ok_iff.1 h
  simp only [encodeDecr, bits, BitVec.toNat_ofNat]
  omega

/-- A dispatcher reads back the message that was sent. -/
theorem decodeDecr_encodeDecr (p : Packet) (k : DecrKind) {m : DecrMsg} (h : m.ok = true) :
    decodeDecr p (encodeDecr k m).1 (encodeDecr k m).2 = k.row p.dst m := by
  obtain ⟨hdev, hdie, hkind, hinst, hseq⟩ := encodeDecr_fst_fields k h
  obtain ⟨hhigh, hrec, hbx, hby, hw, hh, hlow⟩ := encodeDecr_snd_fields k h
  simp only [decodeDecr, hdev, hdie, hkind, hinst, hseq, hhigh, hrec, hbx, hby, hw, hh, hlow, ne_eq, not_true, or_self, if_false]
  cases k <;> rfl

/-- Word `i` of a write's data. -/
def UaReq.word (r : UaReq) (i : Nat) : Word := BitVec.ofNat 64 (Machine.fromBytes ((r.data.drop (8 * i)).take 8))

end Sys2Proof

namespace Sys2Proof.Machine

/-! ### The window of a source (03 R77) -/

/-- HI and the map of the window that a message passes. -/
def State.windowFor (s : State) (d : Nat) (m : DecrMsg) : Nat × BitVec 64 := tgetD (s.die d).windows (destKey m.sdev m.sdie) (0, 0)
/-- How far the sequence number of a message lies above HI. -/
def State.aboveHi (s : State) (d : Nat) (m : DecrMsg) : Int := seqDiff m.seq (s.windowFor d m).1
/-- Writes the window that a message passes. -/
def State.putWindow (s : State) (d : Nat) (m : DecrMsg) (w : Nat × BitVec 64) : State :=
  s.modDie d fun f => { f with windows := tput f.windows (destKey m.sdev m.sdie) w }

section
variable {s : State} {d : Nat} {m : DecrMsg} (apply : State → State)

/-- The algorithm of R77 in terms of the window and of the distance from its HI. -/
theorem receive_eq (s : State) (d : Nat) (m : DecrMsg) :
    s.receive d m apply =
      (if 0 < s.aboveHi d m then apply (s.putWindow d m (m.seq, ((s.windowFor d m).2 <<< (s.aboveHi d m).toNat) ||| 1))
       else if -64 < s.aboveHi d m && !(s.windowFor d m).2.getLsbD (-s.aboveHi d m).toNat then
         apply (s.putWindow d m ((s.windowFor d m).1, (s.windowFor d m).2 ||| (1#64 <<< (-s.aboveHi d m).toNat)))
       else if -64 < s.aboveHi d m then s.modDie d fun f => { f with dropDup := f.dropDup + 1 }
       else s.modDie d fun f => { f with dropStale := f.dropStale + 1 }).acknowledge d m := rfl

theorem receive_above (h : 0 < s.aboveHi d m) :
    s.receive d m apply =
      (apply (s.putWindow d m (m.seq, ((s.windowFor d m).2 <<< (s.aboveHi d m).toNat) ||| 1))).acknowledge d m := by
  rw [receive_eq, if_pos h]

theorem receive_marks (h0 : s.aboveHi d m ≤ 0) (h64 : -64 < s.aboveHi d m)
    (hclear : (s.windowFor d m).2.getLsbD (-s.aboveHi d m).toNat = false) :
    s.receive d m apply =
      (apply (s.putWindow d m ((s.windowFor d m).1, (s.windowFor d m).2 ||| (1#64 <<< (-s.aboveHi d m).toNat)))).acknowledge d m := by
  rw [receive_eq, if_neg (Int.not_lt.2 h0), if_pos (by simp only [h64, hclear, decide_true, Bool.not_false, Bool.and_self])]

theorem receive_duplicate (h0 : s.aboveHi d m ≤ 0) (h64 : -64 < s.aboveHi d m)
    (hset : (s.windowFor d m).2.getLsbD (-s.aboveHi d m).toNat = true) :
    s.receive d m apply = (s.modDie d fun f => { f with dropDup := f.dropDup + 1 }).acknowledge d m := by
  rw [receive_eq, if_neg (Int.not_lt.2 h0), if_neg (by simp only [hset, Bool.not_true, Bool.and_false, Bool.false_eq_true, not_false_eq_true]),
    if_pos h64]

theorem receive_stale (h64 : s.aboveHi d m ≤ -64) :
    s.receive d m apply = (s.modDie d fun f => { f with dropStale := f.dropStale + 1 }).acknowledge d m := by
  have hlow : ¬-64 < s.aboveHi d m := Int.not_lt.2 h64
  rw [receive_eq, if_neg (by omega), if_neg (by simp only [hlow, decide_false, Bool.false_and, Bool.false_eq_true, not_false_eq_true]),
    if_neg hlow]

end

/-- The three kinds that pass their source's window do so alike: what holds of `receive` for every effect holds of each of them. -/
theorem exec_receives {s : State} {d : Nat} {m : DecrMsg} {f : (State → State) → State} (h : ∀ apply, s.receive d m apply = f apply) :
    exec (.decrement d m) s = .next (f fun s => s.applyDecrement d m false)
      ∧ exec (.forwardDecrement d m) s = .next (f fun s => s.applyDecrement d m true)
      ∧ exec (.abortMessage d m) s = .next (f fun s => s.abortInstance m.tinst) :=
  ⟨congrArg _ (h _), congrArg _ (h _), congrArg _ (h _)⟩

/-! ### A decrement at its record (02 R30, R49, 03 R68) -/

theorem applyDecrement_no_record {s : State} {d : Nat} {m : DecrMsg} (forward : Bool) (hr : s.record d m.record = none) :
    s.applyDecrement d m forward = s.countDecr d 1 := by
  simp only [State.applyDecrement, hr]

section
variable {s : State} {d : Nat} {m : DecrMsg} {r : Record} (hr : s.record d m.record = some r)
include hr

theorem applyDecrement_other_instance (forward : Bool) (hi : r.inst ≠ m.tinst) : s.applyDecrement d m forward = s.countDecr d 1 := by
  simp only [State.applyDecrement, hr, if_pos hi]

variable (hi : r.inst = m.tinst)
include hi

theorem applyDecrement_reserved (forward : Bool) (hv : r.reserved = true) :
    s.applyDecrement d m forward = s.setRecord d m.record
      { r with dcnt := min (r.dcnt + 1) 65535, producer := if forward then some (m.pbx, m.pby, m.pw, m.ph) else r.producer } := by
  simp only [State.applyDecrement, hr, if_neg (not_not.2 hi), hv, if_true, Bool.or_true, Bool.and_true]

variable (hv : r.reserved = false)
include hv

theorem applyDecrement_not_dormant (forward : Bool) (hs : r.state ≠ .dormant) : s.applyDecrement d m forward = s.countDecr d 1 := by
  simp only [State.applyDecrement, hr, if_neg (not_not.2 hi), hv, Bool.false_eq_true, if_false, if_pos (bne_iff_ne.2 hs)]

/-- A DORMANT task loses one dependence, and enters READY with the last. -/
theorem applyDecrement_dormant (forward : Bool) (hs : r.state = .dormant) :
    s.applyDecrement d m forward =
      let t := s.setRecord d m.record
        { r with dcnt := r.dcnt - 1, producer := if forward && r.fwd then some (m.pbx, m.pby, m.pw, m.ph) else r.producer }
      if r.dcnt - 1 = 0 then t.enterReady d m.record false else t := by
  simp only [State.applyDecrement, hr, if_neg (not_not.2 hi), hv, Bool.false_eq_true, if_false, hs, bne_self_eq_false, Bool.or_false]

theorem applyDecrement_counts (hs : r.state = .dormant) (hc : 1 < r.dcnt) :
    s.applyDecrement d m false = s.setRecord d m.record { r with dcnt := r.dcnt - 1 } :=
  (applyDecrement_dormant hr hi hv false hs).trans (if_neg (by omega))

theorem applyDecrement_last (hs : r.state = .dormant) (hc : r.dcnt = 1) :
    s.applyDecrement d m false = (s.setRecord d m.record { r with dcnt := 0 }).enterReady d m.record false := by
  simp only [applyDecrement_dormant hr hi hv false hs, hc, Nat.sub_self, if_true, Bool.false_and, Bool.false_eq_true, if_false]

theorem applyDecrement_forward_counts (hs : r.state = .dormant) (hf : r.fwd = true) (hc : 1 < r.dcnt) :
    s.applyDecrement d m true =
      s.setRecord d m.record { r with dcnt := r.dcnt - 1, producer := some (m.pbx, m.pby, m.pw, m.ph) } := by
  refine (applyDecrement_dormant hr hi hv true hs).trans ((if_neg (by omega)).trans ?_)
  simp only [hf, Bool.and_self, if_true]

end

/-- Settles O44: the four ways through the source's window, then the ways of a decrement at its record. -/
theorem decrementMessagesAreApplied : Obligations.DecrementMessagesAreApplied := by
  unfold Obligations.DecrementMessagesAreApplied
  intro s d m
  refine ⟨?above, ?marks, ?duplicate, ?stale, ?counts, ?forwardCounts, ?reserved, ?unnamed, ?notDormant⟩
  case above => exact fun h => exec_receives fun apply => receive_above apply h
  case marks => exact fun h0 h64 hclear => exec_receives fun apply => receive_marks apply h0 h64 hclear
  case duplicate => exact fun h0 h64 hset => exec_receives fun apply => receive_duplicate apply h0 h64 hset
  case stale => exact fun h => exec_receives fun apply => receive_stale apply h
  case counts => exact fun r hr hi hv hs => ⟨applyDecrement_counts hr hi hv hs, applyDecrement_last hr hi hv hs⟩
  case forwardCounts => exact fun r hr hi hv hs => applyDecrement_forward_counts hr hi hv hs
  case reserved => exact fun r forward hr hi => applyDecrement_reserved hr hi forward
  case unnamed =>
    rintro forward (hr | ⟨r, hr, hi⟩)
    · exact applyDecrement_no_record forward hr
    · exact applyDecrement_other_instance hr forward hi
  case notDormant => exact fun r hr hi hv => applyDecrement_not_dormant hr hi hv false

/-! ### The messages that a dispatcher keeps (03 R76) -/

theorem inWindowOf_cons (seq : Nat) (y : Kept) (rest : List Kept) : inWindowOf (y :: rest) seq = true ↔ seqDiff seq y.msg.seq < 64 :=
  decide_eq_true_iff

section
variable {s : State} {d : Nat} {m : DecrMsg}

theorem execAcknowledgement_unmatched (h : ∀ y ∈ s.keptTo d m.sdev m.sdie, y.msg.seq ≠ m.seq) : execAcknowledgement d m s = .next s := by
  have hnone : (s.keptTo d m.sdev m.sdie).find? (fun y => y.msg.seq == m.seq) = none := by
    simpa only [List.find?_eq_none, beq_iff_eq] using h
  simp only [execAcknowledgement, hnone]

theorem execAcknowledgement_releases {x : Kept} (h : (s.keptTo d m.sdev m.sdie).find? (fun y => y.msg.seq == m.seq) = some x) :
    execAcknowledgement d m s =
      let t := s.modDie d fun f => { f with kept := f.kept.erase x }
      let left := t.keptTo d m.sdev m.sdie
      .next (t.over (left.filter fun y => inWindowOf left y.msg.seq && !inWindowOf (s.keptTo d m.sdev m.sdie) y.msg.seq) fun y t =>
        t.transmit d y.dev y.die y.kind y.msg) := by
  simp only [execAcknowledgement, h]

/-- An acknowledgement always answers a next state. -/
theorem execAcknowledgement_next (s : State) (d : Nat) (m : DecrMsg) : ∃ t, execAcknowledgement d m s = .next t := by
  cases h : (s.keptTo d m.sdev m.sdie).find? (fun y => y.msg.seq == m.seq) with
  | none => exact ⟨s, by simp only [execAcknowledgement, h]⟩
  | some x => exact ⟨_, execAcknowledgement_releases h⟩

end

section
variable (s : State) (d dev die : Nat) (kind : DecrKind) (m : DecrMsg)

/-- The sequence number of the next message toward a dispatcher. -/
def State.nextSeq : Nat := tgetD (s.die d).seqOut (destKey dev die) 1
/-- A message as it is sent: its sender and its sequence number are written in. -/
def State.stamped : DecrMsg := { m with sdev := s.plinth.podId, sdie := d, seq := s.nextSeq d dev die }
/-- The state that keeps a message and has counted it. -/
def State.keeps : State := s.modDie d fun f => { f with
  seqOut := tput f.seqOut (destKey dev die) (if s.nextSeq d dev die = 0xFFFFFFFF then 1 else s.nextSeq d dev die + 1)
  kept := f.kept ++ [⟨dev, die, kind, s.stamped d dev die m⟩] }

theorem sendMessage_goes_out (h : inWindowOf (s.keptTo d dev die) (s.nextSeq d dev die) = true) :
    s.sendMessage d dev die kind m = (s.keeps d dev die kind m).transmit d dev die kind (s.stamped d dev die m) :=
  if_pos h

theorem sendMessage_waits (h : inWindowOf (s.keptTo d dev die) (s.nextSeq d dev die) = false) :
    s.sendMessage d dev die kind m = s.keeps d dev die kind m :=
  if_neg (Bool.not_eq_true _ ▸ h)

end

section
variable {s : State} {d k : Nat} {x : Kept} (hx : lget (s.die d).kept k = some x)
include hx

theorem execDecrementResend_goes_out (h : inWindowOf (s.keptTo d x.dev x.die) x.msg.seq = true) :
    execDecrementResend d k s = .next (s.transmit d x.dev x.die x.kind x.msg) := by
  simp only [execDecrementResend, hx, h, if_true]

theorem execDecrementResend_waits (h : inWindowOf (s.keptTo d x.dev x.die) x.msg.seq = false) : execDecrementResend d k s = .next s := by
  simp only [execDecrementResend, hx, h, Bool.false_eq_true, if_false]

theorem execLinklost_reports : execLinklost d k s = .next (s.linkLost d x) := by
  simp only [execLinklost, hx]

end

/-! ### The slots of a window write (03 R75, 12 R278) -/

/-- The header under which a slot's message is decoded. -/
def slotHeader (d : Nat) : Packet := { Packet.zero with dst := d, ndf := 1 }

/-- A slot that is not empty does what its message does. -/
theorem exec_row_eq_windowSlot (s : State) (d : Nat) (k : DecrKind) (m : DecrMsg) {w0 w1 : Word}
    (hdec : decodeDecr (slotHeader d) w0 w1 = k.row d m) (hne : w0 ≠ 0 ∨ w1 ≠ 0) :
    exec (k.row d m) s = .next (s.windowSlot d w0 w1) := by
  have hfull : (w0 == 0 && w1 == 0) = false := by
    rwa [Bool.and_eq_false_iff, beq_eq_false_iff_ne, beq_eq_false_iff_ne]
  rw [slotHeader] at hdec
  simp only [State.windowSlot, hfull, Bool.false_eq_true, if_false, hdec]
  cases k with
  | decrement | forward | abort => rfl
  | ack =>
    obtain ⟨t, ht⟩ := execAcknowledgement_next s d m
    exact ht.trans (by simp only [DecrKind.row, ht])

theorem exec_row_eq_windowSlot_encodeDecr (s : State) (d : Nat) (k : DecrKind) {m : DecrMsg} (h : m.ok = true)
    (hne : (encodeDecr k m).1 ≠ 0 ∨ (encodeDecr k m).2 ≠ 0) :
    exec (k.row d m) s = .next (s.windowSlot d (encodeDecr k m).1 (encodeDecr k m).2) :=
  exec_row_eq_windowSlot s d k m (decodeDecr_encodeDecr (slotHeader d) k h) hne

/-- The code of its kind keeps the slot of a message other than a decrement from being empty. -/
theorem encodeDecr_fst_ne_zero {k : DecrKind} {m : DecrMsg} (h : m.ok = true) (hk : k.code ≠ 0) : (encodeDecr k m).1 ≠ 0 := by
  obtain ⟨-, -, hkind, -⟩ := encodeDecr_fst_fields k h
  intro hz
  rw [hz] at hkind
  exact hk hkind.symm

/-- A write that runs its slots: a whole, aligned one of 64 bytes from an admitted device. -/
def State.takesWindow (s : State) (r : UaReq) : Bool :=
  s.plinth.admitted.contains r.src && r.op == .write && r.bytes == 64 && r.off % 64 == 0 && (r.mask.take 64).length == 64 && (r.mask.take 64).all id

theorem windowWrite_taken {s : State} {d : Nat} {r : UaReq} (h : s.takesWindow r = true) :
    s.windowWrite d r =
      ((((s.windowSlot d (r.word 0) (r.word 1)).windowSlot d (r.word 2) (r.word 3)).windowSlot d (r.word 4) (r.word 5)).windowSlot d
        (r.word 6) (r.word 7)).answerPeer r false [] false :=
  if_pos h

theorem windowWrite_refused {s : State} {d : Nat} {r : UaReq} (h : s.takesWindow r = false) :
    s.windowWrite d r = (s.logDrop d opcDecr 0 { Packet.zero with dst := d, data := BitVec.ofNat 1024 (fromBytes r.data) } 2).answerPeer
      r true [] false :=
  if_neg (Bool.not_eq_true _ ▸ h)

theorem takesWindow_whole {s : State} {r : UaReq} (hsrc : s.plinth.admitted.contains r.src = true) (hop : r.op = .write) (hn : r.bytes = 64)
    (hoff : r.off % 64 = 0) (hmask : r.mask = List.replicate 64 true) : s.takesWindow r = true := by
  simp only [State.takesWindow, hsrc, hop, hn, hoff, hmask]
  decide

theorem takesWindow_otherwise {s : State} {r : UaReq}
    (h : s.plinth.admitted.contains r.src = false ∨ r.op ≠ .write ∨ r.bytes ≠ 64 ∨ r.off % 64 ≠ 0) : s.takesWindow r = false := by
  rw [← Bool.not_eq_true]
  simp only [State.takesWindow, Bool.and_eq_true, beq_iff_eq]
  rintro ⟨⟨⟨⟨⟨hsrc, hop⟩, hn⟩, hoff⟩, -⟩, -⟩
  rcases h with h | h | h | h
  · exact Bool.false_ne_true (h.symm.trans hsrc)
  · exact h hop
  · exact h hn
  · exact h hoff

/-- Settles O45: acknowledgements, the window of a sender, sends, resends and reports, then the slots of a write. -/
theorem decrementMessagesAreKept : Obligations.DecrementMessagesAreKept := by
  unfold Obligations.DecrementMessagesAreKept
  intro s d k m x w0 w1
  refine ⟨?unmatched, ?releases, ?window, ?sends, ?resends, ?reports, ?malformed, ?empty, ?slots, ?writes⟩
  case unmatched => exact execAcknowledgement_unmatched
  case releases => exact execAcknowledgement_releases
  case window => exact fun seq y rest => ⟨rfl, inWindowOf_cons seq y rest⟩
  case sends => exact fun dev die kind => ⟨sendMessage_goes_out s d dev die kind m, sendMessage_waits s d dev die kind m⟩
  case resends => exact fun hx => ⟨execDecrementResend_goes_out hx, execDecrementResend_waits hx⟩
  case reports => exact execLinklost_reports
  case malformed => exact fun p => rfl
  case empty => rfl
  case slots =>
    exact fun h => ⟨exec_row_eq_windowSlot_encodeDecr s d .decrement h,
      exec_row_eq_windowSlot_encodeDecr s d .forward h (.inl (encodeDecr_fst_ne_zero h (by decide))),
      exec_row_eq_windowSlot_encodeDecr s d .abort h (.inl (encodeDecr_fst_ne_zero h (by decide))),
      exec_row_eq_windowSlot_encodeDecr s d .ack h (.inl (encodeDecr_fst_ne_zero h (by decide)))⟩
  case writes =>
    exact fun r => ⟨fun hsrc hop hn hoff hmask => windowWrite_taken (takesWindow_whole hsrc hop hn hoff hmask),
      fun h => windowWrite_refused (takesWindow_otherwise h)⟩

end Sys2Proof.Machine
end

section
/-! PROOFS. The control processor (spec 04): readiness and issue, control transfers, waiting, strands, fetch faults, system registers and the
launch of an access. -/
namespace Sys2Proof.Machine

/-! ### Issue of an instruction whose strand is not ready (04 R81) -/

/-- What `Strand.ready` tests, as a proposition. -/
theorem Strand.ready_iff (t : Strand) (regs : List Reg) (o : Order) :
    t.ready regs o = true ↔
      t.run = .run ∧ t.stall = false ∧ (∀ r ∈ regs, t.busy.getLsbD r.val = false) ∧ (o.wait = 0 ∨ vget t.sb o.wait.val = 0)
        ∧ (o.set = 0 ∨ vget t.sb o.set.val < 63) := by
  simp only [Strand.ready, Strand.isBusy, Bool.and_eq_true, beq_iff_eq, Bool.not_eq_true', List.all_eq_true, Bool.or_eq_true,
    decide_eq_true_iff, and_assoc]

section
variable {s : State} {regs : List Reg} {o : Order}

theorem issueAlu_not_ready (f : Strand → Strand) (h : s.me.ready regs Order.none = false) : issueAlu s regs f = .next s :=
  issue_not_ready _ h

theorem issueMem_not_ready (go : State → State) (h : s.me.ready regs o = false) : issueMem s regs o go = .next s :=
  if_neg (by simp only [h, Bool.false_and, Bool.false_eq_true, not_false_eq_true])

theorem issueCommand_not_ready (go : State → State) (h : s.me.ready regs o = false) : issueCommand s regs o go = .next s :=
  if_neg (by simp only [h, Bool.false_and, Bool.false_eq_true, not_false_eq_true])

end

/-- A STG that finds the store buffer full waits as one whose strand is not ready does. -/
theorem execStg_not_ready {s : State} {d a : Reg} (z : Size) (e : BitVec 6) {o : Order} (h : s.me.ready [d, a] o = false) :
    execStg d a z e o s = .next s :=
  ite_eq_left_iff.2 fun _ => issueMem_not_ready _ h

/-- Settles O1. -/
theorem readinessAndForfeit : Obligations.ReadinessAndForfeit := by
  unfold Obligations.ReadinessAndForfeit
  refine ⟨Strand.ready_iff, fun s d a b o => ⟨?alu, ?control, ?traps, ?system, ?loads, ?stores, ?fences, ?windows⟩⟩
  case alu => exact fun _ h => ⟨issueAlu_not_ready _ h, issueAlu_not_ready _ h⟩
  case control =>
    intro t h
    show execB t s = _ ∧ execHalt s = _ ∧ execSleep s = _
    exact ⟨issue_not_ready _ h, issue_not_ready _ h, issueAlu_not_ready _ h⟩
  case traps =>
    intro n h
    show execSvc n s = _ ∧ execTrap n s = _ ∧ execBrk n s = _ ∧ execEret s = _
    exact ⟨issue_not_ready _ h, issue_not_ready _ h, issue_not_ready _ h, issue_not_ready _ h⟩
  case system =>
    intro r h
    show execSrd d r s = _ ∧ execSwr d r s = _
    exact ⟨issueAlu_not_ready _ h, issue_not_ready _ h⟩
  case loads =>
    intro z e h
    show execLdl d a z e o s = _ ∧ execLdg d a z e o s = _
    exact ⟨issueMem_not_ready _ h, issueMem_not_ready _ h⟩
  case stores =>
    intro z e h
    show execStl d a z e o s = _ ∧ execStg d a z e o s = _
    exact ⟨issueCommand_not_ready _ h, execStg_not_ready z e h⟩
  case fences =>
    intro q c h
    show execFence q c o s = _
    exact issueMem_not_ready _ h
  case windows =>
    intro h
    show execTsb d a b o s = _ ∧ execHalloc d a b o s = _
    exact ⟨issueMem_not_ready _ h, issue_not_ready _ h⟩

/-! ### Control transfers (04 R96) -/

/-- What `Tile.targetOk` tests, as a proposition. -/
theorem Tile.targetOk_iff (t : Tile) (off : Word) :
    t.targetOk off = true ↔ off.toNat % 4 = 0 ∧ off.toNat < t.codeLen ∧ ∃ c, t.wordAt off.toNat = some c ∧ c.start = true := by
  simp only [Tile.targetOk, Bool.and_eq_true, beq_iff_eq, decide_eq_true_iff, Option.any_eq_true, and_assoc]

/-- A tile without firmware finds the words that its loader has written, in the half that runs. -/
theorem Tile.wordAt_of_no_firmware {t : Tile} (h : t.firmware = none) (off : Nat) :
    t.wordAt off = tget t.imem ((if t.half then 16384 else 0) + off / 4) := by
  simp only [Tile.wordAt, h]
  cases tget t.imem ((if t.half then 16384 else 0) + off / 4) <;> rfl

/-- The target of a branch over the integers that its field holds. -/
theorem branchTarget_eq (pc : Word) (t : BitVec 21) : branchTarget pc t = pc + BitVec.ofInt 64 (4 * t.toInt) := by
  rw [branchTarget, sx, BitVec.signExtend, BitVec.mul_comm, BitVec.ofInt_mul]
  rfl

section
variable {s : State} (t : BitVec 21) (a : Reg)

theorem execB_jumps (h : s.me.ready [] Order.none = true) : execB t s = .next (s.jumpMe (branchTarget s.me.pc t) fun x => x) := issue_ready _ h
theorem execCall_jumps (h : s.me.ready [31] Order.none = true) :
    execCall t s = .next (s.jumpMe (branchTarget s.me.pc t) fun x => x.wr 31 (x.pc + 4)) := issue_ready _ h
theorem execCallr_jumps (h : s.me.ready [a, 31] Order.none = true) :
    execCallr a s = .next (s.jumpMe (s.me.rd a) fun x => x.wr 31 (x.pc + 4)) := issue_ready _ h
theorem execJmpr_jumps (h : s.me.ready [a] Order.none = true) : execJmpr a s = .next (s.jumpMe (s.me.rd a) fun x => x) := issue_ready _ h
theorem execRet_jumps (h : s.me.ready [31] Order.none = true) : execRet s = .next (s.jumpMe (s.me.rd 31) fun x => x) := issue_ready _ h

end

theorem execBc_eq {s : State} (p : Fin 8) (w : Bool) (t : BitVec 21) (h : s.me.ready [] Order.none = true) :
    execBc p w t s = .next (if predGet s.me.p p.val = w then s.modMe Strand.next else s.jumpMe (branchTarget s.me.pc t) fun x => x) := by
  rw [execBc, issue_ready _ h]
  by_cases hp : predGet s.me.p p.val = w
  · simp only [hp, bne_self_eq_false, Bool.false_eq_true, if_false, if_true]
  · simp only [bne_iff_ne, ne_eq, hp, not_false_eq_true, if_true, if_false]

/-- Settles O10. -/
theorem controlTransfers : Obligations.ControlTransfers := by
  unfold Obligations.ControlTransfers
  intro s a t p w
  simp only [← branchTarget_eq]
  exact ⟨s.here.targetOk_iff, Tile.wordAt_of_no_firmware, ⟨execB_jumps t, execBc_eq p w t, execCall_jumps t⟩,
    ⟨execCallr_jumps a, execJmpr_jumps a⟩, execRet_jumps⟩

/-! ### Waiting (04 R94, R106, 18 R439) -/

/-- A mask over the numbers below `n`, each of whose bits asks for `q`. -/
theorem all_masked_iff (n : Nat) (p q : Nat → Bool) :
    ((List.range n).all fun k => !p k || q k) = true ↔ ∀ k < n, p k = true → q k = true := by
  simp only [List.all_eq_true, List.mem_range, Bool.or_eq_true, Bool.not_eq_true', ← Bool.not_eq_true, ← imp_iff_not_or]

section
variable {s : State}

theorem execWaitk_passes {m : BitVec 8} (h : ∀ n < 8, m.getLsbD n = true → (vget s.me.k n).full = true) (hi : s.me.ready [] Order.none = true) :
    execWaitk m s = .next (s.modMe Strand.next) :=
  (if_pos ((all_masked_iff 8 _ _).2 h)).trans (issueAlu_ready _ hi)

theorem execWaitk_waits {m : BitVec 8} (h : ∃ n < 8, m.getLsbD n = true ∧ (vget s.me.k n).full = false) : execWaitk m s = .next s := by
  obtain ⟨n, hn, hm, hf⟩ := h
  exact if_neg fun hall => Bool.false_ne_true (hf.symm.trans ((all_masked_iff 8 _ _).1 hall n hn hm))

theorem execSbwait_passes {q : BitVec 7} (h : ∀ n < 7, q.getLsbD n = true → vget s.me.sb (n + 1) = 0) (hi : s.me.ready [] Order.none = true) :
    execSbwait q s = .next (s.modMe Strand.next) :=
  (if_pos ((all_masked_iff 7 _ _).2 fun n hn hq => beq_iff_eq.2 (h n hn hq))).trans (issueAlu_ready _ hi)

theorem execSbwait_waits {q : BitVec 7} (h : ∃ n < 7, q.getLsbD n = true ∧ vget s.me.sb (n + 1) ≠ 0) : execSbwait q s = .next s := by
  obtain ⟨n, hn, hq, hs⟩ := h
  exact if_neg fun hall => hs (beq_iff_eq.1 ((all_masked_iff 7 _ _).1 hall n hn hq))

end

/-- The c-cycle of a tile: its count is one higher and the strand that the count named has the move (04 R81). -/
def State.cCycle (s : State) (d q : Nat) : State :=
  { s.modTile (d % 8) (q % 144) (fun t => { t with cycle := ((s.tile (d % 8) (q % 144)).cycle + 1) % 4 }) with
    cur := ⟨d % 8, q % 144, (s.tile (d % 8) (q % 144)).cycle % 4, 0, 0⟩ }

section
variable {s : State} {d q : Nat} (hi : (s.cCycle d q).strandsIssue (d % 8) (q % 144) = true) (hr : (s.cCycle d q).me.run = .run)
  (hs : (s.cCycle d q).me.stall = false)
include hi hr hs

/-- The slot of a strand that may issue: a strand that yielded clears its mark, any other fetches (04 R81, R106). -/
theorem strandMove_eq :
    s.strandMove d q =
      if (s.cCycle d q).me.yielded then .idle ((s.cCycle d q).modMe fun x => { x with yielded := false })
      else match (s.cCycle d q).fetch with
        | .fault => .run .fetchFault (s.cCycle d q)
        | .ill detail w => .idle ((s.cCycle d q).trapMe 1 detail w)
        | .instr i => .run i (s.cCycle d q) := by
  refine (if_neg ?_).trans rfl
  show ¬(!(s.cCycle d q).strandsIssue (d % 8) (q % 144) || (s.cCycle d q).me.run != .run || (s.cCycle d q).me.stall) = true
  rw [hi, hr, hs]
  decide

theorem strandMove_of_yielded (hy : (s.cCycle d q).me.yielded = true) :
    s.strandMove d q = .idle ((s.cCycle d q).modMe fun x => { x with yielded := false }) :=
  (strandMove_eq hi hr hs).trans (if_pos hy)

end

/-- Settles O11. -/
theorem waitingInstructions : Obligations.WaitingInstructions := by
  unfold Obligations.WaitingInstructions
  intro s m q
  exact ⟨execWaitk_passes, execWaitk_waits, execSbwait_passes, execSbwait_waits, issueAlu_ready _, fun _ _ => strandMove_of_yielded⟩

/-! ### Strands (04 R105, R106) -/

section
variable {s : State} {a : Reg} {regs : List Reg} (f : State → Nat → State) (hi : s.me.ready regs Order.none = true)
include hi

theorem issue_onStrand_of_le (h : (s.me.rd a).toNat ≤ 3) :
    issue s regs Order.none (fun s => s.onStrand a (f s)) = .next (f s (s.me.rd a).toNat) :=
  (issue_ready _ hi).trans (congrArg _ (if_pos h))
theorem issue_onStrand_of_gt (h : 3 < (s.me.rd a).toNat) :
    issue s regs Order.none (fun s => s.onStrand a (f s)) = .next (s.trapMe 1 5 (s.me.rd a)) :=
  (issue_ready _ hi).trans (congrArg _ (if_neg (Nat.not_le.2 h)))

end

/-- SLEEP passes itself whether or not the wake bit is set. -/
theorem execSleep_eq {s : State} (h : s.me.ready [] Order.none = true) :
    execSleep s = .next (s.modMe fun t =>
      if t.wake then { t with wake := false, pc := t.pc + 4 } else { t with run := .sleep, pc := t.pc + 4 }) := by
  rw [execSleep, issueAlu_ready _ h]
  congr 2
  funext t
  split <;> rfl

theorem execHalt_ends {s : State} (h : s.me.ready [] Order.none = true) :
    execHalt s = .next ((s.modMe fun t => { t.next with run := .halted }).checkHalted s.cur.die s.cur.site) := issue_ready _ h

section
variable {s : State} {a : Reg}

theorem execStrgo_starts (b : Reg) (hi : s.me.ready [a, b] Order.none = true) (hn : (s.me.rd a).toNat ≤ 3) :
    let s1 := s.modMe Strand.next
    execStrgo a b s = .next (if (s1.here.strand (s.me.rd a).toNat).run = .halted
      then s1.modStrand s.cur.die s.cur.site (s.me.rd a).toNat fun x => { x with run := .run, pc := s.me.rd b } else s1) := by
  simp only [execStrgo, issue_onStrand_of_le _ hi hn, beq_iff_eq, State.modMe_cur]

variable (hi : s.me.ready [a] Order.none = true)
include hi

theorem execStrhlt_halts (hn : (s.me.rd a).toNat ≤ 3) :
    let s1 := s.modMe Strand.next
    let x := s1.here.strand (s.me.rd a).toNat
    execStrhlt a s = .next ((if x.run = .run ∨ x.run = .sleep
      then s1.modStrand s.cur.die s.cur.site (s.me.rd a).toNat fun x => { x with run := .halted } else s1).checkHalted s.cur.die s.cur.site) := by
  simp only [execStrhlt, issue_onStrand_of_le _ hi hn, Bool.or_eq_true, beq_iff_eq, apply_ite State.cur, State.modStrand_cur, State.modMe_cur,
    ite_self]

theorem execWake_wakes (hn : (s.me.rd a).toNat ≤ 3) :
    execWake a s = .next ((s.modMe Strand.next).modStrand s.cur.die s.cur.site (s.me.rd a).toNat fun x =>
      if x.run = .sleep then { x with run := .run } else { x with wake := true }) := by
  simp only [execWake, issue_onStrand_of_le _ hi hn, beq_iff_eq]

end

/-- Settles O12: each instruction with a strand number that exists, then with one that does not. -/
theorem strandControl : Obligations.StrandControl := by
  unfold Obligations.StrandControl
  intro s a b
  refine ⟨execStrgo_starts b, execStrhlt_halts, execWake_wakes, execSleep_eq, execHalt_ends, fun hi hn => ?strgo, fun hi hn => ?others⟩
  case strgo =>
    show execStrgo a b s = _
    exact issue_onStrand_of_gt _ hi hn
  case others =>
    show execStrhlt a s = _ ∧ execWake a s = _
    exact ⟨issue_onStrand_of_gt _ hi hn, issue_onStrand_of_gt _ hi hn⟩

end Sys2Proof.Machine
end

section
/-! PROOFS. The control processor (spec 04): fetch faults, the system registers and the launch of an access. -/
namespace Sys2Proof.Machine

/-! ### Fetch faults (04 R95, R96, 11 R257) -/

section
variable {s : State} (hr : s.me.run = .run) (hs : s.me.stall = false)
include hr hs

/-- The checks of a fetch by a strand in RUN, in their order. -/
theorem execFetchFault_eq :
    execFetchFault s =
      let next := s.me.pc + 4
      let trap := fun (c : Report) => s.takeTrap s.cur.die s.cur.site s.cur.strand c false
      if s.here.targetOk s.me.pc = false then .next (s.trapMe 2 0 s.me.pc)
      else if (s.here.codeWord s.me.pc.toNat).psn = true then .next (s.trapMe 8 2 s.me.pc)
      else if bits (s.here.codeWord s.me.pc.toNat).bits.toNat 25 7 ≠ 0x22 then .next s
      else if s.here.codeLen ≤ next.toNat then .next (trap ⟨2, 0, next⟩ next)
      else if (s.here.codeWord next.toNat).psn = true then .next (trap ⟨8, 2, next⟩ s.me.pc)
      else .next s := by
  simp only [execFetchFault, hr, hs, bne_self_eq_false, Bool.or_self, Bool.false_eq_true, if_false, Bool.not_eq_true']

theorem execFetchFault_bad_target (ht : s.here.targetOk s.me.pc = false) : execFetchFault s = .next (s.trapMe 2 0 s.me.pc) := by
  rw [execFetchFault_eq hr hs]
  exact if_pos ht

variable (ht : s.here.targetOk s.me.pc = true)
include ht

theorem execFetchFault_poison (hw : (s.here.codeWord s.me.pc.toNat).psn = true) : execFetchFault s = .next (s.trapMe 8 2 s.me.pc) := by
  simp only [execFetchFault_eq hr hs, ht, Bool.true_eq_false, if_false, if_pos hw]

variable (hw : (s.here.codeWord s.me.pc.toNat).psn = false)
include hw

theorem execFetchFault_no_second_word (hl : bits (s.here.codeWord s.me.pc.toNat).bits.toNat 25 7 ≠ 0x22) : execFetchFault s = .next s := by
  simp only [execFetchFault_eq hr hs, ht, hw, Bool.true_eq_false, Bool.false_eq_true, if_false, if_pos hl]

variable (hl : bits (s.here.codeWord s.me.pc.toNat).bits.toNat 25 7 = 0x22)
include hl

theorem execFetchFault_past_the_end (hn : s.here.codeLen ≤ (s.me.pc + 4).toNat) :
    execFetchFault s = .next (s.takeTrap s.cur.die s.cur.site s.cur.strand ⟨2, 0, s.me.pc + 4⟩ false (s.me.pc + 4)) := by
  simp only [execFetchFault_eq hr hs, ht, hw, hl, ne_eq, not_true_eq_false, Bool.true_eq_false, Bool.false_eq_true, if_false, if_pos hn]

theorem execFetchFault_poisoned_second_word (hn : (s.me.pc + 4).toNat < s.here.codeLen)
    (hp : (s.here.codeWord (s.me.pc + 4).toNat).psn = true) :
    execFetchFault s = .next (s.takeTrap s.cur.die s.cur.site s.cur.strand ⟨8, 2, s.me.pc + 4⟩ false s.me.pc) := by
  simp only [execFetchFault_eq hr hs, ht, hw, hl, ne_eq, not_true_eq_false, Bool.true_eq_false, Bool.false_eq_true, if_false,
    if_neg (Nat.not_le.2 hn), if_pos hp]

end

/-- Settles O18. -/
theorem fetchFaults : Obligations.FetchFaults := by
  unfold Obligations.FetchFaults
  exact fun _ hr hs => ⟨execFetchFault_bad_target hr hs, execFetchFault_poison hr hs, execFetchFault_past_the_end hr hs,
    execFetchFault_poisoned_second_word hr hs, execFetchFault_no_second_word hr hs⟩

/-! ### A second write of the same tile or strand -/

theorem tput_tput {α : Type} (t : Tbl α) (i : Nat) (v w : α) : tput (tput t i v) i w = tput t i w := by
  induction t with
  | nil => simp only [tput, Nat.lt_irrefl, if_false, if_true]
  | cons e t ih =>
    obtain ⟨k, x⟩ := e
    rcases Nat.lt_trichotomy i k with h | h | h
    · simp only [tput, if_pos h, Nat.lt_irrefl, if_false, if_true]
    · simp only [tput, h, Nat.lt_irrefl, if_false, if_true]
    · simp only [tput, if_neg (Nat.lt_asymm h), if_neg (Nat.ne_of_gt h), ih]

theorem Tile.setStrand_setStrand (t : Tile) (n : Nat) (x y : Strand) : (t.setStrand n x).setStrand n y = t.setStrand n y := by
  simp only [Tile.setStrand, vset, Vector.set_set]

section
variable (s : State)

theorem State.modTile_modTile (d n : Nat) (f g : Tile → Tile) : (s.modTile d n f).modTile d n g = s.modTile d n fun t => g (f t) := by
  rw [State.modTile, State.tile_modTile_self]
  simp only [State.setTile, State.modTile, tput_tput]

/-- A write of the tile that has the move, seen by a following change of its strand. -/
theorem State.modHere_modMe (f : Tile → Tile) (g : Strand → Strand) :
    (s.modHere f).modMe g = s.modHere fun t => (f t).setStrand s.cur.strand (g ((f t).strand s.cur.strand)) :=
  s.modTile_modTile s.cur.die s.cur.site f fun t => t.setStrand s.cur.strand (g (t.strand s.cur.strand))

/-- Two changes of the strand that has the move are one. -/
theorem State.modMe_modMe (f g : Strand → Strand) : (s.modMe f).modMe g = s.modMe fun x => g (f x) := by
  refine (s.modHere_modMe _ g).trans ?_
  simp only [Tile.strand_setStrand_self, Tile.setStrand_setStrand]
  rfl

end

/-! ### System registers (04 R97 to R104, 18 R424) -/

theorem flagCode_eq_toNat (b : Bool) : flagCode b = b.toNat := by cases b <;> rfl

/-- SBST as a sum of its seven counts (04 R102). -/
theorem Strand.sbst_eq_sum (t : Strand) :
    t.sbst = BitVec.ofNat 64 ((List.range 7).map fun k => vget t.sb (k + 1) % 64 * 2 ^ (6 * k)).sum := by
  rw [Strand.sbst, List.sum_eq_foldl, List.foldl_map]

theorem Strand.statusWord_eq (t : Strand) (n : Nat) :
    t.statusWord n =
      BitVec.ofNat 64 (t.prv.toNat * 128 + t.intrap.toNat * 64 + t.imp.toNat * 32 + t.barbrk.toNat * 16 + n % 4) := by
  simp only [Strand.statusWord, flagCode_eq_toNat]

theorem woffWord_eq (w : BitVec 15) : woffWord w = BitVec.ofNat 64 (w.toNat * 4) := rfl

theorem ofNat_div_four (v : Word) : BitVec.ofNat 15 (v.toNat / 4) = v.extractLsb' 2 15 := by
  rw [BitVec.extractLsb', Nat.shiftRight_eq_div_pow]

/-- The word of SWR in the fields of format I (14 R297). -/
theorem encode_swr (a : Reg) (r : SysReg) : encode (.swr a r) = formatI 0x7D 0 a.val r.code := by
  show 4194304000 + a.val * 32768 + r.code = _
  unfold formatI
  omega

theorem execSrd_reads {s : State} {d : Reg} {r : SysReg} {v : Word} (hi : s.me.ready [d] Order.none = true)
    (h : s.here.sysRead s.cur.strand r = v) : execSrd d r s = .next (s.modMe fun t => { t.wr d v with pc := t.pc + 4 }) := by
  simp only [← Strand.wr_next, ← h]
  exact issueAlu_ready _ hi

section
variable {s : State} {a : Reg} {r : SysReg} (hi : s.me.ready [a] Order.none = true)
include hi

theorem execSwr_done {t : Tile} (h : s.here.sysWrite s.cur.strand r (s.me.rd a) = .done t) :
    execSwr a r s = .next ((s.modHere fun _ => t).modMe Strand.next) := by
  rw [execSwr, issue_ready _ hi]
  simp only [h]

theorem execSwr_priv (h : s.here.sysWrite s.cur.strand r (s.me.rd a) = .priv) : execSwr a r s = .next (s.trapMe 3 (sysIndex r) 0) := by
  rw [execSwr, issue_ready _ hi]
  simp only [h]

theorem execSwr_ill (h : s.here.sysWrite s.cur.strand r (s.me.rd a) = .ill) :
    execSwr a r s = .next (s.trapMe 1 5 (BitVec.ofNat 64 (formatI 0x7D 0 a.val r.code))) := by
  rw [execSwr, issue_ready _ hi]
  simp only [h, State.illOperand, encode_swr]

/-- A write of a register that the strand holds. -/
theorem execSwr_strand (f : Strand → Strand) (h : s.here.sysWrite s.cur.strand r (s.me.rd a) = .done (s.here.setStrand s.cur.strand (f s.me))) :
    execSwr a r s = .next (s.modMe fun t => (f t).next) := by
  rw [execSwr_done hi h]
  exact congrArg _ (s.modMe_modMe f Strand.next)

/-- A write that keeps the register's value. -/
theorem execSwr_nothing (h : s.here.sysWrite s.cur.strand r (s.me.rd a) = .done s.here) : execSwr a r s = .next (s.modMe Strand.next) := by
  rw [execSwr_done hi h]
  exact congrArg _ (s.modHere_modMe (fun t => t) Strand.next)

/-- A write of a register that the tile holds. -/
theorem execSwr_tile (f : Tile → Tile) (h : s.here.sysWrite s.cur.strand r (s.me.rd a) = .done (f s.here)) :
    execSwr a r s = .next ((s.modHere f).modMe Strand.next) :=
  execSwr_done hi h

end

section
variable (t : Tile) (n : Nat) (v : Word)

theorem sysWrite_epc : t.sysWrite n .epc v = .done (t.setStrand n { t.strand n with epc := v.extractLsb' 2 15 }) := by
  rw [← ofNat_div_four]
  rfl
theorem sysWrite_tvec : t.sysWrite n .tvec v = .done (t.setStrand n { t.strand n with tvec := v.extractLsb' 2 15 }) := by
  rw [← ofNat_div_four]
  rfl

theorem mod_eight_eq_bits : bits v.toNat 0 3 = v.toNat % 8 := by
  show v.toNat / 1 % 8 = v.toNat % 8
  rw [Nat.div_one]

theorem sysWrite_rndm (h : v.toNat % 8 ≤ 3) : t.sysWrite n .rndm v = .done { t with rnd := v.setWidth 3 } := by
  rw [← BitVec.ofNat_toNat]
  exact if_neg (Nat.not_lt.2 ((mod_eight_eq_bits v).symm ▸ h))

theorem sysWrite_rndm_reserved (h : 3 < v.toNat % 8) : t.sysWrite n .rndm v = .ill :=
  if_pos ((mod_eight_eq_bits v).symm ▸ h)

end

/-- Settles O19: SRD register by register, then SWR register by register. -/
theorem systemRegisters : Obligations.SystemRegisters := by
  unfold Obligations.SystemRegisters
  refine ⟨fun s d r hi => ?read, fun s a hi => ?write⟩
  case read =>
    refine execSrd_reads hi ?_
    cases r with
    | status => exact s.me.statusWord_eq s.cur.strand
    | sbst => exact s.me.sbst_eq_sum
    | zscf => exact congrArg (BitVec.ofNat 64) (flagCode_eq_toNat s.here.zsc)
    | satf => exact congrArg (BitVec.ofNat 64) (flagCode_eq_toNat s.here.sat)
    | eval | wid | widw | rgnb => exact ((BitVec.ofNat_toNat 64 _).trans (BitVec.setWidth_eq _)).symm
    | cause | epc | tvec | genr | part | gkey | rndm => rfl
  case write =>
    refine ⟨execSwr_strand (r := .status) hi (fun t => { t with barbrk := t.barbrk && !(s.me.rd a).getLsbD 4 }) rfl,
      execSwr_nothing (r := .cause) hi rfl, execSwr_nothing (r := .sbst) hi rfl,
      execSwr_strand (r := .epc) hi (fun t => { t with epc := (s.me.rd a).extractLsb' 2 15 }) (sysWrite_epc _ _ _),
      execSwr_strand (r := .tvec) hi (fun t => { t with tvec := (s.me.rd a).extractLsb' 2 15 }) (sysWrite_tvec _ _ _),
      execSwr_strand (r := .eval) hi (fun t => { t with eval := s.me.rd a }) rfl,
      execSwr_strand (r := .wid) hi (fun t => { t with wid := s.me.rd a }) rfl,
      execSwr_tile (r := .zscf) hi (fun t => { t with zsc := (s.me.rd a).getLsbD 0 }) rfl,
      execSwr_tile (r := .satf) hi (fun t => { t with sat := (s.me.rd a).getLsbD 0 }) rfl,
      fun hv => execSwr_tile (r := .rndm) hi (fun t => { t with rnd := (s.me.rd a).setWidth 3 }) (sysWrite_rndm _ _ _ hv),
      fun hv => execSwr_ill (r := .rndm) hi (sysWrite_rndm_reserved _ _ _ hv),
      execSwr_priv (r := .widw) hi rfl, execSwr_priv (r := .rgnb) hi rfl, execSwr_priv (r := .genr) hi rfl,
      execSwr_priv (r := .part) hi rfl, execSwr_priv (r := .gkey) hi rfl⟩

/-! ### The launch of an access (04 R83, R91) -/

section
variable (t : Strand) (r : Reg) (n : Nat)

@[simp] theorem Strand.mark_x : (t.mark r).x = t.x := by unfold Strand.mark; split <;> rfl
@[simp] theorem Strand.mark_p : (t.mark r).p = t.p := by unfold Strand.mark; split <;> rfl
@[simp] theorem Strand.mark_sb : (t.mark r).sb = t.sb := by unfold Strand.mark; split <;> rfl
@[simp] theorem Strand.mark_acquires : (t.mark r).acquires = t.acquires := by unfold Strand.mark; split <;> rfl
@[simp] theorem Strand.raise_p : (t.raise n).p = t.p := by unfold Strand.raise; split <;> rfl
@[simp] theorem Strand.raise_busy : (t.raise n).busy = t.busy := by unfold Strand.raise; split <;> rfl
@[simp] theorem Strand.raise_acquires : (t.raise n).acquires = t.acquires := by unfold Strand.raise; split <;> rfl
/-- How far a slot rises depends on nothing but its counts. -/
theorem Strand.raise_sb_congr {t u : Strand} (h : t.sb = u.sb) (n : Nat) : (t.raise n).sb = (u.raise n).sb := by
  unfold Strand.raise; split <;> simp only [h]

end

section
variable (t : Strand) (a : Access)

/-- The strand's share of an issued access, field by field. -/
theorem Strand.issued_eq :
    t.issued a = { ((t.mark a.dst).mark a.dst2).raise a.slot with pc := t.pc + 4, acquires := t.acquires + if a.acquires then 1 else 0 } := by
  unfold Strand.issued
  split <;> simp [Strand.next, *]

@[simp] theorem Strand.issued_pc : (t.issued a).pc = t.pc + 4 := by rw [Strand.issued_eq]
@[simp] theorem Strand.issued_busy : (t.issued a).busy = ((t.mark a.dst).mark a.dst2).busy := by rw [Strand.issued_eq, Strand.raise_busy]
@[simp] theorem Strand.issued_sb : (t.issued a).sb = (t.raise a.slot).sb := by
  rw [Strand.issued_eq]
  exact Strand.raise_sb_congr (by rw [Strand.mark_sb, Strand.mark_sb]) _
@[simp] theorem Strand.issued_acquires : (t.issued a).acquires = t.acquires + if a.acquires then 1 else 0 := by rw [Strand.issued_eq]
@[simp] theorem Strand.issued_x : (t.issued a).x = t.x := by simp only [Strand.issued_eq, Strand.raise_x, Strand.mark_x]
@[simp] theorem Strand.issued_p : (t.issued a).p = t.p := by simp only [Strand.issued_eq, Strand.raise_p, Strand.mark_p]

end

/-- The strand that has the move has issued a launched access. -/
@[simp] theorem State.me_launch (s : State) (a : Access) : (s.launch a).me = s.me.issued a :=
  State.me_modMe { s with nextId := s.nextId + 1 } fun t => t.issued a

theorem State.tile_launch_of_ne (s : State) (a : Access) {e q : Nat} (h : tileKey e q ≠ tileKey s.cur.die s.cur.site) :
    (s.launch a).tile e q = s.tile e q := by
  show (State.modMe { s with nextId := s.nextId + 1 } fun t => t.issued a).tile e q = _
  rw [State.modMe, State.tile_modStrand, if_neg h]
  rfl

/-- Settles O21. -/
theorem launchedAccess : Obligations.LaunchedAccess := by
  unfold Obligations.LaunchedAccess
  intro s a
  simp only [State.me_launch, Strand.issued_pc, Strand.issued_busy, Strand.issued_sb, Strand.issued_acquires, Strand.issued_x, Strand.issued_p,
    true_and]
  exact ⟨rfl, rfl, rfl, rfl, rfl, rfl, rfl, rfl, fun _ _ => s.tile_launch_of_ne a, fun _ _ _ _ => ⟨rfl, rfl, rfl, rfl, rfl, rfl, rfl, rfl⟩⟩

end Sys2Proof.Machine
end

section
/-! PROOFS. The control processor (spec 04): messages between strands, from SEND to the channel register. -/
namespace Sys2Proof.Machine

/-! ### SEND (04 R87, R88) -/

section
variable (s : State) (a : Reg)

/-- The site that a SEND's header names. -/
def State.sendSite : Nat := s.here.siteAt (bits (s.me.rd a).toNat 0 4) (bits (s.me.rd a).toNat 4 4)
/-- The request of the strand that has the move, as the tile that it asks keeps it. -/
def State.myRequest : Nat × Nat × Nat := (s.cur.site, s.cur.strand, s.me.pc.toNat)
/-- The message of a SEND whose payload is in `b`. -/
def State.sendMsg (b : Reg) (o : Order) : Message :=
  ⟨s.cur.die, s.sendSite a, bits (s.me.rd a).toNat 8 2, bits (s.me.rd a).toNat 10 3, s.me.rd b, false, s.cur.site, s.cur.strand, s.here.gen,
    o.set.val⟩

theorem withRequest_eq (site : Nat) :
    s.withRequest site = if s.myRequest ∈ s.sendRequests s.cur.die site then s.sendRequests s.cur.die site
      else s.sendRequests s.cur.die site ++ [s.myRequest] :=
  if_congr List.contains_iff_mem rfl rfl

theorem granted_iff (site : Nat) : s.granted site = true ↔ s.myRequest ∈ (s.withRequest site).take (s.tile s.cur.die site).credits :=
  List.contains_iff_mem

end

/-- The word of SEND in the fields of format A (14 R296). -/
theorem encode_send (a b : Reg) (o : Order) : encode (.send a b o) = formatA 0x4C 0 a.val b.val 0 o.code := by
  show 2550136832 + a.val * 32768 + b.val * 1024 + o.code = _
  unfold formatA
  omega

theorem inRegion_iff (t : Tile) (x y : Nat) : t.inRegion x y = true ↔ x < t.regionW ∧ y < t.regionH := by
  simp only [Tile.inRegion, Bool.and_eq_true, decide_eq_true_iff]

section
variable {s : State} {a : Reg} (b : Reg) {o : Order}

theorem execSend_not_ready (hi : s.me.ready [a, b] o = false) : execSend a b o s = .next s := by
  simp only [execSend, issue_not_ready _ hi, ite_self]

variable (hi : s.me.ready [a, b] o = true)
include hi

theorem execSend_reserved (hb : bits (s.me.rd a).toNat 13 51 ≠ 0) :
    execSend a b o s = .next (s.trapMe 1 5 (BitVec.ofNat 64 (formatA 0x4C 0 a.val b.val 0 o.code))) := by
  simp only [execSend, if_pos hb, issue_ready _ hi, State.illOperand, encode_send]

variable (hb : bits (s.me.rd a).toNat 13 51 = 0)
include hb

theorem execSend_outside (hin : s.here.inRegion (bits (s.me.rd a).toNat 0 4) (bits (s.me.rd a).toNat 4 4) = false) :
    execSend a b o s = .next (s.trapMe 6 0x10 (s.me.rd a)) := by
  simp only [execSend, hb, hin, ne_eq, not_true_eq_false, if_false, Bool.not_false, if_true, issue_ready _ hi]

variable (hin : s.here.inRegion (bits (s.me.rd a).toNat 0 4) (bits (s.me.rd a).toNat 4 4) = true)
include hin

/-- A SEND with a good header does what the grant of a credit says. -/
theorem execSend_inside :
    execSend a b o s = .next (
      if s.granted (s.sendSite a) = true then
        { (s.modMe fun t => (t.raise o.set.val).next).modTile s.cur.die (s.sendSite a)
            (fun t => { t with credits := t.credits - 1, requests := (s.withRequest (s.sendSite a)).filter fun e => e != s.myRequest }) with
          messages := s.messages ++ [s.sendMsg a b o] }
      else s.modTile s.cur.die (s.sendSite a) fun t => { t with requests := s.withRequest (s.sendSite a) }) := by
  simp only [execSend, hb, hin, ne_eq, not_true_eq_false, if_false, Bool.not_true, Bool.false_eq_true, issue_ready _ hi]
  cases hg : s.granted (s.sendSite a) with
  | true =>
    rw [State.sendSite] at hg
    simp only [hg, Bool.not_true, Bool.false_eq_true, if_false, if_true]
    rfl
  | false =>
    rw [State.sendSite] at hg
    simp only [hg, Bool.not_false, if_true, Bool.false_eq_true, if_false]
    rfl

theorem execSend_granted {q : List (Nat × Nat × Nat)} (hq : s.withRequest (s.sendSite a) = q)
    (hg : s.myRequest ∈ q.take (s.tile s.cur.die (s.sendSite a)).credits) :
    execSend a b o s = .next
      { (s.modMe fun t => (t.raise o.set.val).next).modTile s.cur.die (s.sendSite a)
          (fun t => { t with credits := t.credits - 1, requests := q.filter fun e => e != s.myRequest }) with
        messages := s.messages ++ [s.sendMsg a b o] } := by
  subst hq
  rw [execSend_inside b hi hb hin, if_pos ((granted_iff s _).2 hg)]

theorem execSend_asks {q : List (Nat × Nat × Nat)} (hq : s.withRequest (s.sendSite a) = q)
    (hg : s.myRequest ∉ q.take (s.tile s.cur.die (s.sendSite a)).credits) :
    execSend a b o s = .next (s.modTile s.cur.die (s.sendSite a) fun t => { t with requests := q }) := by
  subst hq
  rw [execSend_inside b hi hb hin, if_neg (mt (granted_iff s _).1 hg)]

end

/-- Settles O14. -/
theorem messagesAreSent : Obligations.MessagesAreSent := by
  unfold Obligations.MessagesAreSent
  intro s a b o h site inside me asked queue free
  have hq : s.withRequest (s.sendSite a) = queue := withRequest_eq s (s.sendSite a)
  have hin : s.here.inRegion (bits h 0 4) (bits h 4 4) = true ↔ inside := inRegion_iff _ _ _
  simp only [Strand.raise_next]
  exact ⟨fun hi hb hx => execSend_granted b hi hb (hin.2 hx) hq, fun hi hb hx => execSend_asks b hi hb (hin.2 hx) hq,
    execSend_not_ready b, execSend_reserved b, fun hi hb hx => execSend_outside b hi hb (Bool.not_eq_true _ ▸ mt hin.1 hx)⟩

/-! ### Arrival (04 R86, R88, 10 R253) -/

/-- A message of the same sender to the same channel register, behind which a later one waits. -/
def Message.sameLane (b m : Message) : Prop :=
  b.die = m.die ∧ b.site = m.site ∧ b.strand = m.strand ∧ b.chan = m.chan ∧ b.srcSite = m.srcSite ∧ b.srcStrand = m.srcStrand

section
variable {s : State} {k : Nat} {m : Message} (hm : lget s.messages k = some m) (ho : ∀ b ∈ s.messages.take k, ¬b.sameLane m)
include hm ho

/-- The oldest message of its sender to its register arrives. -/
theorem execArrival_oldest :
    let u : State := { s with messages := ldel s.messages k }
    execContinuationMessageArrival k s =
      if (s.tile m.die m.site).holds m.gen = false then
        .next ((u.countGen m.die).send 20 { Packet.zero with src := m.die, dst := m.die, gen := m.gen, stat := 2 })
      else .next ((u.modTile m.die m.site fun t => t.deliver m).modStrand m.die m.srcSite m.srcStrand fun x => x.lower m.slot) := by
  have hold : ((s.messages.take k).any fun b => b.die == m.die && b.site == m.site && b.strand == m.strand && b.chan == m.chan
      && b.srcSite == m.srcSite && b.srcStrand == m.srcStrand) = false := by
    simpa only [List.any_eq_false, Bool.and_eq_true, beq_iff_eq, and_assoc, Message.sameLane] using ho
  simp only [execContinuationMessageArrival, hm, hold, Bool.false_eq_true, if_false, Bool.not_eq_true']
  rfl

theorem execArrival_delivers (hh : (s.tile m.die m.site).holds m.gen = true) :
    execContinuationMessageArrival k s = .next
      ((({ s with messages := ldel s.messages k } : State).modTile m.die m.site fun t => t.deliver m).modStrand m.die m.srcSite m.srcStrand
        fun x => x.lower m.slot) :=
  (execArrival_oldest hm ho).trans (if_neg (Bool.not_eq_false _ ▸ hh))

theorem execArrival_drops (hh : (s.tile m.die m.site).holds m.gen = false) :
    execContinuationMessageArrival k s = .next ((State.countGen { s with messages := ldel s.messages k } m.die).send 20
      { Packet.zero with src := m.die, dst := m.die, gen := m.gen, stat := 2 }) :=
  (execArrival_oldest hm ho).trans (if_pos hh)

end

/-! ### The channel registers and the buffer behind them (04 R85, R86, R88) -/

/-- No message of a buffer waits for a channel register. -/
def NoneWaits (l : List Message) (n c : Nat) : Prop := ∀ b ∈ l, ¬(b.strand = n ∧ b.chan = c)

theorem any_waits_eq_false_iff (l : List Message) (n c : Nat) : (l.any fun b => b.strand == n && b.chan == c) = false ↔ NoneWaits l n c := by
  simp only [List.any_eq_false, Bool.and_eq_true, beq_iff_eq, NoneWaits]

theorem find_waits_eq_none_iff (l : List Message) (n c : Nat) : l.find? (fun b => b.strand == n && b.chan == c) = none ↔ NoneWaits l n c := by
  simp only [List.find?_eq_none, Bool.and_eq_true, beq_iff_eq, NoneWaits]

section
variable {t : Tile} {m : Message}

/-- The test of `deliver`, as a proposition. -/
theorem enters_iff :
    (!(vget (t.strand m.strand).k m.chan).full && !(t.inbuf.any fun b => b.strand == m.strand && b.chan == m.chan)) = true ↔
      (vget (t.strand m.strand).k m.chan).full = false ∧ NoneWaits t.inbuf m.strand m.chan := by
  rw [Bool.and_eq_true, Bool.not_eq_true', Bool.not_eq_true', any_waits_eq_false_iff]

theorem deliver_enters (h : (vget (t.strand m.strand).k m.chan).full = false ∧ NoneWaits t.inbuf m.strand m.chan) :
    t.deliver m = { t.setStrand m.strand { t.strand m.strand with k := vset (t.strand m.strand).k m.chan ⟨true, m.payload, m.psn⟩ } with
      credits := t.credits + 1 } :=
  if_pos (enters_iff.2 h)

theorem deliver_waits (h : ¬((vget (t.strand m.strand).k m.chan).full = false ∧ NoneWaits t.inbuf m.strand m.chan)) :
    t.deliver m = { t with inbuf := t.inbuf ++ [m] } :=
  if_neg (mt enters_iff.1 h)

variable {n c : Nat}

theorem takeChannel_empties (h : NoneWaits t.inbuf n c) :
    t.takeChannel n c = t.setStrand n { t.strand n with k := vset (t.strand n).k c Channel.zero } := by
  simp only [Tile.takeChannel, (find_waits_eq_none_iff _ _ _).2 h]

/-- The oldest message that waits for the register moves in and leaves the buffer. -/
theorem takeChannel_refills {pre post : List Message} (hq : t.inbuf = pre ++ m :: post) (hpre : NoneWaits pre n c) (hn : m.strand = n)
    (hc : m.chan = c) :
    t.takeChannel n c = { t.setStrand n { t.strand n with k := vset (t.strand n).k c ⟨true, m.payload, m.psn⟩ } with
      inbuf := pre ++ post, credits := t.credits + 1 } := by
  have hfind : t.inbuf.find? (fun b => b.strand == n && b.chan == c) = some m := by
    rw [hq, List.find?_append, (find_waits_eq_none_iff _ _ _).2 hpre, Option.none_or, List.find?_cons_of_pos]
    rw [hn, hc, beq_self_eq_true, beq_self_eq_true]
    rfl
  have herase : t.inbuf.erase m = pre ++ post := by
    rw [hq, List.erase_append_right _ fun hmem => hpre m hmem ⟨hn, hc⟩, List.erase_cons_head]
  simp only [Tile.takeChannel, hfind, herase]

end

/-- A channel register after a write of it. -/
theorem channel_setStrand (t : Tile) (n c : Nat) (x : Channel) :
    vget ((t.setStrand n { t.strand n with k := vset (t.strand n).k c x }).strand n).k c = x := by
  rw [Tile.strand_setStrand_self]
  exact vget_vset_self _ c x

/-! ### MOV from a channel register (04 R85, R86, 17 R384) -/

section
variable {s : State} (d : Reg) {k : Fin 8}

theorem execMovChannel_waits (hf : (vget s.me.k k.val).full = false) : execMovChannel d k s = .next s := by
  simp only [execMovChannel, hf, Bool.not_false, if_true]

variable (hf : (vget s.me.k k.val).full = true)
include hf

theorem execMovChannel_copies (hp : (vget s.me.k k.val).psn = false) (hi : s.me.ready [d] Order.none = true) :
    execMovChannel d k s = .next
      ((s.modMe fun t => (t.wr d (vget s.me.k k.val).payload).next).modHere fun t => t.takeChannel s.cur.strand k.val) := by
  simp only [execMovChannel, hf, hp, Bool.not_true, Bool.false_eq_true, if_false, issue_ready _ hi]

theorem execMovChannel_poisoned (hp : (vget s.me.k k.val).psn = true) (hi : s.me.ready [d] Order.none = true) :
    execMovChannel d k s = .next
      (((s.modMe Strand.next).modHere fun t => t.takeChannel s.cur.strand k.val).report s.cur.die s.cur.site s.cur.strand
        ⟨8, 1, BitVec.ofNat 64 k.val⟩) := by
  simp only [execMovChannel, hf, hp, Bool.not_true, Bool.false_eq_true, if_false, if_true, issue_ready _ hi]
  rfl

end

/-- Settles O15: the arrival, the register that a message enters, the register that is emptied, and MOV. -/
theorem messagesArriveInOrder : Obligations.MessagesArriveInOrder := by
  unfold Obligations.MessagesArriveInOrder
  refine ⟨fun s k m hm hh ho => execArrival_delivers hm ho hh, fun s k m hm hh ho => execArrival_drops hm ho hh,
    fun t m => ⟨fun h => ?enters, deliver_waits⟩, fun t n c => ⟨fun h => ?empties, fun pre m post hq hpre hn hc => ?refills⟩,
    fun s d k => ⟨fun hf hp hi => ?copies, execMovChannel_poisoned d, execMovChannel_waits d⟩⟩
  case enters =>
    rw [deliver_enters h]
    exact ⟨channel_setStrand t _ _ _, rfl, rfl⟩
  case empties =>
    rw [takeChannel_empties h]
    exact ⟨congrArg Channel.full (channel_setStrand t n c Channel.zero), rfl, rfl⟩
  case refills =>
    rw [takeChannel_refills hq hpre hn hc]
    exact ⟨channel_setStrand t _ _ _, rfl, rfl⟩
  case copies =>
    simp only [← Strand.wr_next]
    exact execMovChannel_copies d hf hp hi

end Sys2Proof.Machine
end

section
/-! PROOFS. Steps (spec 04, 05, 08, 13): what each kind of turn moves, and that counting activity changes nothing but the counts. -/
namespace Sys2Proof.Machine

/-! ### The turn at the head of the agenda -/

section
variable {s : State} {x : Turn} {rest : List Turn} (ha : s.agenda = x :: rest)
include ha

theorem turn_of_agenda : s.turn = (x, { s with agenda := rest }) := by
  simp only [State.turn, ha]

theorem step_of_run {i : Instr} {t : State} (h : State.move { s with agenda := rest } x = .run i t) :
    step s = State.metered { s with agenda := rest } x i (exec i t) := by
  simp only [step, turn_of_agenda ha, h]

theorem step_of_idle {t : State} (h : State.move { s with agenda := rest } x = .idle t) :
    step s = .next (State.meter { s with agenda := rest } t x none) := by
  simp only [step, turn_of_agenda ha, h]

end

/-! ### A strand's fetch (04 R95, R96, 14 R293) -/

section
variable {s : State} (ht : s.here.targetOk s.me.pc = true) (hw : (s.here.codeWord s.me.pc.toNat).psn = false)
  (hl : isLi (s.here.codeWord s.me.pc.toNat).bits.toNat = true →
    (s.here.codeWord (s.me.pc.toNat + 4)).psn = false ∧ s.me.pc.toNat + 4 < s.here.codeLen)
include ht hw hl

/-- The test by which a fetch faults fails where the words are there. -/
theorem fetch_finds_words :
    (!s.here.targetOk s.me.pc || (s.here.codeWord s.me.pc.toNat).psn || (isLi (s.here.codeWord s.me.pc.toNat).bits.toNat
      && ((s.here.codeWord (s.me.pc.toNat + 4)).psn || decide (s.here.codeLen ≤ s.me.pc.toNat + 4)))) = false := by
  rw [ht, hw]
  cases h : isLi (s.here.codeWord s.me.pc.toNat).bits.toNat with
  | false => rfl
  | true =>
    obtain ⟨hpsn, hlen⟩ := hl h
    rw [hpsn, decide_eq_false (Nat.not_le.2 hlen)]
    rfl

theorem fetch_of_decode_ok {i : Instr}
    (hd : decode (s.here.codeWord s.me.pc.toNat).bits.toNat (s.here.codeWord (s.me.pc.toNat + 4)).bits.toNat = .ok i) :
    s.fetch = .instr i := by
  simp only [State.fetch, fetch_finds_words ht hw hl, Bool.false_eq_true, if_false, hd]

theorem fetch_of_decode_error {e : DecodeFail}
    (hd : decode (s.here.codeWord s.me.pc.toNat).bits.toNat (s.here.codeWord (s.me.pc.toNat + 4)).bits.toNat = .error e) :
    s.fetch =
      .ill (s.failDetail e (s.here.codeWord s.me.pc.toNat).bits.toNat) ((s.here.codeWord s.me.pc.toNat).bits.setWidth 64) := by
  simp only [State.fetch, fetch_finds_words ht hw hl, Bool.false_eq_true, if_false, hd]

end

/-- Only a word of ENRD that names a register has a DETAIL of its own (13 R290). -/
theorem failDetail_eq_detail (s : State) (e : DecodeFail) {w : Nat} (h : bits w 25 7 ≠ 0x26 ∨ bits w 15 5 = 0) :
    s.failDetail e w = e.detail := by
  refine if_neg fun hc => ?_
  simp only [Bool.and_eq_true, beq_iff_eq, bne_iff_ne] at hc
  obtain ⟨⟨⟨-, hop⟩, hra⟩, -⟩ := hc
  exact h.elim (fun g => g hop) hra

section
variable {s : State} {d q : Nat} (hi : (s.cCycle d q).strandsIssue (d % 8) (q % 144) = true) (hr : (s.cCycle d q).me.run = .run)
  (hs : (s.cCycle d q).me.stall = false) (hy : (s.cCycle d q).me.yielded = false)
include hi hr hs hy

theorem strandMove_of_instr {i : Instr} (hf : (s.cCycle d q).fetch = .instr i) : s.strandMove d q = .run i (s.cCycle d q) := by
  simp only [strandMove_eq hi hr hs, hy, hf, Bool.false_eq_true, if_false]

theorem strandMove_of_ill {detail : Nat} {w : Word} (hf : (s.cCycle d q).fetch = .ill detail w) :
    s.strandMove d q = .idle ((s.cCycle d q).trapMe 1 detail w) := by
  simp only [strandMove_eq hi hr hs, hy, hf, Bool.false_eq_true, if_false]

end

/-! ### The other agents (05 R117, 08 R200, R213) -/

/-- A PE that may fire runs what its firing slot's word decodes to. -/
theorem peMove_fires {s : State} {d q pe k : Nat} {w : BitVec 64} {i : Instr}
    (hm : State.mayFire { s.registerArrivals (d % 8) (q % 144) (pe % 128) with cur := ⟨d % 8, q % 144, 0, pe % 128, 0⟩ }
      (d % 8) (q % 144) (pe % 128) = true)
    (hk : ((State.here { s.registerArrivals (d % 8) (q % 144) (pe % 128) with cur := ⟨d % 8, q % 144, 0, pe % 128, 0⟩ }).pe
      (pe % 128)).firingSlot = some (k, w)) (hw : decodePe w.toNat = some i) :
    s.peMove d q pe = .run i (State.modHere { s.registerArrivals (d % 8) (q % 144) (pe % 128) with cur := ⟨d % 8, q % 144, 0, pe % 128, k⟩ }
      fun t => t.settleRaces .grid) := by
  simp only [State.peMove, hm, hk, hw, Bool.not_true, Bool.false_eq_true, if_false]

section
variable {s : State} {k : Nat} {p : NetPacket} (hp : lget s.net k = some p) (hs : s.stays p = false) (hn : p.node = p.p.dst)
include hp hs hn

/-- A packet that has room and stands at its destination is taken there. -/
theorem packetMove_of_arrived : s.packetMove k = State.deliverPacket { s with net := ldel s.net k } p := by
  simp only [State.packetMove, hp, hs, hn, ne_eq, not_true_eq_false, Bool.false_eq_true, if_false]

end

section
variable {s : State} {p : NetPacket} (hl : s.dieState p.p.dst < 2)
include hl

theorem deliverPacket_decrement (hd : p.p.dst < 8) (hm : p.p.malformed p.reserved = false) (ho : p.opc = 0x12) :
    s.deliverPacket p = .run (decodeDecr p.p p.w0 p.w1) s := by
  have hlive : ¬(p.p.dst < 8 ∧ 2 ≤ s.dieState p.p.dst) := fun h => Nat.not_le.2 hl h.2
  have hdecr : p.opc = opcDecr ∧ (!p.p.malformed p.reserved) = true ∧ p.p.dst < 8 := ⟨ho, by rw [hm]; rfl, hd⟩
  rw [State.deliverPacket, if_neg hlive, if_pos hdecr]

theorem deliverPacket_row (h16 : p.opc ≠ 16) (ho : p.opc ≠ 0x12) : s.deliverPacket p = .run (decodePacket p.opc p.reserved p.p) s := by
  have hlive : ¬(p.p.dst < 8 ∧ 2 ≤ s.dieState p.p.dst) := fun h => Nat.not_le.2 hl h.2
  rw [State.deliverPacket, if_neg hlive, if_neg fun h => ho h.1, if_neg fun h => h16 h.1]

end

theorem move_event (s : State) {i : Instr} (h : isEvent i = true) : s.move (.event i) = .run i s := if_pos h

/-! ### Counting activity (13 R285) -/

/-- One state is another but for the counts of activity. -/
def State.Counted (t u : State) : Prop := ∃ a, u = t.modPlinth fun p => { p with activity := a }

section
variable {t u : State}

theorem State.Counted.refl (t : State) : t.Counted t := ⟨t.plinth.activity, rfl⟩

theorem State.Counted.count (h : t.Counted u) (node acct : Nat) (c : Activity) (n : Nat) : t.Counted (u.count node acct c n) := by
  obtain ⟨a, rfl⟩ := h
  unfold State.count
  split
  · exact ⟨a, rfl⟩
  · exact ⟨_, rfl⟩

theorem State.Counted.over {α : Type} {f : α → State → State} (hf : ∀ x u, t.Counted u → t.Counted (f x u)) (l : List α)
    (h : t.Counted u) :
    t.Counted (u.over l f) := by
  induction l generalizing u with
  | nil => exact h
  | cons x l ih => exact ih (hf x u h)

end

section
variable (s t : State)

theorem meterStrand_counted (i : Option Instr) : t.Counted (s.meterStrand t i) :=
  ((State.Counted.refl t).count _ _ _ _).count _ _ _ _

theorem meterPe_counted (i : Option Instr) : t.Counted (s.meterPe t i) := by
  unfold State.meterPe
  dsimp only
  split
  · exact .refl t
  · exact ((State.Counted.refl t).count _ _ _ _).count _ _ _ _

theorem meterEngine_counted (d site : Nat) : t.Counted (s.meterEngine t d site) :=
  (State.Counted.over (fun _ _ h => (h.count _ _ _ _).count _ _ _ _) _ (.refl t)).count _ _ _ _

theorem meterPacket_counted (k : Nat) : t.Counted (s.meterPacket t k) := by
  unfold State.meterPacket
  split
  · exact .refl t
  · refine State.Counted.over (fun _ _ h => h.count _ _ _ _) _ (.count (.count ?_ _ _ _ _) _ _ _ _)
    split
    · exact (State.Counted.refl t).count _ _ _ _
    · exact .refl t

theorem meterImage_counted (d part : Nat) (slots homes : List Nat) : t.Counted (t.meterImage d part slots homes) :=
  State.Counted.over (fun _ _ h => (h.count _ _ _ _).count _ _ _ _) _ (((State.Counted.refl t).count _ _ _ _).count _ _ _ _)

theorem meterTask_counted (die rec : Nat) (save : Bool) : t.Counted (s.meterTask t die rec save) := by
  unfold State.meterTask
  split
  · dsimp only
    split
    · exact meterImage_counted t _ _ _ _
    · split
      · exact meterImage_counted t _ _ _ _
      · exact .refl t
  · exact .refl t

theorem meterEvent_counted (i : Instr) : t.Counted (s.meterEvent t i) := by
  have one (node acct : Nat) (c : Activity) (n : Nat) : t.Counted (t.count node acct c n) := (State.Counted.refl t).count _ _ _ _
  unfold State.meterEvent
  split
  next =>  -- an access of a die cache
    split
    · exact one _ _ _ _
    · exact .refl t
  next =>  -- a completed walk
    split
    · exact one _ _ _ _
    · exact .refl t
  next =>  -- a beat of an island: a command that is due, or the beat itself
    dsimp only
    split
    · exact .refl t
    · split
      · split
        · exact one _ _ _ _
        · exact .refl t
      · exact one _ _ _ _
  next =>  -- the start of a latch fill
    dsimp only
    split
    · exact .refl t
    · exact one _ _ _ _
  next => exact meterTask_counted s t _ _ _
  next => exact meterTask_counted s t _ _ _
  next => exact one _ _ _ _
  next => exact .refl t

theorem State.Counted.meterLink {t u : State} (h : t.Counted u) : t.Counted (s.meterLink u) :=
  State.Counted.over (fun _ _ h => h.count _ _ _ _) _ h

/-- Counting the activity of a move changes nothing but the counts. -/
theorem meter_counted (x : Turn) (i : Option Instr) : t.Counted (s.meter t x i) := by
  refine State.Counted.meterLink s ?_
  cases x with
  | strand => exact meterStrand_counted s t i
  | pe => exact meterPe_counted s t i
  | engine => exact meterEngine_counted s t _ _
  | packet k => exact meterPacket_counted s t k
  | bank =>
    dsimp only
    split
    · exact (State.Counted.refl t).count _ _ _ _
    · exact .refl t
  | event i => exact meterEvent_counted s t i
  | permission | command | hostWrite | eventHead | recordRead | records | settle => exact .refl t

theorem metered_next (x : Turn) (i : Instr) : ∃ a, s.metered x i (.next t) = .next (t.modPlinth fun p => { p with activity := a }) := by
  obtain ⟨a, ha⟩ := meter_counted s t x (some i)
  exact ⟨a, congrArg _ ha⟩

end

/-- Settles O57: the turns of a strand, a PE, a packet and an event, then any turn. -/
theorem stepRunsDecodedInstruction : Obligations.StepRunsDecodedInstruction := by
  unfold Obligations.StepRunsDecodedInstruction
  refine ⟨?strand, ?pe, ?packet, ?event, fun _ _ _ _ _ ha h => step_of_run ha h, metered_next⟩
  case strand =>
    intro s d y rest ha n u t pc w w2 hi hr hs hy ht hw hl
    refine ⟨fun i hd => step_of_run ha ?_, fun e hd => ⟨step_of_idle ha ?_, failDetail_eq_detail t e⟩⟩
    · exact strandMove_of_instr hi hr hs hy (fetch_of_decode_ok ht hw hl hd)
    · exact strandMove_of_ill hi hr hs hy (fetch_of_decode_error ht hw hl hd)
  case pe => exact fun _ _ _ _ _ _ _ _ ha hm hk hw => step_of_run ha (peMove_fires hm hk hw)
  case packet =>
    intro s k p rest ha hp u hs hn hd hl hm h16 t
    have harrived : u.move (.packet k) = State.deliverPacket t p := packetMove_of_arrived hp hs hn
    exact ⟨fun ho => step_of_run ha (harrived.trans (deliverPacket_decrement hl hd hm ho)),
      fun ho => step_of_run ha (harrived.trans (deliverPacket_row hl h16 ho))⟩
  case event => exact fun _ _ _ ha hi => step_of_run ha (move_event _ hi)

end Sys2Proof.Machine
end

section
/-! PROOFS. Encodings beside the control processor's (spec 05, 08, 12): PE words, packet headers, decrement messages and host commands decode to what
was encoded. -/
namespace Sys2Proof

/-! ### Fields of a number -/

theorem bits_lt (w lo n : Nat) : bits w lo n < 2 ^ n := Nat.mod_lt _ (by positivity)

/-- The field above bit `lo` splits off; chained, this writes a number as the sum of the fields of a layout. -/
theorem mod_eq_bits_add (w lo n m : Nat) (h : m = lo + n) : w % 2 ^ m = bits w lo n * 2 ^ lo + w % 2 ^ lo := by
  rw [h, bits, pow_add, Nat.mod_mul, Nat.mul_comm, Nat.add_comm]

theorem bits_zero_eq_mod (w n : Nat) : bits w 0 n = w % 2 ^ n := by rw [bits, pow_zero, Nat.div_one]

theorem flagCode_flagOf (w lo : Nat) : flagCode (flagOf w lo) = bits w lo 1 := by
  unfold flagOf flagCode bits
  rcases Nat.mod_two_eq_zero_or_one (w / 2 ^ lo) with h | h <;> simp [h]

theorem flagCode_injective : Function.Injective flagCode := by decide

theorem flagOf_of_bits {w lo : Nat} {b : Bool} (h : bits w lo 1 = flagCode b) : flagOf w lo = b :=
  flagCode_injective ((flagCode_flagOf w lo).trans h)

/-! ### PE words (05 R112, 14 R298) -/

theorem PeWord.fields_lt (f : PeWord) :
    f.pcare.toNat < 256 ∧ f.pval.toNat < 256 ∧ f.inrdy.toNat < 16 ∧ f.ospc.toNat < 16 ∧ flagCode f.tte < 2 ∧ f.tq.val < 4 ∧ f.tval.toNat < 32
      ∧ f.dst.val < 16 ∧ f.sa.val < 16 ∧ f.sb.val < 16 ∧ f.deq.toNat < 16 ∧ f.pidx.val < 8 ∧ f.pact.val < 4 ∧ f.lt.val < 16 :=
  ⟨f.pcare.isLt, f.pval.isLt, f.inrdy.isLt, f.ospc.isLt, Laws.Encoding.code_lt_bool f.tte, f.tq.isLt, f.tval.isLt, f.dst.isLt, f.sa.isLt,
    f.sb.isLt, f.deq.isLt, f.pidx.isLt, f.pact.isLt, f.lt.isLt⟩

section
variable {op : Nat} (h : op < 128) (f : PeWord)
include h

theorem bits_packPe : bits (packPe op f) 25 7 = op := by
  have := f.fields_lt
  simp only [bits, packPe]
  omega

theorem flagOf_packPe : flagOf (packPe op f) 39 = f.tte := by
  have := f.fields_lt
  refine flagOf_of_bits ?_
  simp only [bits, packPe]
  omega

theorem peFields_packPe : peFields (packPe op f) = f := by
  have := f.fields_lt
  cases f
  simp only [peFields, PeWord.mk.injEq, flagOf_packPe h, true_and, BitVec.toNat_eq, Fin.ext_iff, BitVec.toNat_ofNat, Fin.val_ofNat]
  simp only [packPe] at this ⊢
  omega

end

/-- A 64-bit word is the packed word of its opcode and fields. -/
theorem packPe_peFields {w : Nat} (h : w < 2 ^ 64) : packPe (bits w 25 7) (peFields w) = w := by
  conv_rhs =>
    rw [← Nat.mod_eq_of_lt h, mod_eq_bits_add w 56 8 64 rfl, mod_eq_bits_add w 48 8 56 rfl, mod_eq_bits_add w 44 4 48 rfl,
      mod_eq_bits_add w 40 4 44 rfl, mod_eq_bits_add w 39 1 40 rfl, mod_eq_bits_add w 37 2 39 rfl, mod_eq_bits_add w 32 5 37 rfl,
      mod_eq_bits_add w 25 7 32 rfl, mod_eq_bits_add w 21 4 25 rfl, mod_eq_bits_add w 17 4 21 rfl, mod_eq_bits_add w 13 4 17 rfl,
      mod_eq_bits_add w 9 4 13 rfl, mod_eq_bits_add w 6 3 9 rfl, mod_eq_bits_add w 4 2 6 rfl, ← flagCode_flagOf]
    simp only [← Nat.add_assoc]
  rfl

/-- What a word decodes to encodes into the word's own opcode and fields. -/
theorem encodePe_of_decodePe {w : Nat} {i : Instr} (h : decodePe w = some i) : encodePe i = packPe (bits w 25 7) (peFields w) := by
  unfold decodePe at h
  dsimp only at h
  split at h
  case h_36 =>  -- the two forms of RAND
    obtain rfl := Option.some.inj h
    split <;> simp only [encodePe, *]
  case h_44 => cases h  -- an unassigned opcode
  all_goals
    cases h
    simp only [encodePe, *]

theorem decodePe_rand (f : PeWord) : decodePe (packPe 0x23 f) = some (if f.lt = 6 then .randSeed f else .rand f) := by
  simp only [decodePe, bits_packPe (show 0x23 < 128 by decide), peFields_packPe (show 0x23 < 128 by decide)]

/-! ### Decrement messages (03 R75) -/

theorem decodeDecr_malformed (p : Packet) {w0 w1 : Word} (h : bits w1.toNat 49 15 ≠ 0 ∨ bits w1.toNat 0 18 ≠ 0 ∨ 3 < bits w0.toNat 48 3) :
    decodeDecr p w0 w1 = .malformedDecrementMessage p w0 w1 := by
  by_cases hr : bits w1.toNat 49 15 ≠ 0 ∨ bits w1.toNat 0 18 ≠ 0
  · simp only [decodeDecr, if_pos hr]
  · have hkind : 3 < bits w0.toNat 48 3 := by tauto
    simp only [decodeDecr, if_neg hr]
    split
    any_goals omega
    rfl

/-! ### Packets (08 R200, R201) -/

theorem Packet.fits_iff (p : Packet) :
    p.fits = true ↔ p.src < 2 ^ 5 ∧ p.dst < 2 ^ 5 ∧ p.ndf < 2 ^ 3 ∧ p.tok < 2 ^ 5 ∧ p.txn < 2 ^ 16 ∧ p.line < 2 ^ 45 ∧ p.boff < 2 ^ 7
      ∧ p.size < 2 ^ 3 ∧ p.gen < 2 ^ 48 ∧ p.aux < 2 ^ 16 := by
  simp only [Packet.fits, Bool.and_eq_true, decide_eq_true_eq, and_assoc]

section
variable {opc reserved : Nat} {p : Packet} (ho : opc < 2 ^ 7) (hr : reserved < 2 ^ 81) (h : p.fits = true)
include ho hr h

/-- The header has 256 bits and holds each field in its place. -/
theorem packetHeader_bits :
    let w := packetHeader opc reserved p
    w < 2 ^ 256 ∧ bits w 249 7 = opc ∧ bits w 244 5 = p.src ∧ bits w 239 5 = p.dst ∧ bits w 236 3 = p.ndf ∧ bits w 231 5 = p.tok
      ∧ bits w 230 1 = flagCode p.own ∧ bits w 229 1 = flagCode p.drty ∧ bits w 228 1 = flagCode p.psn ∧ bits w 224 4 = p.part.toNat
      ∧ bits w 208 16 = p.txn ∧ bits w 163 45 = p.line ∧ bits w 156 7 = p.boff ∧ bits w 153 3 = p.size ∧ bits w 105 48 = p.gen
      ∧ bits w 97 8 = p.stat.toNat ∧ bits w 81 16 = p.aux ∧ bits w 0 81 = reserved := by
  have hown := Laws.Encoding.code_lt_bool p.own
  have hdrty := Laws.Encoding.code_lt_bool p.drty
  have hpsn := Laws.Encoding.code_lt_bool p.psn
  have hpart := p.part.isLt
  have hstat := p.stat.isLt
  rw [Packet.fits_iff] at h
  simp only [packetHeader, bits]
  omega

theorem packetFields_packetHeader : packetFields (packetHeader opc reserved p) p.data p.key p.enables = (opc, reserved, p) := by
  obtain ⟨-, hopc, hsrc, hdst, hndf, htok, hown, hdrty, hpsn, hpart, htxn, hline, hboff, hsize, hgen, hstat, haux, hres⟩ :=
    packetHeader_bits ho hr h
  simp only [packetFields, flagOf_of_bits hown, flagOf_of_bits hdrty, flagOf_of_bits hpsn, *, BitVec.ofNat_toNat, BitVec.setWidth_eq]

end

section
variable {h : Nat} (l : Line) (key enables : Nat)

theorem packetFields_fits : (packetFields h l key enables).2.2.fits = true := by
  simp only [packetFields, Packet.fits, bits_lt, decide_true, Bool.and_self]

/-- A 256-bit number is the header of its fields. -/
theorem packetHeader_packetFields (hh : h < 2 ^ 256) :
    packetHeader (packetFields h l key enables).1 (packetFields h l key enables).2.1 (packetFields h l key enables).2.2 = h := by
  conv_rhs =>
    rw [← Nat.mod_eq_of_lt hh, mod_eq_bits_add h 249 7 256 rfl, mod_eq_bits_add h 244 5 249 rfl, mod_eq_bits_add h 239 5 244 rfl,
      mod_eq_bits_add h 236 3 239 rfl, mod_eq_bits_add h 231 5 236 rfl, mod_eq_bits_add h 230 1 231 rfl, mod_eq_bits_add h 229 1 230 rfl,
      mod_eq_bits_add h 228 1 229 rfl, mod_eq_bits_add h 224 4 228 rfl, mod_eq_bits_add h 208 16 224 rfl, mod_eq_bits_add h 163 45 208 rfl,
      mod_eq_bits_add h 156 7 163 rfl, mod_eq_bits_add h 153 3 156 rfl, mod_eq_bits_add h 105 48 153 rfl, mod_eq_bits_add h 97 8 105 rfl,
      mod_eq_bits_add h 81 16 97 rfl]
  have hpart := Nat.mod_eq_of_lt (bits_lt h 224 4)
  have hstat := Nat.mod_eq_of_lt (bits_lt h 97 8)
  have htxn := Nat.mod_eq_of_lt (bits_lt h 208 16)
  simp only [← Nat.add_assoc, packetHeader, packetFields, flagCode_flagOf, BitVec.toNat_ofNat, hpart, hstat, htxn, bits_zero_eq_mod]

end

theorem Packet.malformed_iff (p : Packet) (reserved : Nat) :
    p.malformed reserved = true ↔
      (16 < p.src ∨ 16 < p.dst ∨ 4 < p.ndf ∨ 16 < p.tok ∨ (p.own = true ∧ (p.tok = 0 ∨ p.ndf ≠ 4)) ∨ reserved ≠ 0) := by
  simp only [Packet.malformed, Bool.or_eq_true, Bool.and_eq_true, decide_eq_true_eq, beq_iff_eq, bne_iff_ne, or_assoc]

theorem decodePacket_unknown {opc reserved : Nat} {p : Packet} (h : p.malformed reserved = true ∨ opc = 0 ∨ 20 < opc) :
    decodePacket opc reserved p = .unknownPacket opc reserved p := by
  cases hm : p.malformed reserved
  · have hopc : opc = 0 ∨ 20 < opc := by simpa only [hm, Bool.false_eq_true, false_or] using h
    simp only [decodePacket, hm, Bool.false_eq_true, if_false]
    split
    any_goals omega
    rfl
  · exact if_pos hm

/-! ### Host commands (12 R271, R273) -/

theorem commandFields_commandWord {opc : Nat} (h : opc < 2 ^ 8) (c : Cmd) :
    commandFields (commandWord opc c) c.ts c.arg0 c.arg1 c.arg2 c.arg3 c.arg4 c.arg5 = (opc, c) := by
  have hpart := c.part.isLt
  have hres := c.reserved.isLt
  have hseq := c.seq.isLt
  cases c
  simp only [commandFields, commandWord, Prod.mk.injEq, Cmd.mk.injEq, and_true, BitVec.toNat_eq, BitVec.toNat_ofNat, bits] at *
  omega

theorem commandWord_commandFields (w ts a0 a1 a2 a3 a4 a5 : Word) :
    commandWord (commandFields w ts a0 a1 a2 a3 a4 a5).1 (commandFields w ts a0 a1 a2 a3 a4 a5).2 = w := by
  have := w.isLt
  simp only [commandFields, commandWord, BitVec.toNat_eq, BitVec.toNat_ofNat, bits]
  omega

theorem decodeCommand_reserved {opc : Nat} (h : opc = 0 ∨ (28 < opc ∧ opc < 32) ∨ (32 < opc ∧ opc < 256)) (c : Cmd) :
    decodeCommand opc c = .reservedCommand (BitVec.ofNat 8 opc) c := by
  unfold decodeCommand
  split
  any_goals omega
  rfl

/-- Settles O56: the round trips of each encoding, then the rows of each table. -/
theorem otherEncodingsRoundTrip : Obligations.OtherEncodingsRoundTrip := by
  unfold Obligations.OtherEncodingsRoundTrip
  refine ⟨?peRows, decodePe_rand, ?peWords, ?messages, fun p w0 w1 h => decodeDecr_malformed p h, ?headers, ?headersBack, ?packets,
    fun _ c h => commandFields_commandWord h c, ?commandWords, ?commands⟩
  case peRows =>
    intro x hx f
    have hop : x.1 < 128 := by fin_cases hx <;> decide
    constructor
    · fin_cases hx <;> rfl
    · unfold decodePe
      rw [bits_packPe hop, peFields_packPe hop]
      fin_cases hx <;> rfl
  case peWords => exact fun w i hw h => (encodePe_of_decodePe h).trans (packPe_peFields hw)
  case messages =>
    exact fun p m h => ⟨decodeDecr_encodeDecr p .decrement h, decodeDecr_encodeDecr p .forward h, decodeDecr_encodeDecr p .abort h,
      decodeDecr_encodeDecr p .ack h⟩
  case headers => exact fun opc reserved p ho hr h => ⟨(packetHeader_bits ho hr h).1, packetFields_packetHeader ho hr h⟩
  case headersBack => exact fun h l key enables hh => ⟨packetFields_fits l key enables, packetHeader_packetFields l key enables hh⟩
  case packets =>
    refine fun p reserved => ⟨p.malformed_iff reserved, fun opc => ⟨decodePacket_unknown, ?_⟩⟩
    rintro hm x hx rfl
    simp only [decodePacket, hm, Bool.false_eq_true, if_false]
    fin_cases hx <;> rfl
  case commandWords => exact fun w ts a0 a1 a2 a3 a4 a5 => ⟨commandWord_commandFields .., rfl, rfl, rfl, rfl, rfl, rfl, rfl⟩
  case commands =>
    refine fun opc c => ⟨?_, fun h => decodeCommand_reserved h c⟩
    rintro x hx rfl
    fin_cases hx <;> rfl

end Sys2Proof
end

section
/-! PROOFS. Firings (spec 05): what the delivery of a result to a register changes and what it leaves. -/
namespace Sys2Proof.Machine

/-! ### PEs of a tile -/

@[simp] theorem Tile.pe_setPe_self (t : Tile) (n : Nat) (x : Pe) : (t.setPe n x).pe n = x := by simp only [Tile.pe, Tile.setPe, tgetD_tput_self]
theorem Tile.pe_setPe_of_ne (t : Tile) {n m : Nat} (x : Pe) (h : m ≠ n) : (t.setPe n x).pe m = t.pe m := by
  simp only [Tile.pe, Tile.setPe, tgetD_tput_of_ne h]
@[simp] theorem Tile.pe_modPe_self (t : Tile) (n : Nat) (f : Pe → Pe) : (t.modPe n f).pe n = f (t.pe n) := t.pe_setPe_self n _
theorem Tile.pe_modPe_of_ne (t : Tile) {n m : Nat} (f : Pe → Pe) (h : m ≠ n) : (t.modPe n f).pe m = t.pe m := t.pe_setPe_of_ne _ h

/-! ### Words that leave output queues (05 R121) -/

/-- A PE some of whose output words may have left: only its output queues and its credits differ. -/
def Pe.SentOn (p q : Pe) : Prop := ∃ outq credit, q = { p with outq := outq, credit := credit }

theorem Pe.SentOn.refl (p : Pe) : p.SentOn p := ⟨p.outq, p.credit, rfl⟩

theorem Pe.SentOn.trans {p q r : Pe} (h : p.SentOn q) (g : q.SentOn r) : p.SentOn r := by
  obtain ⟨_, _, rfl⟩ := h
  obtain ⟨outq, credit, rfl⟩ := g
  exact ⟨outq, credit, rfl⟩

theorem depart_sentOn (pe q m n : Nat) : ∀ t : Tile, (t.pe m).SentOn ((t.depart pe q n).pe m) := by
  induction n with
  | zero => exact fun t => .refl _
  | succ n ih =>
    intro t
    unfold Tile.depart
    dsimp only
    split
    · split
      · refine .trans ?_ (ih _)
        by_cases h : m = pe
        · subst h
          exact ⟨_, _, t.pe_setPe_self m _⟩
        · exact (t.pe_setPe_of_ne _ h).symm ▸ .refl _
      · exact .refl _
    · exact .refl _

theorem departPe_sentOn (s : State) (d site pe m : Nat) : ((s.tile d site).pe m).SentOn (((s.departPe d site pe).tile d site).pe m) := by
  rw [State.departPe, State.tile_modTile_self]
  generalize s.tile d site = t
  generalize List.range 4 = l
  induction l generalizing t with
  | nil => exact .refl _
  | cons q l ih => exact (depart_sentOn pe q m 4 t).trans (ih _)

/-! ### The delivery of a result (05 R113, R117) -/

section
variable (p : Pe) (pact pidx : Nat) (flag : Bool)

@[simp] theorem Pe.act_d : (p.act pact pidx flag).d = p.d := by unfold Pe.act; split <;> rfl
@[simp] theorem Pe.act_dPsn : (p.act pact pidx flag).dPsn = p.dPsn := by unfold Pe.act; split <;> rfl
@[simp] theorem Pe.act_inq : (p.act pact pidx flag).inq = p.inq := by unfold Pe.act; split <;> rfl
@[simp] theorem Pe.act_part : (p.act pact pidx flag).part = p.part := by unfold Pe.act; split <;> rfl
@[simp] theorem Pe.act_rand : (p.act pact pidx flag).rand = p.rand := by unfold Pe.act; split <;> rfl

end

section
variable {s : State} {c : Ctx} {r : Fired} (hdelay : r.delay = none) (hdst : r.dst < 8) (hdeq : c.f.deq = 0)
include hdelay hdst hdeq

/-- A firing that dequeues nothing and delivers to a register at once: the register and the predicate are written, then words may leave. -/
theorem applyFiring_eq : (s.applyFiring c r []).1 =
    (s.fresh.2.modTile s.cur.die s.cur.site fun t => ((t.orSat r.sat).orZsc (c.a.zsc || c.b.zsc)).modPe s.cur.pe fun p =>
      (p.setD r.dst r.word r.psn).act c.f.pact.val c.f.pidx.val r.flag).departPe s.cur.die s.cur.site s.cur.pe := by
  have hkeep (k : Nat) : c.f.deq.getLsbD k = false := by rw [hdeq]; exact BitVec.getLsbD_zero
  simp only [State.applyFiring, hdelay, hkeep, Bool.false_and, Bool.false_eq_true, if_false, Pe.deliver, if_pos hdst]
  rfl

/-- The PE that fires takes the result and the predicate action. -/
theorem applyFiring_pe_self :
    ((((s.tile s.cur.die s.cur.site).pe s.cur.pe).setD r.dst r.word r.psn).act c.f.pact.val c.f.pidx.val r.flag).SentOn
      (((s.applyFiring c r []).1.tile s.cur.die s.cur.site).pe s.cur.pe) := by
  rw [applyFiring_eq hdelay hdst hdeq]
  refine .trans ?_ (departPe_sentOn ..)
  rw [State.tile_modTile_self, Tile.pe_modPe_self]
  exact .refl _

theorem applyFiring_pe_of_ne {m : Nat} (h : m ≠ s.cur.pe) :
    ((s.tile s.cur.die s.cur.site).pe m).SentOn (((s.applyFiring c r []).1.tile s.cur.die s.cur.site).pe m) := by
  rw [applyFiring_eq hdelay hdst hdeq]
  refine .trans ?_ (departPe_sentOn ..)
  rw [State.tile_modTile_self, Tile.pe_modPe_of_ne _ _ h]
  exact .refl _

end

/-- Settles O42: the PE that fires and every other PE up to the words that leave, and the rest of the state as the delivery leaves it. -/
theorem firingDelivers : Obligations.FiringDelivers := by
  unfold Obligations.FiringDelivers
  intro s c r hdelay hdst hdeq
  dsimp only
  have hframe := applyFiring_eq (s := s) hdelay hdst hdeq
  obtain ⟨_, _, hq⟩ := applyFiring_pe_self (s := s) hdelay hdst hdeq
  rw [hq]
  dsimp only
  rw [Pe.act_d, Pe.act_dPsn, Pe.act_inq, Pe.act_part, Pe.act_rand]
  refine ⟨vget_vset_self .., vget_vset_self .., ?registers, ?keeps, ?sets, ?clears, ?takesFlag, rfl, rfl, rfl, ?others, ?records, ?hbm, ?host⟩
  case registers =>
    intro n hn hne
    have hmod : n % (7 + 1) ≠ r.dst % (7 + 1) := by omega
    exact ⟨vget_vset_of_ne hmod, vget_vset_of_ne hmod⟩
  case keeps | sets | clears | takesFlag =>
    intro h
    rw [h]
    rfl
  case others =>
    intro n hn
    obtain ⟨_, _, hother⟩ := applyFiring_pe_of_ne (s := s) hdelay hdst hdeq hn
    rw [hother]
    exact ⟨rfl, rfl⟩
  case records | hbm | host =>
    rw [hframe]
    intros
    rfl

end Sys2Proof.Machine
end

section
/-! PROOFS. Firings (spec 05): the frame that every PE opcode shares, its two faults, and the control nodes. -/
namespace Sys2Proof.Machine

/-! ### The frame of a firing (05 R116, R117, R124) -/

/-- Every PE opcode is a firing with its own opcode, and one that finds its operands free of poison consumes none. -/
theorem exec_eq_fire (w : PeWord) (s : State) : ∀ x ∈ ([
      (0, Instr.gridNop), (1, Instr.move), (2, Instr.dup), (3, Instr.gridAdd), (4, Instr.gridSub), (5, Instr.gridMul), (6, Instr.fma), (7, Instr.fms),
      (8, Instr.gridMin), (9, Instr.gridMax), (10, Instr.abs), (11, Instr.neg), (12, Instr.gridCmp), (13, Instr.gridSel), (14, Instr.gridAnd), (15, Instr.gridOr),
      (16, Instr.gridXor), (17, Instr.not), (18, Instr.gridShl), (19, Instr.gridShr), (20, Instr.gridSra), (21, Instr.cvt), (22, Instr.cvts), (23, Instr.exp2),
      (24, Instr.log2), (25, Instr.rcp), (26, Instr.rsq), (27, Instr.red), (28, Instr.bcst), (29, Instr.shuf), (30, Instr.tag), (31, Instr.steer),
      (32, Instr.merge), (33, Instr.lgen), (34, Instr.cnt), (35, Instr.rand), (35, Instr.randSeed), (36, Instr.mld), (37, Instr.mst), (38, Instr.mamo),
      (39, Instr.mtas), (40, Instr.xltn), (41, Instr.barn), (42, Instr.endk)] : List (Nat × (PeWord → Instr))),
    ∃ go, exec (x.2 w) s = fire x.1 w s go ∧ ∀ c : Ctx, c.a.psn = 0 → c.b.psn = 0 → go c ≠ .poison := by
  intro x hx
  fin_cases hx
  all_goals
    simp only [exec, execGridNop, execMove, execDup, execGridAdd, execGridSub, execGridMul, execFma, execFms, execGridMin, execGridMax, execAbs,
      execNeg, execGridCmp, execGridSel, execGridAnd, execGridOr, execGridXor, execNot, execGridShl, execGridShr, execGridSra, execCvt, execCvts,
      execExp2, execLog2, execRcp, execRsq, execRed, execBcst, execShuf, execTag, execSteer, execMerge, execLgen, execCnt, execRand,
      execRandSeed, execMld, execMst, execMamo, execMtas, execXltn, execBarn, execEndk, firePair, fireBits, fireFused, fireMinMax, fireSign,
      fireShift, fireFunction, fireAtomic]
    refine ⟨_, rfl, fun c ha hb => ?_⟩
    simp only [ha, hb, Ctx.done, bne_self_eq_false, BitVec.ofNat_eq_ofNat, BitVec.getLsbD_zero, Bool.or_self, Bool.false_eq_true, if_false,
      ne_eq, reduceCtorEq, not_false_eq_true]
  -- CVT, CVTS and RED may fail their pairing, MAMO and MTAS may answer a status
  all_goals
    repeat' split
    all_goals nofun

/-! ### The two faults of a firing (05 R124, 11 R260) -/

section
variable {c : Ctx} {op : Nat} {g : Firing}

theorem Ctx.badPair_of_bad (h : c.a.ok = false ∨ c.b.ok = false) : c.badPair g = true := by
  rcases h with h | h <;> simp only [Ctx.badPair, h, Bool.not_false, Bool.true_or, Bool.or_true]

theorem Ctx.badPair_of_ok (ha : c.a.ok = true) (hb : c.b.ok = true) (hg : g ≠ .pairing) : c.badPair g = false := by
  unfold Ctx.badPair
  rw [ha, hb]
  split <;> trivial

theorem Ctx.badPoison_of_clean (hbad : c.a.ok = false ∨ c.b.ok = false) (ha : c.a.psn = 0) (hb : c.b.psn = 0) (hg : g ≠ .poison) :
    c.badPoison op g = false := by
  unfold Ctx.badPoison
  rw [c.flagPoison_clean op ha hb, Bool.false_or]
  split
  · rfl
  · contradiction
  · rcases hbad with h | h <;> simp only [h, Bool.false_and, Bool.and_false]

theorem Ctx.badPoison_of_flag (h : c.flagPoison op = true) : c.badPoison op g = true := by
  unfold Ctx.badPoison
  rw [h, Bool.true_or]

end

/-- What the consumption of poison answers: with well paired operands the report of the poison, otherwise the report of one of two faults, as a
free choice says (log 46). -/
def State.Consumes (s : State) (c : Ctx) (o : Out) : Prop :=
  (c.a.ok = true → c.b.ok = true → o = .next (s.refuseFiring .poison))
    ∧ (c.a.ok = false ∨ c.b.ok = false →
      o = .next ((s.pick 2).2.refuseFiring .pairing) ∨ o = .next ((s.pick 2).2.refuseFiring .poison))

section
variable {op : Nat} {f : PeWord} {s : State} {go : Ctx → Firing} (hfire : s.fires op f = true)
include hfire

/-- A firing that consumes poison and whose control word is good. -/
theorem fire_consumes (hgo : go (s.firingCtx op f (op == 0x16)) ≠ .pairing)
    (hpoison : (s.firingCtx op f (op == 0x16)).badPoison op (go (s.firingCtx op f (op == 0x16))) = true) :
    s.Consumes (s.firingCtx op f (op == 0x16)) (fire op f s go) := by
  refine ⟨fun ha hb => fire_poison op f s go hfire (Ctx.badPair_of_ok ha hb hgo) hpoison, fun hbad => ?_⟩
  rw [fire_fires op f s go hfire]
  simp only [Ctx.badPair_of_bad hbad, hpoison, Bool.and_self, if_true]
  split
  · exact .inl rfl
  · exact .inr rfl

/-- An opcode that consumes a poisoned operand. -/
theorem fire_consumes_operand (hgo : go (s.firingCtx op f (op == 0x16)) = .poison) :
    s.Consumes (s.firingCtx op f (op == 0x16)) (fire op f s go) :=
  fire_consumes hfire (by rw [hgo]; nofun) (by rw [hgo]; exact Bool.or_true _)

/-- An opcode whose flag comes from its operands, where PACT takes that flag. -/
theorem fire_consumes_flag (hgo : go (s.firingCtx op f (op == 0x16)) ≠ .pairing) (ha : (s.firingCtx op f (op == 0x16)).a.psn ≠ 0)
    (hpact : f.pact = 3) (hop : constantFlag op = false) (hwindow : op ≠ 0x26 ∧ op ≠ 0x27) :
    s.Consumes (s.firingCtx op f (op == 0x16)) (fire op f s go) := by
  have hf : (s.firingCtx op f (op == 0x16)).f = f := rfl
  refine fire_consumes hfire hgo (Ctx.badPoison_of_flag ?_)
  simp only [Ctx.flagPoison, hf, hpact, bne_iff_ne.2 ha, hop, bne_iff_ne.2 hwindow.1, bne_iff_ne.2 hwindow.2, beq_self_eq_true, Bool.true_or,
    Bool.not_false, Bool.and_self]

end

/-- Settles O36: every opcode by its form as a firing, then each way to consume poison. -/
theorem firingFrame : Obligations.FiringFrame := by
  unfold Obligations.FiringFrame
  intro s w
  refine ⟨?rows, ?lgen, ?operandA, ?operandB, ?flag⟩
  case rows =>
    intro x hx
    obtain ⟨go, he, hclean⟩ := exec_eq_fire w s x hx
    rw [he]
    exact ⟨fire_idle x.1 w s go, fun hf hbad ha hb =>
      fire_pairing x.1 w s go hf (Ctx.badPair_of_bad hbad) (Ctx.badPoison_of_clean hbad ha hb (hclean _ ha hb))⟩
  case lgen =>
    intro hf ha
    show s.Consumes _ (execLgen w s)
    exact fire_consumes_operand hf (if_pos (bne_iff_ne.2 ha))
  case operandA =>
    intro x hx
    fin_cases hx
    all_goals
      intro hf ha
      change s.Consumes _ (exec _ s)
      simp only [exec, execMld, execMst, execMamo, execMtas, execXltn, execCnt, fireAtomic]
    on_goal 6 => exact fire_consumes_operand hf (if_pos (Bool.or_eq_true_iff.2 (.inl ha)))
    all_goals exact fire_consumes_operand hf (if_pos ha)
  case operandB =>
    intro x hx
    fin_cases hx
    all_goals
      intro hf hb
      change s.Consumes _ (exec _ s)
      simp only [exec, execCnt, execTag]
    · exact fire_consumes_operand hf (if_pos (Bool.or_eq_true_iff.2 (.inr hb)))
    · exact fire_consumes_operand hf (if_pos hb)
  case flag =>
    intro x hx
    fin_cases hx
    all_goals
      intro hf ha hpact
      change s.Consumes _ (exec _ s)
      simp only [exec, execGridAdd, execGridAnd, execMove, firePair, fireBits]
      exact fire_consumes_flag hf nofun ha hpact rfl (by decide)

/-! ### The control nodes (05 R125, R126, 15 R331, R345, 16 R375, 17 R406) -/

/-- An opcode whose flag is a constant takes no poison by its flag. -/
theorem Ctx.flagPoison_constant (c : Ctx) {op : Nat} (h : constantFlag op = true) : c.flagPoison op = false := by
  simp only [Ctx.flagPoison, h, Bool.not_true, Bool.and_false, Bool.false_and]

theorem Ctx.result_psn_of_clean (c : Ctx) (word : QWord) (flag : Bool) (ha : c.a.psn = 0) (hb : c.b.psn = 0) : (c.result word flag).psn = 0 := by
  simp only [Ctx.result, ha, hb, bne_self_eq_false, Bool.or_self]
  rfl

/-- Settles O40: each control node is a firing that gives a result. -/
theorem gridControlNodes : Obligations.GridControlNodes := by
  unfold Obligations.GridControlNodes
  intro s w
  refine ⟨?lgen, ?cnt, ?rand, ?barn⟩
  case lgen =>
    intro hf c n k m ends flags ha hb hpa hpb
    have hends : (n == 0 || (!(n == 0) && m == n)) = ends := by
      show _ = (n == 0 || m == n)
      cases n == 0 <;> rfl
    have hclean : ¬(c.a.psn != 0) = true := by simp [hpa]
    change execLgen w s = _
    refine .trans (fire_done 0x21 w s _ _ _ hf ha hb (Ctx.flagPoison_clean _ _ hpa hpb) (if_neg hclean) ?_) ?_
    · exact fun _ hp => absurd (Ctx.result_psn_of_clean _ 0 false hpa hpb) hp
    · rw [← hends]
      rfl
  case cnt =>
    intro hf c old v ha hb hpa hpb hpact
    have hclean : ¬(c.a.psn.getLsbD 0 || c.b.psn.getLsbD 0) = true := by simp [hpa, hpb]
    change execCnt w s = _
    refine .trans (fire_done 0x22 w s _ _ _ hf ha hb (Ctx.flagPoison_clean _ _ hpa hpb) (if_neg hclean) ?_) rfl
    exact fun h3 hp => absurd (hpact h3) hp
  case rand =>
    intro hf c ha hb
    have hflag := Ctx.flagPoison_constant c (op := 0x23) rfl
    constructor
    · change execRand w s = _
      exact .trans (fire_done 0x23 w s _ _ _ hf ha hb hflag rfl fun _ _ => rfl) rfl
    · change execRandSeed w s = _
      exact .trans (fire_done 0x23 w s _ _ _ hf ha hb hflag rfl fun _ _ => rfl) rfl
  case barn =>
    intro hf c data ha hb
    change execBarn w s = _
    exact .trans (fire_done 0x29 w s _ _ _ hf ha hb (Ctx.flagPoison_constant c rfl) rfl fun _ _ => rfl) rfl

end Sys2Proof.Machine
end

section
/-! PROOFS. The grid commands of a strand (spec 05, 16 R360 to R367): what each answers as it issues. -/
namespace Sys2Proof.Machine

/-! ### The tiles that a command names (14 R296) -/

section
variable {s : State} {sel : TileSel} (i : Instr) (go : List Nat → State)

theorem onTiles_some {l : List Nat} (h : s.here.select (selAll sel) (s.me.selValue sel) = some l) : s.onTiles i sel go = go l := by
  simp only [State.onTiles, h]
theorem onTiles_none (h : s.here.select (selAll sel) (s.me.selValue sel) = none) : s.onTiles i sel go = s.illOperand i := by
  simp only [State.onTiles, h]

end

/-! ### GRUN, GFRZ and GDRAIN (16 R362) -/

section
variable {s : State} {sel : TileSel} {o : Order} (hi : s.me.ready (selRegs sel) o = true)
include hi

theorem execGrun_runs {l : List Nat} (h : s.here.select (selAll sel) (s.me.selValue sel) = some l) :
    execGrun sel o s = .next ((s.modMe Strand.next).over l fun y s => s.modTile s.cur.die y fun t => { t with firing := true, heldPf := false }) :=
  (issue_ready _ hi).trans (congrArg _ (onTiles_some _ _ h))

theorem execGrun_ill (h : s.here.select (selAll sel) (s.me.selValue sel) = none) : execGrun sel o s = .next (s.illOperand (.grun sel o)) :=
  (issue_ready _ hi).trans (congrArg _ (onTiles_none _ _ h))

theorem freezeGrid_holds (i : Instr) (kind : Nat) {l : List Nat} (h : s.here.select (selAll sel) (s.me.selValue sel) = some l) :
    let held := (s.modMe fun t => { t.raise o.set.val with pc := t.pc + 4 }).over l fun y s => s.modTile s.cur.die y fun t => { t with firing := false }
    freezeGrid s i sel o kind = .next ((held.modHere fun t => { t with gridCmds := t.gridCmds ++ [⟨kind, held.cur.strand, o.set.val, l⟩] }).settleGrid
      held.cur.die held.cur.site) := by
  simp only [Strand.raise_next]
  exact (issue_ready _ hi).trans (congrArg _ (onTiles_some _ _ h))

theorem freezeGrid_ill (i : Instr) (kind : Nat) (h : s.here.select (selAll sel) (s.me.selValue sel) = none) :
    freezeGrid s i sel o kind = .next (s.illOperand i) :=
  (issue_ready _ hi).trans (congrArg _ (onTiles_none _ _ h))

end

/-! ### GLOAD and GSPLICE (16 R364, R365) -/

/-- GLOAD or GSPLICE on the tiles `l`: the image at `v` is read into their shadows, and the command is in progress (16 R364). -/
def State.loadsImages (s : State) (v : Nat) (o : Order) (kind : Nat) (l : List Nat) : State :=
  let src := (s.view s.cur.die s.cur.site true).1
  let loaded := ((s.view s.cur.die s.cur.site true).2.modMe fun t => { t.raise o.set.val with pc := t.pc + 4 }).over l fun y u =>
    u.modTile u.cur.die y fun t =>
      t.loadImage y (fun off n => src.spadRead src.part (v + off) n) (fun off n => src.spadPoisoned src.part (v + off) n)
  loaded.modHere fun t => { t with gridCmds := t.gridCmds ++ [⟨kind, loaded.cur.strand, o.set.val, l⟩] }

section
variable {s : State} {a : Reg} {sel : TileSel} {o : Order} (i : Instr) (kind : Nat)

theorem loadImages_waits (hp : s.splicePending = false) (hb : s.gridBusy s.cur.die (s.selected sel) = true) :
    loadImages s i a sel o kind = .next s := if_pos (by rw [hp, hb]; rfl)

theorem loadImages_after_splice (hp : s.splicePending = true) (hi : s.readyMem (a :: selRegs sel) o = true) :
    loadImages s i a sel o kind = .next (s.freeWord.2.trapMe 6 0x12 s.freeWord.1) := by
  simp only [loadImages, hp, Bool.not_true, Bool.false_and, Bool.false_eq_true, if_false, issueMem_ready _ hi, if_true]

section
variable (hi : s.readyMem (a :: selRegs sel) o = true) (hb : s.gridBusy s.cur.die (s.selected sel) = false) (hp : s.splicePending = false)
include hi hb hp

theorem loadImages_issues : loadImages s i a sel o kind = .next (
    if 0x200000 < (s.me.rd a).toNat + imageBytes then s.illOperand i
    else if (s.me.rd a).toNat % 64 ≠ 0 then s.trapMe 4 6 (s.me.rd a)
    else s.onTiles i sel (s.loadsImages (s.me.rd a).toNat o kind)) := by
  simp only [loadImages, hb, hp, Bool.and_false, Bool.false_eq_true, if_false, issueMem_ready _ hi]
  delta State.loadsImages
  simp only [Strand.raise_next]

theorem loadImages_outside (h : 0x200000 < (s.me.rd a).toNat + imageBytes) : loadImages s i a sel o kind = .next (s.illOperand i) := by
  rw [loadImages_issues i kind hi hb hp, if_pos h]

theorem loadImages_misaligned (h : (s.me.rd a).toNat + imageBytes ≤ 0x200000) (h64 : (s.me.rd a).toNat % 64 ≠ 0) :
    loadImages s i a sel o kind = .next (s.trapMe 4 6 (s.me.rd a)) := by
  rw [loadImages_issues i kind hi hb hp, if_neg (Nat.not_lt.2 h), if_pos h64]

theorem loadImages_reads {l : List Nat} (h : (s.me.rd a).toNat + imageBytes ≤ 0x200000) (h64 : (s.me.rd a).toNat % 64 = 0)
    (hl : s.here.select (selAll sel) (s.me.selValue sel) = some l) :
    loadImages s i a sel o kind = .next (s.loadsImages (s.me.rd a).toNat o kind l) := by
  rw [loadImages_issues i kind hi hb hp, if_neg (Nat.not_lt.2 h), if_neg (not_not.2 h64), onTiles_some _ _ hl]

theorem loadImages_bad_selector (h : (s.me.rd a).toNat + imageBytes ≤ 0x200000) (h64 : (s.me.rd a).toNat % 64 = 0)
    (hl : s.here.select (selAll sel) (s.me.selValue sel) = none) : loadImages s i a sel o kind = .next (s.illOperand i) := by
  rw [loadImages_issues i kind hi hb hp, if_neg (Nat.not_lt.2 h), if_neg (not_not.2 h64), onTiles_none _ _ hl]

end
end

/-! ### GCOMMIT (16 R360) -/

section
variable {s : State} {o : Order}

theorem execGcommit_commits (hi : s.me.ready [] o = true) (hb : s.gridBusy s.cur.die s.here.sites = false) (hp : s.splicePending = false) :
    execGcommit o s = .next (s.modMe Strand.next).commit := by
  simp only [execGcommit, hb, hp, Bool.and_false, Bool.false_eq_true, if_false, issue_ready _ hi]

theorem execGcommit_waits (hp : s.splicePending = false) (hb : s.gridBusy s.cur.die s.here.sites = true) : execGcommit o s = .next s :=
  if_pos (by rw [hp, hb]; rfl)

theorem execGcommit_after_splice (hp : s.splicePending = true) (hi : s.me.ready [] o = true) :
    execGcommit o s = .next (s.freeWord.2.trapMe 6 0x12 s.freeWord.1) := by
  simp only [execGcommit, hp, Bool.not_true, Bool.false_and, Bool.false_eq_true, if_false, issue_ready _ hi, if_true]

end

/-! ### GSEND and GRECV (16 R366) -/

section
variable {s : State} {n : Fin 4} {o : Order}

theorem execGsend_sends (a b : Reg) (hi : s.readyMem [a, b] o = true) (h : (vget (s.here.pe (portPe n.val)).inq 3).length < 4) :
    execGsend a b n o s = .next ((s.modMe Strand.next).modHere fun t => t.modPe (portPe n.val) fun p =>
      p.put 3 ⟨⟨BitVec.ofNat 128 ((s.me.rd a).toNat + (s.me.rd b).toNat * 2 ^ 64), 31, 0, false, false⟩, .none⟩) := by
  rw [execGsend, if_neg (Nat.not_le.2 h), issueMem_ready _ hi]

theorem execGsend_waits (a b : Reg) (h : 4 ≤ (vget (s.here.pe (portPe n.val)).inq 3).length) : execGsend a b n o s = .next s := if_pos h

theorem execGrecv_waits (d : Reg) (h : Bool) (he : s.here.port n.val = []) : execGrecv d h n o s = .next s := by
  simp only [execGrecv, he]

/-- What GRECV does with the oldest word of its port: the high half takes it and gives its credit back (16 R366). -/
def State.halfRead (u : State) (h : Bool) (n : Nat) (src : Source) (rest : List Queued) : State :=
  if h then (u.modHere fun t => t.setPort n rest).returnCredit u.cur.die u.cur.site src else u

section
variable {w : Queued} {rest : List Queued} {d : Reg} (hw : s.here.port n.val = w :: rest) (hi : s.readyMem [d] o = true) (h : Bool)
include hw hi

theorem execGrecv_writes (hp : w.word.psn.getLsbD (if h then 1 else 0) = false) : execGrecv d h n o s = .next
    (((s.modMe fun t => { t.wr d (BitVec.ofNat 64 (bits w.word.bits.toNat (if h then 64 else 0) 64)) with pc := t.pc + 4 }).modHere
      fun t => t.settleRaces .grid).halfRead h n.val w.src rest) := by
  simp only [execGrecv, hw, issueMem_ready _ hi, hp, Bool.false_eq_true, if_false, Strand.wr_next]
  rfl

theorem execGrecv_reports (hp : w.word.psn.getLsbD (if h then 1 else 0) = true) : execGrecv d h n o s = .next
    ((((s.modMe Strand.next).modHere fun t => t.settleRaces .grid).report s.cur.die s.cur.site s.cur.strand
      ⟨8, 1, BitVec.ofNat 64 n.val⟩).halfRead h n.val w.src rest) := by
  simp only [execGrecv, hw, issueMem_ready _ hi, hp, if_true]
  rfl

end
end

/-! ### GCONST and GSTAT (16 R361, R367) -/

@[simp] theorem Tile.putRaced_rgnb (t : Tile) (r : Race) : (t.putRaced r).rgnb = t.rgnb := by
  unfold Tile.putRaced Tile.markPoison
  split <;> rfl

/-- A reader's choices among racing words leave the tile's region. -/
theorem Tile.view_rgnb (t : Tile) (engine : Bool) (coin : Nat → Nat) : (t.view engine coin).rgnb = t.rgnb := by
  have hfold (l : List Race) : ∀ t : Tile, (l.foldl Tile.putRaced t).rgnb = t.rgnb := by
    induction l with
    | nil => exact fun _ => rfl
    | cons r l ih => exact fun t => (ih _).trans (t.putRaced_rgnb r)
  exact hfold _ t

theorem State.view_rgnb (s : State) (d y : Nat) (engine : Bool) : (s.view d y engine).1.rgnb = (s.tile d y).rgnb := Tile.view_rgnb _ _ _

/-- A control word of GCONST that names PEs of the region, and an address whose 16 bytes lie in the scratchpad (16 R361). -/
def State.constLegal (s : State) (v x : Nat) : Prop :=
  v + 16 ≤ 0x200000 ∧ x < 2 ^ 19 ∧ (flagOf x 18 = true → x % 256 = 0) ∧ (flagOf x 18 = false → s.here.inRegion (bits x 0 4) (bits x 4 4) = true)

/-- The check of GCONST, as a proposition. -/
theorem constBad_iff (s : State) (v : Nat) {x : Nat} (hx : x < 2 ^ 64) :
    (0x1FFFF1 ≤ v ∨ bits x 19 45 ≠ 0 ∨ (flagOf x 18 = true ∧ bits x 0 8 ≠ 0)
      ∨ ((!flagOf x 18) = true ∧ (!s.here.inRegion (bits x 0 4) (bits x 4 4)) = true)) ↔ ¬s.constLegal v x := by
  have hhigh : bits x 19 45 ≠ 0 ↔ ¬x < 2 ^ 19 := by
    unfold bits
    omega
  have haddr : 0x1FFFF1 ≤ v ↔ ¬v + 16 ≤ 0x200000 := by omega
  rw [hhigh, haddr, bits_zero_eq_mod x 8, State.constLegal]
  cases flagOf x 18 <;> cases s.here.inRegion (bits x 0 4) (bits x 4 4) <;> simp [Decidable.imp_iff_not_or]

/-- A plane whose constant `k` holds the 16 bytes at `v` as an engine reads them, with their poison (16 R361, 09 R230). -/
def Tile.constFrom (src : Tile) (v k : Nat) (y : Plane) : Plane := { y with
  consts := vset y.consts k (BitVec.ofNat 128 (src.spadRead src.part v 16))
  constPsn := (y.constPsn &&& ~~~(3#8 <<< (2 * k)))
    ||| (BitVec.ofNat 8 (flagCode (src.spadPoisoned src.part v 8) + 2 * flagCode (src.spadPoisoned src.part (v + 8) 8)) <<< (2 * k)) }

/-- GCONST with a good address and control word: the constant is written in the PE of every tile that it names (16 R361). -/
def State.writesConst (s : State) (v x : Nat) : State :=
  let put := (s.view s.cur.die s.cur.site true).1.constFrom v (bits x 15 2)
  ((s.view s.cur.die s.cur.site true).2.modMe fun t => { t with pc := t.pc + 4 }).over
    (if flagOf x 18 then s.here.sites else [s.here.siteAt (bits x 0 4) (bits x 4 4)]) fun y u => u.modTile u.cur.die y fun t =>
      t.modPe (peNumber (bits x 8 4) (bits x 12 3)) fun p => if flagOf x 17 then p.setShadow (put p.shadow) else p.setPlane (put p.plane)

section
variable {s : State} {a b : Reg} {o : Order} (hi : s.readyMem [a, b] o = true)
include hi

theorem execGconst_ill (h : ¬s.constLegal (s.me.rd a).toNat (s.me.rd b).toNat) : execGconst a b o s = .next (s.illOperand (.gconst a b o)) := by
  rw [execGconst, issueMem_ready _ hi]
  exact congrArg _ (if_pos ((constBad_iff s _ (s.me.rd b).isLt).2 h))

theorem execGconst_misaligned (h : s.constLegal (s.me.rd a).toNat (s.me.rd b).toNat) (h16 : (s.me.rd a).toNat % 16 ≠ 0) :
    execGconst a b o s = .next (s.trapMe 4 4 (s.me.rd a)) := by
  rw [execGconst, issueMem_ready _ hi]
  exact congrArg _ ((if_neg (mt (constBad_iff s _ (s.me.rd b).isLt).1 (not_not.2 h))).trans (if_pos h16))

theorem execGconst_writes (h : s.constLegal (s.me.rd a).toNat (s.me.rd b).toNat) (h16 : (s.me.rd a).toNat % 16 = 0) :
    execGconst a b o s = .next (s.writesConst (s.me.rd a).toNat (s.me.rd b).toNat) := by
  have hsites : (s.view s.cur.die s.cur.site true).1.sites = s.here.sites := by
    simp only [Tile.sites, Tile.regionBX, Tile.regionBY, Tile.regionW, Tile.regionH, State.view_rgnb, State.here]
  have hsite (x y : Nat) : (s.view s.cur.die s.cur.site true).1.siteAt x y = s.here.siteAt x y := by
    simp only [Tile.siteAt, Tile.regionBX, Tile.regionBY, State.view_rgnb, State.here]
  rw [execGconst, issueMem_ready _ hi]
  refine congrArg _ (((if_neg (mt (constBad_iff s _ (s.me.rd b).isLt).1 (not_not.2 h))).trans (if_neg (not_not.2 h16))).trans ?_)
  dsimp only
  rw [hsites, hsite]
  rfl

end

section
variable {s : State} {d b : Reg} {o : Order} (hi : s.me.ready [d, b] o = true)
include hi

theorem execGstat_reads {y : Nat} (h : s.here.select false (s.me.rd b) = some [y]) :
    execGstat d b o s = .next (s.modMe fun t => { t.wr d (s.tile s.cur.die y).gridStatus with pc := t.pc + 4 }) := by
  simp only [execGstat, issue_ready _ hi, h, Strand.wr_next]

theorem execGstat_ill (h : ∀ y l, s.here.select false (s.me.rd b) ≠ some (y :: l)) :
    execGstat d b o s = .next (s.illOperand (.gstat d b o)) := by
  rw [execGstat, issue_ready _ hi]
  split
  · exact absurd ‹_› (h _ _)
  · rfl

end

/-- Settles O33: each command under each of its conditions. -/
theorem gridCommandsIssue : Obligations.GridCommandsIssue := by
  unfold Obligations.GridCommandsIssue
  intro s d a b sel n h o passed raised chosen ill v
  refine ⟨?tiles, ?images, ?imagesWait, ?imagesSplice, execGcommit_commits, execGcommit_waits, ?commitSplice, execGsend_sends a b,
    execGsend_waits a b, ?recv, execGrecv_waits d h, ?const, execGstat_ill, fun _ hi hs => execGstat_reads hi hs⟩
  case tiles =>
    intro hi
    exact ⟨fun l hl => ⟨execGrun_runs hi hl, freezeGrid_holds hi (.gfrz sel o) 4 hl, freezeGrid_holds hi (.gdrain sel o) 2 hl⟩,
      fun hl => ⟨execGrun_ill hi hl, freezeGrid_ill hi (.gfrz sel o) 4 hl, freezeGrid_ill hi (.gdrain sel o) 2 hl⟩⟩
  case images =>
    intro hi hb hp
    exact ⟨fun hv => ⟨loadImages_outside _ _ hi hb hp hv, loadImages_outside _ _ hi hb hp hv⟩,
      fun hv h64 => ⟨loadImages_misaligned _ _ hi hb hp hv h64, loadImages_misaligned _ _ hi hb hp hv h64⟩,
      fun l hv h64 hl => ⟨loadImages_reads _ _ hi hb hp hv h64 hl, loadImages_reads _ _ hi hb hp hv h64 hl⟩,
      fun hv h64 hl => ⟨loadImages_bad_selector _ _ hi hb hp hv h64 hl, loadImages_bad_selector _ _ hi hb hp hv h64 hl⟩⟩
  case imagesWait => exact fun hp hb => ⟨loadImages_waits _ _ hp hb, loadImages_waits _ _ hp hb⟩
  case imagesSplice => exact fun hp hi => ⟨_, loadImages_after_splice _ _ hp hi, loadImages_after_splice _ _ hp hi⟩
  case commitSplice => exact fun hp hi => ⟨_, execGcommit_after_splice hp hi⟩
  case recv =>
    intro w rest hw hi
    exact ⟨execGrecv_writes hw hi false, execGrecv_writes hw hi true, execGrecv_reports hw hi false, execGrecv_reports hw hi true⟩
  case const =>
    intro x all k legal src psn put hi
    exact ⟨execGconst_writes hi, execGconst_misaligned hi, execGconst_ill hi⟩

end Sys2Proof.Machine
end

section
/-! PROOFS. Handles as a strand uses them (spec 06 R142 to R145, 16 R368 to R371): the five instructions, and what a handle's coming to another state
does for those that wait for it. -/
namespace Sys2Proof.Machine

/-! ### HALLOC (16 R368) -/

/-- An extent that HALLOC refuses: beyond the scratchpad, empty or not aligned (06 R143, 16 R368). -/
def BadExtent (base len : Nat) : Prop := 0x200000 < base + len ∨ len = 0 ∨ base % 64 ≠ 0 ∨ len % 64 ≠ 0

/-- HALLOC looks for the lowest unbound handle. -/
theorem find_unbound_eq_none (t : Tile) (h : ∀ n < 128, (t.handle n).bnd = true) : (List.range 128).find? (fun n => !(t.handle n).bnd) = none := by
  simpa using h

theorem find_unbound_eq_some (t : Tile) {n : Nat} (hn : n < 128) (hfree : (t.handle n).bnd = false) (hbelow : ∀ m < n, (t.handle m).bnd = true) :
    (List.range 128).find? (fun n => !(t.handle n).bnd) = some n := by
  simpa [List.find?_range_eq_some, hn, hfree] using hbelow

section
variable {s : State} {d a b : Reg} {o : Order} (hi : s.me.ready [d, a, b] o = true)
include hi

theorem execHalloc_ill (h : BadExtent (s.me.rd a).toNat (s.me.rd b).toNat) : execHalloc d a b o s = .next (s.illOperand (.halloc d a b o)) :=
  (issue_ready _ hi).trans (congrArg _ (if_pos h))

section
variable (h : ¬BadExtent (s.me.rd a).toNat (s.me.rd b).toNat)
include h

theorem execHalloc_none_left (hall : ∀ n < 128, (s.here.handle n).bnd = true) :
    execHalloc d a b o s = .next (s.modMe fun x => { x.wr d (BitVec.allOnes 64) with pc := x.pc + 4 }) := by
  rw [execHalloc, issue_ready _ hi]
  refine congrArg _ ((if_neg h).trans ?_)
  simp only [find_unbound_eq_none _ hall, Strand.wr_next]

theorem execHalloc_binds {n : Nat} (hn : n < 128) (hfree : (s.here.handle n).bnd = false) (hbelow : ∀ m < n, (s.here.handle m).bnd = true) :
    execHalloc d a b o s = .next ((s.modHere fun x => x.setHandle n
      { x.handle n with bnd := true, base := (s.me.rd a).toNat, len := (s.me.rd b).toNat }).modMe fun x =>
        { x.wr d (BitVec.ofNat 64 n) with pc := x.pc + 4 }) := by
  rw [execHalloc, issue_ready _ hi]
  refine congrArg _ ((if_neg h).trans ?_)
  simp only [find_unbound_eq_some _ hn hfree hbelow, Strand.wr_next]

end
end

/-! ### HFREE and HWAIT (16 R368, R370, log 64) -/

theorem waitHandle_issues {s : State} {o : Order} (hi : s.me.ready [] o = true) (n : Nat) (want : HState) (unbind : Bool) :
    s.waitHandle n want unbind o = .next ((s.modMe fun x => { x.raise o.set.val with pc := x.pc + 4 }).modHere fun x =>
      { x with hwaits := x.hwaits ++ [⟨s.cur.strand, o.set.val, n, want, unbind⟩] }) := by
  simp only [Strand.raise_next]
  exact issue_ready _ hi

section
variable {s : State} {h : Fin 128} {t : HState} {o : Order} {e : Handle}

theorem execHfree_not_ready (hi : s.me.ready [] o = false) : execHfree h o s = .next s := by
  simp only [execHfree, State.waitHandle, issue_not_ready _ hi, ite_self]

theorem execHwait_not_ready (hi : s.me.ready [] o = false) : execHwait h t o s = .next s := by
  simp only [execHwait, State.waitHandle, issue_not_ready _ hi, hi, Bool.false_eq_true, if_false, ite_self]

variable (he : s.here.handle h.val = e)
include he

theorem execHfree_stands (hb : e.bnd = true) (hs : e.state ≠ .free) (ho : o.set = 0) : execHfree h o s = .next s := by
  rw [execHfree, if_pos (by simp [he, hb, hs]), if_pos ho]

variable (hi : s.me.ready [] o = true)
include hi

theorem execHfree_unbound (hb : e.bnd = false) : execHfree h o s = .next (s.modMe Strand.next) := by
  simp only [execHfree, he, hb, Bool.false_and, Bool.false_eq_true, if_false, issue_ready _ hi]

theorem execHfree_unbinds (hb : e.bnd = true) (hs : e.state = .free) :
    execHfree h o s = .next ((s.modMe Strand.next).putHandle s.cur.die s.cur.site h.val { e with bnd := false, len := 0 }) := by
  rw [execHfree, if_neg (by simp [he, hs]), issue_ready _ hi, he]
  exact congrArg _ (if_pos hb)

theorem execHfree_waits (hb : e.bnd = true) (hs : e.state ≠ .free) (ho : o.set ≠ 0) :
    execHfree h o s = .next ((s.modMe fun x => { x.raise o.set.val with pc := x.pc + 4 }).modHere fun x =>
      { x with hwaits := x.hwaits ++ [⟨s.cur.strand, o.set.val, h.val, .free, true⟩] }) := by
  rw [execHfree, if_pos (by simp [he, hb, hs]), if_neg ho]
  exact waitHandle_issues hi _ _ _

theorem execHwait_traps (hb : e.bnd = false) (ht : t ≠ .free) (hm : s.me.stand ≠ some (h.val, t, true)) :
    execHwait h t o s = .next (s.handleTrap h.val) := by
  rw [execHwait, if_neg (by simp [he, hb]), issue_ready _ hi]
  exact congrArg _ (if_pos (by simp [he, hb, ht, hm]))

theorem execHwait_passes (hp : e.bnd = false ∧ t = .free ∨ e.bnd = true ∧ e.state = t ∨ s.me.stand = some (h.val, t, true)) :
    execHwait h t o s = .next (s.modMe fun x => { x with pc := x.pc + 4, stand := none }) := by
  rw [execHwait, if_neg (by rcases hp with ⟨hb, -⟩ | ⟨-, hs⟩ | hm <;> simp [*]), issue_ready _ hi]
  exact congrArg _ (if_neg (by rcases hp with ⟨-, ht⟩ | ⟨hb, -⟩ | hm <;> simp [*]))

section
variable (hb : e.bnd = true) (hs : e.state ≠ t) (hm : s.me.stand ≠ some (h.val, t, true))
include hb hs hm

theorem execHwait_stands (ho : o.set = 0) : execHwait h t o s = .next (s.modMe fun x => { x with stand := some (h.val, t, false) }) := by
  rw [execHwait, if_pos (by simp [he, hb, hs, hm]), if_neg (not_not.2 ho), if_pos hi]

theorem execHwait_waits (ho : o.set ≠ 0) :
    execHwait h t o s = .next ((s.modMe fun x => { x.raise o.set.val with pc := x.pc + 4 }).modHere fun x =>
      { x with hwaits := x.hwaits ++ [⟨s.cur.strand, o.set.val, h.val, t, false⟩] }) := by
  rw [execHwait, if_pos (by simp [he, hb, hs, hm]), if_pos ho]
  exact waitHandle_issues hi _ _ _

end
end

/-! ### HSET (06 R144, R145, 16 R369) -/

/-- The table of R144 has no row for an HSET to `t` of a bound handle with this entry. -/
def Handle.noRow (e : Handle) (t : HState) : Prop :=
  t = .filling ∧ e.state ≠ .free ∨ t = .full ∧ ¬(e.state = .filling ∧ e.ws = true) ∨ t = .draining ∧ (e.state = .free ∨ e.state = .filling)
    ∨ t = .free ∧ e.state ≠ .draining

section
variable {s : State} {h : Fin 128} {o : Order} {e : Handle} (he : s.here.handle h.val = e)
include he

theorem execHset_waits_for_readers (hb : e.bnd = true) (hs : e.state = .draining) (hr : e.rd ≠ 0) : execHset h .free o s = .next s := by
  rw [execHset, if_pos (by simp [he, hb, hs, hr])]

theorem execHset_waits_for_accesses (hb : e.bnd = true) (hs : e.state = .filling) (hw : e.ws = true) (hu : s.unperformed = true) :
    execHset h .full o s = .next s := by
  rw [execHset, if_neg (by simp), if_pos (by simp [he, hb, hs, hw, hu])]

variable (hi : s.readyMem [] o = true)
include hi

theorem execHset_unbound (t : HState) (hb : e.bnd = false) : execHset h t o s = .next (s.handleTrap h.val) := by
  simp only [execHset, he, hb, Bool.false_and, Bool.false_eq_true, if_false, issueMem_ready _ hi, Bool.not_false, if_true]

section
variable (hb : e.bnd = true)
include hb

theorem execHset_filling (hs : e.state = .free) : execHset h .filling o s =
    .next ((s.modMe Strand.next).putHandle s.cur.die s.cur.site h.val { e.release with state := .filling, ws := true }) := by
  simp [execHset, he, hb, hs, issueMem_ready _ hi]

theorem execHset_full (hs : e.state = .filling) (hw : e.ws = true) (hu : s.unperformed = false) :
    execHset h .full o s = .next ((s.modMe Strand.next).putHandle s.cur.die s.cur.site h.val { e with state := .full }) := by
  simp [execHset, he, hb, hs, hw, hu, issueMem_ready _ hi]

theorem execHset_draining (hs : e.state = .full) :
    execHset h .draining o s = .next ((s.modMe Strand.next).putHandle s.cur.die s.cur.site h.val { e with state := .draining }) := by
  simp [execHset, he, hb, hs, issueMem_ready _ hi]

theorem execHset_draining_again (hs : e.state = .draining) : execHset h .draining o s = .next (s.modMe Strand.next) := by
  simp [execHset, he, hb, hs, issueMem_ready _ hi]

theorem execHset_free (hs : e.state = .draining) (hr : e.rd = 0) :
    execHset h .free o s = .next ((s.modMe Strand.next).putHandle s.cur.die s.cur.site h.val e.release) := by
  simp [execHset, he, hb, hs, hr, issueMem_ready _ hi]

theorem execHset_traps {t : HState} (ht : e.noRow t) : execHset h t o s = .next (s.handleTrap h.val) := by
  rcases ht with ⟨rfl, hs⟩ | ⟨rfl, hs⟩ | ⟨rfl, hs⟩ | ⟨rfl, hs⟩
  · cases hst : e.state <;> simp_all [execHset, issueMem_ready _ hi]
  · cases hst : e.state <;> simp_all [execHset, issueMem_ready _ hi]
  · rcases hs with hs | hs <;> simp [execHset, he, hb, hs, issueMem_ready _ hi]
  · cases hst : e.state <;> simp_all [execHset, issueMem_ready _ hi]

end
end

/-! ### HSTAT (16 R371) -/

/-- HSTAT writes the entry as it stands at the issue (log 101). -/
theorem execHstat_reads {s : State} {d : Reg} {h : Fin 128} {o : Order} (hi : s.me.ready [d] o = true) :
    execHstat d h o s = .next (s.modMe fun x => { x.wr d (s.here.handle h.val).entry with pc := x.pc + 4 }) := by
  simp only [execHstat, issue_ready _ hi, Strand.wr_next]

/-! ### A handle comes to another state (04 R93, 16 R368 to R370) -/

/-- A change of state that is made for each entry of a list keeps what each single one keeps. -/
theorem State.over_keeps {α β : Type} (g : State → β) {f : α → State → State} (hf : ∀ x u, g (f x u) = g u) (l : List α) (s : State) :
    g (s.over l f) = g s := by
  induction l generalizing s with
  | nil => rfl
  | cons x l ih => exact (ih (f x s)).trans (hf x s)

/-- An HWAIT or HFREE that waits for handle `h` to come to `want`. -/
def HandleWait.isFor (w : HandleWait) (h : Nat) (want : HState) : Bool := w.handle == h && w.want == want

theorem HandleWait.isFor_iff (w : HandleWait) (h : Nat) (want : HState) : w.isFor h want = true ↔ w.handle = h ∧ w.want = want := by
  simp only [HandleWait.isFor, Bool.and_eq_true, beq_iff_eq]

/-- A tile one of whose handles has come to a state, before the slots of those that waited for it fall. -/
def Tile.meet (x : Tile) (h : Nat) (want : HState) : Tile := { x with
  hwaits := x.hwaits.filter fun w => !w.isFor h want
  strands := x.strands.map fun y => if y.stand = some (h, want, false) then { y with stand := some (h, want, true) } else y
  handles :=
    if (x.hwaits.filter fun w => w.isFor h want).any (·.unbind) then tput x.handles h { x.handle h with bnd := false, len := 0 } else x.handles }

theorem meetWaits_eq (s : State) (d t h : Nat) (want : HState) : s.meetWaits d t h want =
    (s.modTile d t fun x => x.meet h want).over ((s.tile d t).hwaits.filter fun w => w.isFor h want)
      fun w u => u.lowerSlot d t w.strand w.slot := rfl

theorem Tile.strand_meet (x : Tile) (h : Nat) (want : HState) (k : Nat) : (x.meet h want).strand k =
    if (x.strand k).stand = some (h, want, false) then { x.strand k with stand := some (h, want, true) } else x.strand k :=
  Vector.getElem_map _ _

@[simp] theorem Strand.lower_stand (t : Strand) (n : Nat) : (t.lower n).stand = t.stand := by unfold Strand.lower; split <;> rfl

theorem Strand.lower_sb_congr {t u : Strand} (h : t.sb = u.sb) (n : Nat) : (t.lower n).sb = (u.lower n).sb := by
  unfold Strand.lower
  split <;> simp [h]

theorem Tile.strand_congr (t : Tile) {j k : Nat} (h : j % 4 = k % 4) : t.strand j = t.strand k := by
  simp only [Tile.strand, vget, h]

section
variable (s : State) (d t : Nat) (l : List HandleWait)

/-- The slots of a list of waits fall. -/
def State.lowerAll : State := s.over l fun w u => u.lowerSlot d t w.strand w.slot

theorem State.lowerAll_hwaits : ((s.lowerAll d t l).tile d t).hwaits = (s.tile d t).hwaits :=
  State.over_keeps (fun u => (u.tile d t).hwaits) (fun w u => by simp [State.lowerSlot, State.tile_modStrand, Tile.setStrand]) l s

theorem State.lowerAll_handle (n : Nat) : ((s.lowerAll d t l).tile d t).handle n = (s.tile d t).handle n :=
  State.over_keeps (fun u => (u.tile d t).handle n) (fun w u => by simp [State.lowerSlot, State.tile_modStrand, Tile.setStrand, Tile.handle]) l s

theorem State.lowerAll_stand (k : Nat) : ((s.lowerAll d t l).strand d t k).stand = (s.strand d t k).stand := by
  refine State.over_keeps (fun u => (u.strand d t k).stand) (fun w u => ?_) l s
  simp only [State.lowerSlot, State.strand, State.tile_modStrand, if_true, Tile.strand_setStrand]
  split
  next hk => rw [Strand.lower_stand, Tile.strand_congr _ hk]
  next => rfl

end

section
variable {s : State} {d y n : Nat} {e : Handle}

/-- A new entry in the same state lets nothing pass. -/
theorem putHandle_same (h : ((s.tile d y).handle n).state = e.state) : s.putHandle d y n e = s.modTile d y fun x => x.setHandle n e := by
  simp only [State.putHandle, h, beq_self_eq_true, if_true]

/-- The tile of a handle that has a new entry in another state, before slots fall. -/
def State.arrived (s : State) (d y n : Nat) (e : Handle) : State := s.modTile d y fun x => (x.setHandle n e).meet n e.state

@[simp] theorem State.tile_arrived : (s.arrived d y n e).tile d y = ((s.tile d y).setHandle n e).meet n e.state := State.tile_modTile_self _ _ _ _

variable (h : ((s.tile d y).handle n).state ≠ e.state)
include h

theorem putHandle_other :
    s.putHandle d y n e = (s.arrived d y n e).lowerAll d y ((s.tile d y).hwaits.filter fun w => w.isFor n e.state) := by
  simp only [State.putHandle, beq_iff_eq, h, if_false, meetWaits_eq, State.modTile_modTile, State.tile_modTile_self]
  rfl

theorem putHandle_hwaits : ((s.putHandle d y n e).tile d y).hwaits = (s.tile d y).hwaits.filter fun w => !w.isFor n e.state := by
  rw [putHandle_other h, State.lowerAll_hwaits, State.tile_arrived]
  rfl

theorem putHandle_stand (k : Nat) : ((s.putHandle d y n e).strand d y k).stand =
    if (s.strand d y k).stand = some (n, e.state, false) then some (n, e.state, true) else (s.strand d y k).stand := by
  rw [putHandle_other h, State.lowerAll_stand, State.strand, State.tile_arrived, Tile.strand_meet]
  exact apply_ite Strand.stand _ _ _

theorem putHandle_lowers {w : HandleWait} (hw : (s.tile d y).hwaits.filter (fun w => w.isFor n e.state) = [w]) :
    ((s.putHandle d y n e).strand d y w.strand).sb = ((s.strand d y w.strand).lower w.slot).sb := by
  have hlow : ((s.putHandle d y n e).strand d y w.strand) = ((s.arrived d y n e).strand d y w.strand).lower w.slot := by
    rw [putHandle_other h, hw]
    exact (s.arrived d y n e).strand_modStrand_self d y w.strand fun x => x.lower w.slot
  rw [hlow]
  refine Strand.lower_sb_congr ?_ _
  rw [State.strand, State.tile_arrived, Tile.strand_meet]
  exact (apply_ite Strand.sb _ _ _).trans (ite_self _)

theorem putHandle_handle : ((s.putHandle d y n e).tile d y).handle n =
    if ((s.tile d y).hwaits.filter fun w => w.isFor n e.state).any (·.unbind) then { e with bnd := false, len := 0 } else e := by
  rw [putHandle_other h, State.lowerAll_handle, State.tile_arrived]
  simp only [Tile.meet, Tile.handle, Tile.setHandle, tgetD_tput_self]
  split <;> exact tgetD_tput_self _ _ _ _

theorem putHandle_stays_bound (hw : ∀ w ∈ (s.tile d y).hwaits, w.handle = n → w.want = e.state → w.unbind = false) :
    ((s.putHandle d y n e).tile d y).handle n = e := by
  rw [putHandle_handle h, if_neg]
  simpa [HandleWait.isFor_iff] using hw

theorem putHandle_unbinds {w : HandleWait} (hw : w ∈ (s.tile d y).hwaits) (hn : w.handle = n) (hs : w.want = e.state) (hu : w.unbind = true) :
    ((s.putHandle d y n e).tile d y).handle n = { e with bnd := false, len := 0 } := by
  rw [putHandle_handle h, if_pos]
  exact List.any_eq_true.2 ⟨w, List.mem_filter.2 ⟨hw, (w.isFor_iff _ _).2 ⟨hn, hs⟩⟩, hu⟩

end

/-- Settles O30: HALLOC, then HFREE and HWAIT, HSET, HSTAT, and last a handle that takes a new entry. -/
theorem handleInstructions : Obligations.HandleInstructions := by
  unfold Obligations.HandleInstructions
  intro s d a b h t o e passed trap put sent
  refine ⟨?alloc, ?standing, execHfree_stands rfl, fun hi => ⟨execHfree_not_ready hi, execHwait_not_ready hi⟩, ?set,
    execHset_waits_for_readers rfl, execHset_waits_for_accesses rfl, execHstat_reads, ?entry⟩
  case alloc =>
    exact fun hi => ⟨execHalloc_ill hi, execHalloc_none_left hi, fun n hn hok hfree => execHalloc_binds hi hok hn hfree⟩
  case standing =>
    exact fun hi => ⟨execHfree_unbound rfl hi, execHfree_unbinds rfl hi, execHfree_waits rfl hi, execHwait_traps rfl hi, execHwait_passes rfl hi,
      fun hb hs hm => ⟨execHwait_stands rfl hi hb hs hm, execHwait_waits rfl hi hb hs hm⟩⟩
  case set =>
    exact fun hi => ⟨execHset_unbound rfl hi t, execHset_filling rfl hi, execHset_full rfl hi, execHset_draining rfl hi,
      execHset_draining_again rfl hi, execHset_free rfl hi, fun hb ht => execHset_traps rfl hi hb ht⟩
  case entry =>
    intro d y n e was u waits
    exact ⟨putHandle_same, fun hne => ⟨putHandle_hwaits hne, fun k _ => putHandle_stand hne k,
      fun w hw k _ => congrArg (vget · k) (putHandle_lowers hne hw), putHandle_stays_bound hne, fun w => putHandle_unbinds hne⟩⟩

end Sys2Proof.Machine
end

section
/-! PROOFS. The commands of the copy and stream engines (spec 06 R162, R163, 15 R346 to R348, 18 R410 to R415): how a strand issues them, and what each
does at the head of its tile's command queue. -/
namespace Sys2Proof.Machine

/-! ### The command queue as a strand finds it (06 R163, 18 R410) -/

/-- The state once the strand that has the move has put a command into its tile's queue (06 R163). -/
def State.queues (s : State) (o : Order) (kind unit : Nat) (arg : Word) : State :=
  (s.modMe fun t => { t.raise o.set.val with pc := t.pc + 4 }).modHere fun t =>
    { t with cmdq := t.cmdq ++ [⟨kind, s.cur.strand, o.set.val, arg, unit⟩] }

theorem putCommand_eq (s : State) (kind unit : Nat) (arg : Word) (o : Order) : s.putCommand kind unit arg o = s.queues o kind unit arg := by
  simp only [State.putCommand, State.queues, Strand.raise_next]

theorem engineRoom_eq_true {s : State} (h : s.here.cmdq.length < 16) : s.engineRoom = true := decide_eq_true h
theorem engineRoom_eq_false {s : State} (h : 16 ≤ s.here.cmdq.length) : s.engineRoom = false := decide_eq_false (Nat.not_lt.2 h)

/-- No stream command that names engine `e` stands in the queue (18 R410). -/
def State.streamFree (s : State) (e : Nat) : Prop := ∀ c ∈ s.here.cmdq, ¬(4 ≤ c.kind ∧ c.unit = e)

theorem streamQueued_eq_false_iff (s : State) (e : Nat) : s.streamQueued e = false ↔ s.streamFree e := by
  simp [State.streamQueued, State.streamFree]

theorem streamQueued_eq_true {s : State} {e : Nat} (h : ¬s.streamFree e) : s.streamQueued e = true :=
  Bool.of_not_eq_false (mt (streamQueued_eq_false_iff s e).1 h)

theorem streamBusy_eq_false_iff (s : State) (e : Nat) :
    s.streamBusy e = false ↔ (s.here.stream e).state ≠ .run ∧ (s.here.stream e).state ≠ .parked := by
  simp only [State.streamBusy, Bool.or_eq_false_iff, beq_eq_false_iff_ne]

theorem streamBusy_eq_true {s : State} {e : Nat} (h : ¬((s.here.stream e).state ≠ .run ∧ (s.here.stream e).state ≠ .parked)) :
    s.streamBusy e = true :=
  Bool.of_not_eq_false (mt (streamBusy_eq_false_iff s e).1 h)

/-! ### CPY, CPYC, CPYT and CPYQ issue (15 R346 to R348) -/

section
variable {s : State} {a : Reg} {o : Order} (i : Instr) (kind unit : Nat)

theorem issueCopy_waits (h : 16 ≤ s.here.cmdq.length) : issueCopy s a o i kind unit = .next s := by
  simp only [issueCopy, engineRoom_eq_false h, Bool.not_false, if_true]

theorem execCpyq_waits (q : Fin 64) (h : 16 ≤ s.here.cmdq.length ∨ 8 ≤ (s.here.queue q.val).length) : execCpyq a q o s = .next s := by
  rw [execCpyq, if_pos]
  rcases h with h | h
  · simp [engineRoom_eq_false h]
  · simp [h]

variable (hroom : s.here.cmdq.length < 16) (hi : s.readyCommand [a] o = true)
include hroom hi

theorem issueCopy_issues : issueCopy s a o i kind unit = .next (if 0x200000 ≤ (s.me.rd a).toNat then s.illOperand i
    else if (s.me.rd a).toNat % 32 ≠ 0 then s.trapMe 4 5 (s.me.rd a) else s.queues o kind unit (s.me.rd a)) := by
  simp only [issueCopy, engineRoom_eq_true hroom, Bool.not_true, Bool.false_eq_true, if_false, issueCommand_ready _ hi, putCommand_eq]

theorem issueCopy_outside (h : 0x200000 ≤ (s.me.rd a).toNat) : issueCopy s a o i kind unit = .next (s.illOperand i) := by
  rw [issueCopy_issues i kind unit hroom hi, if_pos h]

theorem issueCopy_misaligned (h : (s.me.rd a).toNat < 0x200000) (h32 : (s.me.rd a).toNat % 32 ≠ 0) :
    issueCopy s a o i kind unit = .next (s.trapMe 4 5 (s.me.rd a)) := by
  rw [issueCopy_issues i kind unit hroom hi, if_neg (Nat.not_le.2 h), if_pos h32]

theorem issueCopy_queues (h : (s.me.rd a).toNat < 0x200000) (h32 : (s.me.rd a).toNat % 32 = 0) :
    issueCopy s a o i kind unit = .next (s.queues o kind unit (s.me.rd a)) := by
  rw [issueCopy_issues i kind unit hroom hi, if_neg (Nat.not_le.2 h), if_neg (not_not.2 h32)]

theorem execCpyq_queues (q : Fin 64) (h : (s.here.queue q.val).length < 8) : execCpyq a q o s = .next (s.queues o 3 q.val (s.me.rd a)) := by
  rw [execCpyq, if_neg (by simp [engineRoom_eq_true hroom, h]), issueCommand_ready _ hi, putCommand_eq]

end

/-! ### SCFG, SWIN, SGO, SHALT and SSTAT issue (18 R411 to R415) -/

section
variable {s : State} {a : Reg} {e : Fin 8} {o : Order}

theorem execScfg_waits (h : s.engineRoom = false ∨ s.streamQueued e.val = true ∨ s.streamBusy e.val = true) : execScfg a e o s = .next s := by
  rw [execScfg, if_pos (by rcases h with h | h | h <;> simp [h])]

theorem execSwin_waits (h : s.engineRoom = false ∨ s.streamQueued e.val = true) : execSwin a e o s = .next s := by
  rw [execSwin, if_pos (by rcases h with h | h <;> simp [h])]

theorem execSgo_waits (h : s.engineRoom = false ∨ s.streamQueued e.val = true ∨ s.streamBusy e.val = true) : execSgo e o s = .next s := by
  rw [execSgo, if_pos (by rcases h with h | h | h <;> simp [h])]

theorem execShalt_waits (h : s.engineRoom = false ∨ s.streamQueued e.val = true) : execShalt e o s = .next s := by
  rw [execShalt, if_pos (by rcases h with h | h <;> simp [h])]

theorem execSstat_waits {d : Reg} (h : s.streamQueued e.val = true) : execSstat d e o s = .next s := if_pos h

section
variable (hfree : s.streamFree e.val)
include hfree

/-- SSTAT writes the status word as it stands at the issue (log 101). -/
theorem execSstat_reads {d : Reg} (hi : s.me.ready [d] o = true) :
    execSstat d e o s = .next (s.modMe fun t => { t.wr d (s.here.stream e.val).status with pc := t.pc + 4 }) := by
  simp only [execSstat, (streamQueued_eq_false_iff s _).2 hfree, Bool.false_eq_true, if_false, issue_ready _ hi, Strand.wr_next]

variable (hroom : s.here.cmdq.length < 16)
include hroom

section
variable (hi : s.readyCommand [a] o = true)
include hi

section
variable (hstill : (s.here.stream e.val).state ≠ .run ∧ (s.here.stream e.val).state ≠ .parked)
include hstill

theorem execScfg_issues : execScfg a e o s = .next (if 0x1FFFD1 ≤ (s.me.rd a).toNat then s.illOperand (.scfg a e o)
    else if (s.me.rd a).toNat % 16 ≠ 0 then s.trapMe 4 4 (s.me.rd a) else s.queues o 4 e.val (s.me.rd a)) := by
  simp only [execScfg, engineRoom_eq_true hroom, (streamQueued_eq_false_iff s _).2 hfree, (streamBusy_eq_false_iff s _).2 hstill, Bool.not_true,
    Bool.or_false, Bool.false_eq_true, if_false, issueCommand_ready _ hi, putCommand_eq]

theorem execScfg_outside (h : 0x200000 ≤ (s.me.rd a).toNat + 47) : execScfg a e o s = .next (s.illOperand (.scfg a e o)) := by
  rw [execScfg_issues hfree hroom hi hstill, if_pos (by omega)]

theorem execScfg_misaligned (h : (s.me.rd a).toNat + 47 < 0x200000) (h16 : (s.me.rd a).toNat % 16 ≠ 0) :
    execScfg a e o s = .next (s.trapMe 4 4 (s.me.rd a)) := by
  rw [execScfg_issues hfree hroom hi hstill, if_neg (by omega), if_pos h16]

theorem execScfg_queues (h : (s.me.rd a).toNat + 47 < 0x200000) (h16 : (s.me.rd a).toNat % 16 = 0) :
    execScfg a e o s = .next (s.queues o 4 e.val (s.me.rd a)) := by
  rw [execScfg_issues hfree hroom hi hstill, if_neg (by omega), if_neg (not_not.2 h16)]

end

theorem execSwin_issues : execSwin a e o s = .next (if (s.here.stream e.val).windowBad (s.me.rd a) then s.illOperand (.swin a e o)
    else s.queues o 5 e.val (s.me.rd a)) := by
  simp only [execSwin, engineRoom_eq_true hroom, (streamQueued_eq_false_iff s _).2 hfree, Bool.not_true, Bool.or_false, Bool.false_eq_true, if_false,
    issueCommand_ready _ hi, putCommand_eq]

theorem execSwin_queues (h : (s.here.stream e.val).windowBad (s.me.rd a) = false) :
    execSwin a e o s = .next (s.queues o 5 e.val (s.me.rd a)) := by
  rw [execSwin_issues hfree hroom hi, if_neg (Bool.eq_false_iff.1 h)]

theorem execSwin_ill (h : (s.here.stream e.val).windowBad (s.me.rd a) = true) : execSwin a e o s = .next (s.illOperand (.swin a e o)) := by
  rw [execSwin_issues hfree hroom hi, if_pos h]

end

section
variable (hi : s.readyCommand [] o = true)
include hi

theorem execSgo_queues (h : (s.here.stream e.val).state = .ready) : execSgo e o s = .next (s.queues o 6 e.val 0) := by
  rw [execSgo, if_neg (by simp [engineRoom_eq_true hroom, (streamQueued_eq_false_iff s _).2 hfree, State.streamBusy, h]), issueCommand_ready _ hi,
    if_neg (by simp [h]), putCommand_eq]

theorem execSgo_ill (h : (s.here.stream e.val).state = .idle ∨ (s.here.stream e.val).state = .fault) :
    execSgo e o s = .next (s.trapMe 1 5 (BitVec.ofNat 64 e.val)) := by
  have hstill : s.streamBusy e.val = false := (streamBusy_eq_false_iff s _).2 (by rcases h with h | h <;> simp [h])
  rw [execSgo, if_neg (by simp [engineRoom_eq_true hroom, (streamQueued_eq_false_iff s _).2 hfree, hstill]), issueCommand_ready _ hi,
    if_pos (by rcases h with h | h <;> simp [h])]

theorem execShalt_queues : execShalt e o s = .next (s.queues o 7 e.val 0) := by
  rw [execShalt, if_neg (by simp [engineRoom_eq_true hroom, (streamQueued_eq_false_iff s _).2 hfree]), issueCommand_ready _ hi, putCommand_eq]

end
end
end

/-! ### The command at the head of the queue (06 R162, R163) -/

section
variable {s : State} {d t : Nat} {c : EngineCmd}

section
variable {rest : List EngineCmd} (hq : (s.tile d t).cmdq = c :: rest)
include hq

theorem engineTurn_starts {u : State} (h : s.startCommand d t c = some u) :
    s.engineTurn d t = u.modTile d t fun x => { x with cmdq := rest } := by
  simp only [State.engineTurn, hq, h]

theorem engineTurn_waits (h : s.startCommand d t c = none) : s.engineTurn d t = s := by
  simp only [State.engineTurn, hq, h]

end

section
variable (hk : c.kind ≤ 1)
include hk

theorem startCommand_copy_waits (h : 128 ≤ (s.tile d t).jobs.length) : s.startCommand d t c = none := by
  obtain hk | hk := Nat.le_one_iff_eq_zero_or_eq_one.1 hk <;> simp only [State.startCommand, hk, if_pos h]

variable (h : (s.tile d t).jobs.length < 128)
include h

theorem startCommand_copy {y : CopyDesc} (hy : (s.view d t true).1.copyDesc c.arg.toNat (c.kind == 1) = .ok y) :
    s.startCommand d t c = some ((s.view d t true).2.startCopy d t y c.strand c.slot false) := by
  obtain hk | hk := Nat.le_one_iff_eq_zero_or_eq_one.1 hk <;> simp only [hk] at hy <;>
    simp only [State.startCommand, hk, if_neg (Nat.not_le.2 h), hy]

theorem startCommand_copy_faults {r : Report} (hr : (s.view d t true).1.copyDesc c.arg.toNat (c.kind == 1) = .error r) :
    s.startCommand d t c = some ((s.view d t true).2.endCommand d t c.strand c.slot (some r)) := by
  obtain hk | hk := Nat.le_one_iff_eq_zero_or_eq_one.1 hk <;> simp only [hk] at hr <;>
    simp only [State.startCommand, hk, if_neg (Nat.not_le.2 h), hr]

end

section
variable (hk : c.kind = 2)
include hk

theorem startCommand_disarms (ha : c.arg = 0) :
    s.startCommand d t c = some ((s.modTile d t fun x => x.disarm c.unit).endCommand d t c.strand c.slot none) := by
  simp only [State.startCommand, hk, if_pos ha]

variable (ha : c.arg ≠ 0)
include ha

theorem startCommand_arms {y : CopyDesc} (hy : (s.view d t true).1.copyDesc c.arg.toNat false = .ok y) : s.startCommand d t c =
    some (((s.view d t true).2.modTile d t fun x => x.arm c.unit ⟨y, c.strand⟩).endCommand d t c.strand c.slot none) := by
  simp only [State.startCommand, hk, if_neg ha, hy]

theorem startCommand_template_faults {r : Report} (hr : (s.view d t true).1.copyDesc c.arg.toNat false = .error r) :
    s.startCommand d t c = some ((s.view d t true).2.endCommand d t c.strand c.slot (some r)) := by
  simp only [State.startCommand, hk, if_neg ha, hr]

end

/-- A descriptor that a copy or a template may not have ends its command with a report. -/
theorem startCommand_faults {r : Report} (hk : c.kind ≤ 1 ∧ (s.tile d t).jobs.length < 128 ∨ c.kind = 2 ∧ c.arg ≠ 0)
    (hr : (s.view d t true).1.copyDesc c.arg.toNat (c.kind == 1) = .error r) :
    s.startCommand d t c = some ((s.view d t true).2.endCommand d t c.strand c.slot (some r)) := by
  rcases hk with ⟨hk, h⟩ | ⟨hk, ha⟩
  · exact startCommand_copy_faults hk h hr
  · rw [hk] at hr
    exact startCommand_template_faults hk ha hr

theorem startCommand_token (hk : c.kind = 3) (h : ((s.tile d t).queue c.unit).length < 8) : s.startCommand d t c =
    some ((s.modTile d t fun x => x.putToken c.unit ⟨c.arg, false, .none, none⟩).endCommand d t c.strand c.slot none) := by
  simp only [State.startCommand, hk, if_neg (Nat.not_le.2 h)]

theorem startCommand_configures (hk : c.kind = 4) : s.startCommand d t c = some (s.configureStream d t c) := by
  simp only [State.startCommand, hk]

theorem startCommand_window (hk : c.kind = 5) : s.startCommand d t c =
    some ((s.modStream d t c.unit fun y => { y with window := some c.arg }).endCommand d t c.strand c.slot none) := by
  simp only [State.startCommand, hk]

theorem startCommand_goes (hk : c.kind = 6) : s.startCommand d t c = some (s.startStream d t c) := by
  simp only [State.startCommand, hk]

theorem startCommand_halts (hk : c.kind = 7) : s.startCommand d t c = s.haltStream d t c := by
  simp only [State.startCommand, hk]

theorem haltStream_still (hr : ((s.tile d t).stream c.unit).state ≠ .run) (hp : ((s.tile d t).stream c.unit).state ≠ .parked) :
    s.haltStream d t c = some (s.lowerSlot d t c.strand c.slot) := by
  rw [State.haltStream, if_neg (by simp [hr]), if_neg (by simp [hr, hp])]

end

/-- Settles O31: the commands as they issue, with one operand, with none and where they wait, then the head of the queue. -/
theorem engineCommandsIssue : Obligations.EngineCommandsIssue := by
  unfold Obligations.EngineCommandsIssue
  intro s d a q e o
  refine ⟨⟨?operand, ?plain, ?full, ?queued, ?busy, fun h => execCpyq_waits q (.inr h), fun hfree => execSstat_reads hfree⟩, ?turn⟩
  case operand =>
    intro hroom hi
    exact ⟨fun h h32 => ⟨issueCopy_queues _ 0 0 hroom hi h h32, issueCopy_queues _ 1 0 hroom hi h h32, issueCopy_queues _ 2 q.val hroom hi h h32⟩,
      fun h h32 => ⟨issueCopy_misaligned _ 0 0 hroom hi h h32, issueCopy_misaligned _ 1 0 hroom hi h h32,
        issueCopy_misaligned _ 2 q.val hroom hi h h32⟩,
      issueCopy_outside _ 0 0 hroom hi, execCpyq_queues hroom hi q,
      fun hfree hstill => execScfg_queues hfree hroom hi hstill, fun hfree hstill => execScfg_outside hfree hroom hi hstill,
      fun hfree hstill => execScfg_misaligned hfree hroom hi hstill,
      fun hfree => execSwin_queues hfree hroom hi, fun hfree => execSwin_ill hfree hroom hi⟩
  case plain =>
    exact fun hroom hi hfree => ⟨execSgo_queues hfree hroom hi, execSgo_ill hfree hroom hi, execShalt_queues hfree hroom hi⟩
  case full =>
    intro h
    have hfull := engineRoom_eq_false h
    exact ⟨issueCopy_waits _ 0 0 h, issueCopy_waits _ 1 0 h, issueCopy_waits _ 2 q.val h, execCpyq_waits q (.inl h), execScfg_waits (.inl hfull),
      execSwin_waits (.inl hfull), execSgo_waits (.inl hfull), execShalt_waits (.inl hfull)⟩
  case queued =>
    intro hfree
    have hq := streamQueued_eq_true hfree
    exact ⟨execScfg_waits (.inr (.inl hq)), execSwin_waits (.inr hq), execSgo_waits (.inr (.inl hq)), execShalt_waits (.inr hq), execSstat_waits hq⟩
  case busy =>
    intro hstill
    have hb := streamBusy_eq_true hstill
    exact ⟨execScfg_waits (.inr (.inr hb)), execSgo_waits (.inr (.inr hb))⟩
  case turn =>
    intro k t c rest hq x does ended v seen
    have starts {u : State} (h : s.startCommand k t c = some u) : does u := engineTurn_starts hq h
    exact ⟨fun y hk h hy => starts (startCommand_copy hk h hy), fun r hk hr => starts (startCommand_faults hk hr),
      fun hk h => engineTurn_waits hq (startCommand_copy_waits hk h), fun y hk ha hy => starts (startCommand_arms hk ha hy),
      fun hk ha => starts (startCommand_disarms hk ha), fun hk h => starts (startCommand_token hk h), fun hk => starts (startCommand_configures hk),
      fun hk => starts (startCommand_window hk), fun hk => starts (startCommand_goes hk),
      fun hk hr hp => starts ((startCommand_halts hk).trans (haltStream_still hr hp)),
      fun hk u hu => starts ((startCommand_halts hk).trans hu)⟩

end Sys2Proof.Machine
end

section
/-! PROOFS. The work of copy engines, named queues and stream engines (spec 06 R144, R148 to R158, R161): what each event does under each of its
conditions. -/
namespace Sys2Proof.Machine

/-! ### Copies (06 R144, R148 to R150) -/

theorem Tile.job_id {t : Tile} {id : Nat} {j : Job} (h : t.job id = some j) : j.id = id := by
  simpa using List.find?_some h

/-- A tile's copies are no part of its region. -/
theorem State.sites_modJobs (s : State) (d t : Nat) (f : List Job → List Job) :
    ((s.modTile d t fun x => { x with jobs := f x.jobs }).tile d t).sites = (s.tile d t).sites :=
  (congrArg Tile.sites (s.tile_modTile_self d t _)).trans rfl

section
variable {s : State} {d t id : Nat} {j : Job}

theorem releaseSource_none (h : j.acquired = false) : s.releaseSource d t j = s := if_neg (by simp [h])

theorem releaseSource_acquired (h : j.acquired = true) : s.releaseSource d t j =
    (s.endConsumer d ((s.tile d t).siteAt j.desc.sx j.desc.sy) j.desc.sh j.desc.rel).modJob d t j.id fun j => { j with acquired := false } :=
  if_pos h

variable (hj : (s.tile d t).job id = some j)
include hj

theorem execEngineWrite_writes (hw : j.wait = false) (hd : j.done < j.desc.len) (hs : j.desc.sk ≠ 2 ∨ j.acquired = true) :
    execEngineWrite d t id s = .next (if j.staging.isSome then s.stageUnit d t j else s.copyUnit d t j) := by
  simp only [execEngineWrite, hj]
  exact if_neg (by rcases hs with hs | hs <;> simp [hw, hd, hs])

section
variable (hd : j.desc.len ≤ j.done) (ha : j.acquired = false)
include hd ha

theorem execCopyCompletion_ends (hs : j.staging = none) :
    execCopyCompletion d t id s = .next ((s.endJob d t id).lowerSlot d t j.strand j.slot) := by
  simp only [execCopyCompletion, hj, if_neg (Nat.not_lt.2 hd), releaseSource_none ha, hs, Option.isSome_none, Bool.false_eq_true, if_false]

theorem execCopyCompletion_staged (hs : j.staging ≠ none) : execCopyCompletion d t id s = .next (s.endJob d t id) := by
  simp only [execCopyCompletion, hj, if_neg (Nat.not_lt.2 hd), releaseSource_none ha, Option.isSome_iff_ne_none.2 hs, if_true]

end

theorem execEngineConsumerEnd_copy (ha : j.acquired = true) (hd : j.desc.len ≤ j.done) : execEngineConsumerEnd d t (id + 8) s =
    .next ((s.endConsumer d ((s.tile d t).siteAt j.desc.sx j.desc.sy) j.desc.sh j.desc.rel).modJob d t j.id fun j => { j with acquired := false }) := by
  simp only [execEngineConsumerEnd, if_neg (Nat.not_lt.2 (Nat.le_add_left 8 id)), Nat.add_sub_cancel, hj, if_pos hd, releaseSource_acquired ha]

theorem execEngineConsumerStart_copy (hs : j.desc.sk = 2) (ha : j.acquired = false) (hd : j.done = 0) :
    execEngineConsumerStart d t (id + 8) s = .next (s.acquireSource d t j) := by
  simp only [execEngineConsumerStart, if_neg (Nat.not_lt.2 (Nat.le_add_left 8 id)), Nat.add_sub_cancel, hj]
  exact if_pos (by simp [hs, ha, hd])

end

/-- A copy that ends leaves the tile's list, and what it wrote in the region is settled (06 R150, 09 R230). -/
theorem endJob_eq (s : State) (d t id : Nat) :
    let left := s.modTile d t fun x => { x with jobs := x.jobs.filter fun q => q.id != id }
    s.endJob d t id = left.over (left.tile d t).sites fun y s => s.modTile d y fun z => z.settleRaces (.engine (8 + id)) := by
  intro left
  rw [s.sites_modJobs d t]
  rfl

/-! ### Stream engines as consumers of a handle (06 R144) -/

section
variable {s : State} {d t e : Nat} {x : Stream}

section
variable (hrun : x.state = .run) (hk : x.kind = 0) (hu : x.hu = true) (ha : x.acquired = false) (hp : x.pos < x.total)
include hrun hk hu ha hp

/-- The test by which `execEngineConsumerStart` leaves a stream alone fails for a run that has yet to take its source handle. -/
theorem streamMayAcquire : ¬(x.state != .run || x.kind != 0 || !x.hu || x.acquired || decide (x.total ≤ x.pos)) = true := by
  simp [hrun, hk, hu, ha, hp]

variable (hx : (s.tile d t).stream e = x) (he : e < 8)
include hx he

theorem execEngineConsumerStart_goes (hs : ((s.tile d t).handle x.hnd).startConsumer x.hnd x.swz = .go) :
    execEngineConsumerStart d t e s = .next ((s.beginConsumer d t x.hnd).modStream d t e fun x => { x with acquired := true }) := by
  simp only [execEngineConsumerStart, if_pos he, hx, if_neg (streamMayAcquire hrun hk hu ha hp), hs]

theorem execEngineConsumerStart_waits (hs : ((s.tile d t).handle x.hnd).startConsumer x.hnd x.swz = .wait) :
    execEngineConsumerStart d t e s = .next s := by
  simp only [execEngineConsumerStart, if_pos he, hx, if_neg (streamMayAcquire hrun hk hu ha hp), hs]

theorem execEngineConsumerStart_faults {r : Report} (hs : ((s.tile d t).handle x.hnd).startConsumer x.hnd x.swz = .fault r) :
    execEngineConsumerStart d t e s = .next (s.streamFault d t e r (BitVec.ofInt 64 (x.address (x.visit 0)))) := by
  simp only [execEngineConsumerStart, if_pos he, hx, if_neg (streamMayAcquire hrun hk hu ha hp), hs]

end

theorem execEngineConsumerEnd_stream (hx : (s.tile d t).stream e = x) (he : e < 8) (ha : x.acquired = true) (hp : x.total ≤ x.pos) :
    execEngineConsumerEnd d t e s = .next ((s.endConsumer d t x.hnd x.rel).modStream d t e fun x => { x with acquired := false }) := by
  simp only [execEngineConsumerEnd, if_pos he, hx, ha, decide_eq_true hp, Bool.and_self, if_true]

end

/-! ### Named queues (06 R151 to R153) -/

/-- A token that R153 lets start a copy: NL at least 1, the reserved bits 0 (06 R151). -/
def WellFormedToken (k : Token) : Prop := bits k.bits.toNat 10 15 ≠ 0 ∧ bits k.bits.toNat 0 10 = 0

theorem malformed_iff (k : Token) : (bits k.bits.toNat 10 15 == 0 || bits k.bits.toNat 0 10 != 0) = true ↔ ¬WellFormedToken k := by
  simp only [WellFormedToken, Bool.or_eq_true, beq_iff_eq, bne_iff_ne, ne_eq, not_and_or, not_not]

/-- The state once the token `k` has left the head of its queue: the next one takes its place, and the credit returns (06 R151, R153). -/
def State.tokenLeaves (s : State) (d t q : Nat) (k : Token) (rest : List Token) : State :=
  (s.modTile d t fun x => ((x.setQueue q rest).headToken q).settleRaces .grid).returnCredit d t k.src

/-- The copy that a token starts: its template's, at the token's offsets and length (06 R153). -/
def Template.fired (p : Template) (k : Token) : CopyDesc := { p.desc with
  saddr := p.desc.saddr + 64 * bits k.bits.toNat 40 24, daddr := p.desc.daddr + 64 * bits k.bits.toNat 25 15, len := 64 * bits k.bits.toNat 10 15 }

section
variable {s : State} {d t q : Nat} {k : Token} {rest : List Token} (hq : (s.tile d t).queue q = k :: rest)
include hq

theorem execTokenFire_unarmed (hp : k.tpl = none) : execTokenFire d t q s = .next s := by
  simp only [execTokenFire, hq, hp]

variable {p : Template} (hp : k.tpl = some p)
include hp

theorem execTokenFire_poisoned (hk : k.psn = true) :
    execTokenFire d t q s = .next ((s.tokenLeaves d t q k rest).routeReport d t p.strand ⟨8, 3, 0⟩) := by
  simp only [execTokenFire, hq, hp, hk, Bool.not_true, Bool.false_and, Bool.false_eq_true, if_false, if_true]
  rfl

variable (hk : k.psn = false)
include hk

theorem execTokenFire_malformed (hm : ¬WellFormedToken k) :
    execTokenFire d t q s = .next ((s.tokenLeaves d t q k rest).routeReport d t p.strand ⟨1, 6, k.bits⟩) := by
  simp only [execTokenFire, hq, hp, hk, (malformed_iff k).2 hm, Bool.not_true, Bool.and_false, Bool.false_and, Bool.false_eq_true, if_false, if_true]
  rfl

section
variable (hm : WellFormedToken k)
include hm

theorem execTokenFire_waits (hj : 128 ≤ (s.tile d t).jobs.length) : execTokenFire d t q s = .next s := by
  have hok := Bool.eq_false_iff.2 (mt (malformed_iff k).1 (not_not.2 hm))
  simp only [execTokenFire, hq, hp, hk, hok, decide_eq_true hj, Bool.not_false, Bool.and_true, if_true]

theorem execTokenFire_fires (hj : (s.tile d t).jobs.length < 128) :
    execTokenFire d t q s = .next ((s.tokenLeaves d t q k rest).startCopy d t (p.fired k) p.strand 0 true) := by
  have hok := Bool.eq_false_iff.2 (mt (malformed_iff k).1 (not_not.2 hm))
  simp only [execTokenFire, hq, hp, hk, hok, decide_eq_false (Nat.not_le.2 hj), Bool.not_false, Bool.and_false, Bool.false_eq_true, if_false]
  rfl

end
end

/-! ### Stream engines (06 R155 to R158) -/

section
variable {s : State} {d t e : Nat} {x : Stream} (hx : (s.tile d t).stream e = x)
include hx

theorem execStreamElement_delivers (ho : x.out ≠ []) : execStreamElement d t e s = .next (s.deliver d t e) := by
  simp only [execStreamElement, hx, if_pos ho]

section
variable (ho : x.out = []) (hrun : x.state = .run) (hw : x.wait = false)
include ho hrun hw

/-- A run that has nothing to deliver and waits for nothing transfers an element, or takes a row that is left. -/
theorem execStreamElement_runs : execStreamElement d t e s =
    if x.total ≤ x.pos then .next (if x.rowsLeft then s.takeRow d t e else s)
    else if x.kind = 6 then .next (s.forwardStep d t e)
    else if readKind x.kind then (if x.kind = 0 ∧ x.hu ∧ !x.acquired then .next s else .next (s.readStep d t e))
    else .next (s.writeStep d t e) := by
  rw [execStreamElement, hx, if_neg (not_not.2 ho), if_neg (by simp [hrun, hw])]

section
variable (hp : x.pos < x.total)
include hp

theorem execStreamElement_forwards (hk : x.kind = 6) : execStreamElement d t e s = .next (s.forwardStep d t e) := by
  rw [execStreamElement_runs hx ho hrun hw, if_neg (Nat.not_le.2 hp), if_pos hk]

theorem execStreamElement_reads (hk : x.kind ≠ 6) (hr : readKind x.kind = true) (ha : x.kind ≠ 0 ∨ x.hu = false ∨ x.acquired = true) :
    execStreamElement d t e s = .next (s.readStep d t e) := by
  rw [execStreamElement_runs hx ho hrun hw, if_neg (Nat.not_le.2 hp), if_neg hk, if_pos hr, if_neg (by rcases ha with ha | ha | ha <;> simp [ha])]

theorem execStreamElement_writes (hk : x.kind ≠ 6) (hr : readKind x.kind = false) :
    execStreamElement d t e s = .next (s.writeStep d t e) := by
  rw [execStreamElement_runs hx ho hrun hw, if_neg (Nat.not_le.2 hp), if_neg hk, if_neg (Bool.eq_false_iff.1 hr)]

end

section
variable (hp : x.total ≤ x.pos)
include hp

theorem execStreamElement_takes_row (hr : x.rowsLeft = true) : execStreamElement d t e s = .next (s.takeRow d t e) := by
  rw [execStreamElement_runs hx ho hrun hw, if_pos hp, if_pos hr]

theorem execStreamRunEnd_ends (hr : x.rowsLeft = false) (ha : x.acquired = false) :
    execStreamRunEnd d t e s = .next (((s.modTile d t fun y => (y.dropForward e).settleRaces (.engine e)).modStream d t e Stream.rewind).lowerSlot d t
      x.strand x.slot) := by
  rw [execStreamRunEnd, hx, if_neg (by simp [ho, hrun, hw, hp, hr])]
  simp only [ha, Bool.false_eq_true, if_false]

end
end
end

/-- Settles O32: copies and their hold on a source, streams as consumers, tokens with and without a template, and the runs of a stream. -/
theorem engineEvents : Obligations.EngineEvents := by
  unfold Obligations.EngineEvents
  refine ⟨?copies, ?release, fun s d t id j hj => execEngineConsumerStart_copy hj, ?consumers, ?armed,
    fun s d t q k rest hp hq => execTokenFire_unarmed hq hp, ?streams⟩
  case copies =>
    intro s d t id j hj
    refine ⟨execEngineWrite_writes hj, ?_⟩
    intro hd ha left settled
    have hend : s.endJob d t id = settled := endJob_eq s d t id
    rw [← hend]
    exact ⟨execCopyCompletion_ends hj hd ha, execCopyCompletion_staged hj hd ha⟩
  case release =>
    intro s d t id j hj ha hd
    obtain rfl := Tile.job_id hj
    exact execEngineConsumerEnd_copy hj ha hd
  case consumers =>
    intro s d t e he x start held
    exact ⟨fun hrun hk hu ha hp => ⟨execEngineConsumerStart_goes hrun hk hu ha hp rfl he, execEngineConsumerStart_waits hrun hk hu ha hp rfl he,
      fun r => execEngineConsumerStart_faults hrun hk hu ha hp rfl he⟩, execEngineConsumerEnd_stream rfl he⟩
  case armed =>
    intro s d t q p k rest hp hq nl left ok
    exact ⟨execTokenFire_poisoned hq hp, execTokenFire_malformed hq hp, execTokenFire_fires hq hp, execTokenFire_waits hq hp⟩
  case streams =>
    intro s d t e x
    exact ⟨execStreamElement_delivers rfl, fun ho hrun hw hp =>
        ⟨execStreamElement_forwards rfl ho hrun hw hp, execStreamElement_reads rfl ho hrun hw hp, execStreamElement_writes rfl ho hrun hw hp⟩,
      execStreamElement_takes_row rfl, execStreamRunEnd_ends rfl⟩

end Sys2Proof.Machine
end

section
/-! PROOFS. Byte memories (spec 08 R190, 17 R383): what a step of the strand that has the move changes, and that writes keep the canonical form. -/
namespace Sys2Proof.Machine

/-! ### What an instruction changes that only registers concern (04 R82, R96, 11 R257) -/

/-- A state that differs from `s` in nothing but the strand that has the move. -/
def State.OnlyMe (s t : State) : Prop := t = s ∨ ∃ f, t = s.modMe f

theorem State.onlyMe_modMe (s : State) (f : Strand → Strand) : s.OnlyMe (s.modMe f) := .inr ⟨f, rfl⟩

theorem issue_onlyMe {s t : State} {regs : List Reg} {o : Order} {go : State → State} (h : issue s regs o go = .next t)
    (hgo : s.OnlyMe (go s)) : s.OnlyMe t := by
  rcases issue_cases h with ⟨-, rfl⟩ | ⟨-, rfl⟩
  · exact hgo
  · exact .inl rfl

theorem issueAlu_onlyMe {s t : State} {regs : List Reg} {f : Strand → Strand} (h : issueAlu s regs f = .next t) : s.OnlyMe t :=
  issue_onlyMe h (s.onlyMe_modMe _)

section
variable {s : State} (hi : s.me.intrap = false) (hv : s.me.tvec ≠ 0)
include hi hv

theorem takeTrap_onlyMe (c : Report) (imp : Bool) (off : Word) : s.OnlyMe (s.takeTrap s.cur.die s.cur.site s.cur.strand c imp off) :=
  .inr ⟨_, takeTrap_taken s _ _ _ c imp off hi hv⟩

theorem trapMe_onlyMe (cause detail : Nat) (eval : Word) : s.OnlyMe (s.trapMe cause detail eval) := takeTrap_onlyMe hi hv _ _ _

theorem illOperand_onlyMe (i : Instr) : s.OnlyMe (s.illOperand i) := trapMe_onlyMe hi hv _ _ _

theorem jumpMe_onlyMe (target : Word) (f : Strand → Strand) : s.OnlyMe (s.jumpMe target f) := by
  cases h : s.here.targetOk target with
  | true => exact .inr ⟨_, jumpMe_ok f h⟩
  | false => exact jumpMe_bad f h ▸ trapMe_onlyMe hi hv _ _ _

end

/-! ### Memories after an update of a tile -/

theorem State.memoryWf_iff (s : State) : s.memoryWf = true ↔ s.hbm.wf = true ∧ s.hostMem.wf = true ∧ ∀ e ∈ s.tiles, e.2.spad.wf = true := by
  simp only [State.memoryWf, Bool.and_eq_true, List.all_eq_true, and_assoc]

theorem State.memoryWf_congr {s t : State} (hhbm : t.hbm = s.hbm) (hhost : t.hostMem = s.hostMem) (htiles : t.tiles = s.tiles) :
    t.memoryWf = s.memoryWf := by
  rw [State.memoryWf, State.memoryWf, hhbm, hhost, htiles]

@[simp] theorem State.addAccess_memoryWf (s : State) (a : Access) : (s.addAccess a).memoryWf = s.memoryWf := rfl
@[simp] theorem State.coined_memoryWf (s : State) : s.coined.memoryWf = s.memoryWf := rfl

section
variable {s : State} (h : s.memoryWf = true)
include h

theorem State.tile_spad_wf (d n : Nat) : (s.tile d n).spad.wf = true := by
  obtain ⟨-, -, htiles⟩ := s.memoryWf_iff.1 h
  unfold State.tile tgetD
  cases ht : tget s.tiles (tileKey d n) with
  | none => rfl
  | some t => exact htiles _ (tget_mem ht)

theorem State.memoryWf_modTile {d n : Nat} {f : Tile → Tile} (hf : (f (s.tile d n)).spad.wf = true) : (s.modTile d n f).memoryWf = true := by
  obtain ⟨hhbm, hhost, htiles⟩ := s.memoryWf_iff.1 h
  refine (State.memoryWf_iff _).2 ⟨hhbm, hhost, fun e he => ?_⟩
  rcases tput_mem he with rfl | he
  · exact hf
  · exact htiles e he

/-- An update of a tile that leaves its scratchpad. -/
theorem State.memoryWf_modTile_of_spad {d n : Nat} {f : Tile → Tile} (hf : ∀ t : Tile, (f t).spad = t.spad) : (s.modTile d n f).memoryWf = true :=
  State.memoryWf_modTile h ((hf _).symm ▸ State.tile_spad_wf h d n)

theorem State.memoryWf_modHere {f : Tile → Tile} (hf : ∀ t : Tile, t.spad.wf = true → (f t).spad.wf = true) : (s.modHere f).memoryWf = true :=
  State.memoryWf_modTile h (hf _ (State.tile_spad_wf h _ _))

theorem State.memoryWf_modMe (f : Strand → Strand) : (s.modMe f).memoryWf = true := State.memoryWf_modTile_of_spad h fun _ => rfl

theorem State.OnlyMe.memoryWf {t : State} (g : s.OnlyMe t) : t.memoryWf = true := by
  rcases g with rfl | ⟨f, rfl⟩
  · exact h
  · exact State.memoryWf_modMe h f

/-- A write of host memory (12 R271). -/
theorem State.memoryWf_hostPut (x : BitVec 64) (bs : List Byte) : (s.hostPut x bs).memoryWf = true := by
  obtain ⟨hhbm, hhost, htiles⟩ := s.memoryWf_iff.1 h
  exact (State.memoryWf_iff _).2 ⟨hhbm, mputs_wf bs hhost _, htiles⟩

end

/-- What every change that is made for an entry of a list keeps, all of them keep. -/
theorem State.over_induction {α : Type} {P : State → Prop} {f : α → State → State} (hf : ∀ x u, P u → P (f x u)) :
    ∀ (l : List α) {s : State}, P s → P (s.over l f)
  | [], _, h => h
  | x :: l, _, h => State.over_induction hf l (hf x _ h)

/-! ### Writes of a scratchpad (08 R192, 10 R252) -/

theorem zeroBytes_wf (n : Nat) : ∀ {m : Memory} (_ : m.wf = true) (a : Nat), (zeroBytes m a n).wf = true := by
  induction n with
  | zero => exact fun h _ => h
  | succ n ih => exact fun h a => ih (mput_wf h a 0) (a + 1)

section
variable {t : Tile} (h : t.spad.wf = true)
include h

theorem Tile.retag_spad_wf (part : BitVec 4) (g : Nat) : (t.retag part g).spad.wf = true := by
  unfold Tile.retag
  split
  · exact h
  · dsimp only
    exact zeroBytes_wf 64 h _

theorem Tile.retagMany_spad_wf (part : BitVec 4) (n : Nat) : ∀ g, (t.retagMany part g n).spad.wf = true := by
  induction n generalizing t with
  | zero => exact fun _ => h
  | succ n ih => exact fun g => ih (t.retag_spad_wf h part g) (g + 1)

theorem Tile.spadWrite_spad_wf (part : BitVec 4) (a : Nat) (bs : List Byte) (psn : Bool) : (t.spadWrite part a bs psn).spad.wf = true :=
  mputs_wf bs (t.retagMany_spad_wf h part _ _) a

theorem Tile.putRaced_spad_wf (r : Race) : (t.putRaced r).spad.wf = true := by
  have hput : (mputs t.spad (4 * r.word) (toBytes r.value.toNat 4)).wf = true := mputs_wf _ h _
  unfold Tile.putRaced
  dsimp only
  split <;> exact hput

theorem Tile.raceWord_spad_wf (was : Tile) (w : Racer) (part : BitVec 4) (coin : Nat → Nat) (n : Nat) :
    (was.raceWord t w part coin n).spad.wf = true := by
  unfold Tile.raceWord
  dsimp only
  split
  · split
    · exact t.putRaced_spad_wf h _
    · exact h
  · exact h

/-- A write that races leaves the canonical form (09 R230). -/
theorem Tile.raceWrite_spad_wf {w : Racer} {coin : Nat → Nat} {part : BitVec 4} {a : Nat} {bs : List Byte} {psn : Bool} :
    (t.raceWrite w coin part a bs psn).spad.wf = true := by
  unfold Tile.raceWrite
  generalize (List.range ((a + bs.length + 3) / 4 - a / 4)).map (a / 4 + ·) = words
  have hwrite := t.spadWrite_spad_wf h part a bs psn
  revert hwrite
  generalize t.spadWrite part a bs psn = u
  induction words generalizing u with
  | nil => exact id
  | cons n words ih => exact fun hu => ih _ (u.raceWord_spad_wf hu t w part coin n)

end

/-! ### Scratchpad accesses of a strand (15 R325, 16 R374, 18 R426) -/

section
variable {s : State} (h : s.memoryWf = true)
include h

theorem State.memoryWf_spadLoad (d : Reg) (va : Word) (n : Nat) (v : Nat → Word) : (s.spadLoad d va n v).memoryWf = true := by
  have hview : (s.view s.cur.die s.cur.site false).2.memoryWf = true :=
    State.memoryWf_modTile_of_spad (s := { s with freeCtr := s.freeCtr + (s.tile s.cur.die s.cur.site).races.length }) h fun _ => rfl
  have hread := State.memoryWf_modHere hview (f := fun t => t.observe s.ownStore va.toNat n) fun _ => id
  unfold State.spadLoad
  dsimp only
  split
  · exact hread
  · exact State.memoryWf_modMe hread _

theorem State.memoryWf_spadStore (kind : AccessKind) (va : Word) (bs : List Byte) (psn : Bool) (slot : Nat) :
    (s.spadStore kind va bs psn slot).memoryWf = true := by
  have hwrite := State.memoryWf_modHere h (f := fun t => t.raceWrite (.store s.nextId) s.coin t.part va.toNat bs psn)
    fun t ht => t.raceWrite_spad_wf ht
  unfold State.spadStore
  dsimp only
  rw [State.addAccess_memoryWf]
  refine State.memoryWf_modMe ?_ _
  exact (State.memoryWf_congr rfl rfl rfl).trans hwrite

theorem State.memoryWf_spadPerform (va : Word) (bs : List Byte) (psn : Bool) : (s.spadPerform va bs psn).memoryWf = true :=
  (State.coined_memoryWf _).trans (State.memoryWf_modHere h fun _ ht => Tile.raceWrite_spad_wf ht)

variable (hi : s.me.intrap = false) (hv : s.me.tvec ≠ 0)
include hi hv

theorem State.memoryWf_spadAccess (i : Instr) (va : Word) (logn : Nat) {go : State → State}
    (hgo : ∀ u : State, u.memoryWf = true → (go u).memoryWf = true) : (s.spadAccess i va logn go).memoryWf = true := by
  unfold State.spadAccess
  split
  · exact (illOperand_onlyMe hi hv i).memoryWf h
  · split
    · exact (trapMe_onlyMe hi hv _ _ _).memoryWf h
    · exact hgo _ (State.memoryWf_modMe h _)

end

/-! ### The firing of a PE (05 R117, 17 R383) -/

@[simp] theorem Tile.depart_spad (pe q n : Nat) : ∀ t : Tile, (t.depart pe q n).spad = t.spad := by
  induction n with
  | zero => exact fun _ => rfl
  | succ n ih =>
    intro t
    unfold Tile.depart
    dsimp only
    split
    · split
      · exact ih _
      · rfl
    · rfl

section
variable {s : State} (h : s.memoryWf = true)
include h

theorem State.memoryWf_departPe (d site pe : Nat) : (s.departPe d site pe).memoryWf = true := by
  refine State.memoryWf_modTile_of_spad h fun t => ?_
  generalize List.range 4 = queues
  induction queues generalizing t with
  | nil => rfl
  | cons q queues ih => exact (ih _).trans (t.depart_spad pe q 4)

theorem State.memoryWf_returnCredit (d n : Nat) (x : Source) : (s.returnCredit d n x).memoryWf = true := by
  cases x with
  | route site pe q => exact State.memoryWf_modTile_of_spad h fun t => Tile.depart_spad pe q 4 _
  | dport => exact State.memoryWf_modTile_of_spad h fun _ => rfl
  | none => exact h

theorem State.memoryWf_applyFiring (c : Ctx) (r : Fired) (whole : List Nat) : (s.applyFiring c r whole).1.memoryWf = true := by
  unfold State.applyFiring
  dsimp only
  refine State.memoryWf_departPe (State.over_induction (P := fun u => u.memoryWf = true) (fun k u hu => ?_) _ ?_) _ _ _
  · split
    · have hdeq := State.memoryWf_modTile_of_spad hu (d := s.cur.die) (n := s.cur.site)
        (f := fun t => t.setPe s.cur.pe (((u.tile s.cur.die s.cur.site).pe s.cur.pe).advance k (whole.contains k)).1) fun _ => rfl
      split
      · exact State.memoryWf_returnCredit hdeq _ _ _
      · exact hdeq
    · exact hu
  · exact State.memoryWf_modTile_of_spad (s := s.fresh.2) h fun _ => rfl

end

/-! ### Instructions (08 R190, 16 R374, 17 R383, 18 R424, R426) -/

/-- What SWR writes is no scratchpad. -/
theorem sysWrite_spad {t u : Tile} {n : Nat} {r : SysReg} {v : Word} (h : t.sysWrite n r v = .done u) : u.spad = t.spad := by
  cases r with
  | status | cause | epc | eval | tvec | sbst | wid | zscf | satf =>
    cases h
    rfl
  | widw | rgnb | genr | part | gkey => cases h
  | rndm =>
    unfold Tile.sysWrite at h
    dsimp only at h
    split at h
    · cases h
    · cases h
      rfl

/-- MST outside a fault applies its result and writes the 16 bytes in two halves. -/
theorem execMst_writes {s : State} {w : PeWord} (hf : s.fires 0x25 w = true) (ha : (s.firingCtx 0x25 w false).a.ok = true)
    (hb : (s.firingCtx 0x25 w false).b.ok = true) (hp : (s.firingCtx 0x25 w false).a.psn.getLsbD 0 = false) :
    let c := s.firingCtx 0x25 w false
    let o := gridOffset c.a.word
    let b := toBytes c.b.word.toNat 16
    let u := (s.applyFiring c { c.result 0 true with psn := 0 } []).1
    execMst w s = .next (u.modHere fun t =>
      (t.raceWrite .grid u.coin t.part o (b.take 8) (c.b.psn.getLsbD 0)).raceWrite .grid u.coin t.part (o + 8) (b.drop 8)
        (c.b.psn.getLsbD 1)).coined := by
  have hclean := Bool.eq_false_iff.1 hp
  exact .trans (fire_done 0x25 w s _ _ _ hf ha hb (Ctx.flagPoison_constant _ rfl) (if_neg hclean) fun _ _ => rfl) rfl

section
variable {s t : State} (h : s.memoryWf = true)
include h

theorem State.memoryWf_execMst {w : PeWord} (ha : (s.firingCtx 0x25 w false).a.ok = true) (hb : (s.firingCtx 0x25 w false).b.ok = true)
    (hp : (s.firingCtx 0x25 w false).a.psn = 0) (g : execMst w s = .next t) : t.memoryWf = true := by
  cases hf : s.fires 0x25 w with
  | false =>
    cases (fire_idle 0x25 w s _ hf).symm.trans g
    exact h
  | true =>
    have hlow : (s.firingCtx 0x25 w false).a.psn.getLsbD 0 = false := by rw [hp]; rfl
    cases (execMst_writes hf ha hb hlow).symm.trans g
    rw [State.coined_memoryWf]
    exact State.memoryWf_modHere (State.memoryWf_applyFiring h _ _ _) fun _ ht =>
      Tile.raceWrite_spad_wf (Tile.raceWrite_spad_wf ht)

variable (hi : s.me.intrap = false) (hv : s.me.tvec ≠ 0)
include hi hv

theorem State.memoryWf_execSwr {a : Reg} {r : SysReg} (g : execSwr a r s = .next t) : t.memoryWf = true := by
  rcases issue_cases g with ⟨-, rfl⟩ | ⟨-, rfl⟩
  · cases hw : s.here.sysWrite s.cur.strand r (s.me.rd a) with
    | priv => exact (trapMe_onlyMe hi hv _ _ _).memoryWf h
    | ill => exact (illOperand_onlyMe hi hv _).memoryWf h
    | done u =>
      have hu : u.spad.wf = true := sysWrite_spad hw ▸ State.tile_spad_wf h _ _
      exact State.memoryWf_modMe (State.memoryWf_modTile h hu) Strand.next
  · exact h

theorem State.memoryWf_execLdl {d a : Reg} {z : LoadSize} {m : BitVec 6} {o : Order} (g : execLdl d a z m o s = .next t) : t.memoryWf = true := by
  rcases issueMem_cases g with ⟨-, rfl⟩ | ⟨-, rfl⟩
  · exact State.memoryWf_spadAccess h hi hv _ _ _ fun u hu => State.memoryWf_spadLoad hu _ _ _ _
  · exact h

theorem State.memoryWf_execStl {d a : Reg} {z : Size} {m : BitVec 6} {o : Order} (g : execStl d a z m o s = .next t) : t.memoryWf = true := by
  rcases issueCommand_cases g with ⟨-, rfl⟩ | ⟨-, rfl⟩
  · exact State.memoryWf_spadAccess h hi hv _ _ _ fun u hu => State.memoryWf_spadStore hu _ _ _ _ _
  · exact h

theorem State.memoryWf_execAmol {d a : Reg} {q : Ord} {c : Scp} {wide : Bool} {f : AtomicOp} {o : Order}
    (g : execAmol d a q c wide f o s = .next t) : t.memoryWf = true := by
  unfold execAmol at g
  split at g
  · cases g
    exact h
  · rcases issueCommand_cases g with ⟨-, rfl⟩ | ⟨-, rfl⟩
    · dsimp only
      split
      · exact (illOperand_onlyMe hi hv _).memoryWf h
      · split
        · exact (trapMe_onlyMe hi hv _ _ _).memoryWf h
        · have hload := State.memoryWf_spadLoad (State.memoryWf_modMe h Strand.next) d (s.me.rd a) (atomicBytes wide) (BitVec.ofNat 64)
          split
          · exact State.memoryWf_spadStore hload _ _ _ _ _
          · exact State.memoryWf_spadPerform hload _ _ _
    · exact h

end

section
variable {s t : State} (hi : s.me.intrap = false) (hv : s.me.tvec ≠ 0)
include hi hv

theorem execJmpr_onlyMe {a : Reg} (g : execJmpr a s = .next t) : s.OnlyMe t := issue_onlyMe g (jumpMe_onlyMe hi hv _ _)
theorem execCallr_onlyMe {a : Reg} (g : execCallr a s = .next t) : s.OnlyMe t := issue_onlyMe g (jumpMe_onlyMe hi hv _ _)
theorem execRet_onlyMe (g : execRet s = .next t) : s.OnlyMe t := issue_onlyMe g (jumpMe_onlyMe hi hv _ _)
theorem execSvc_onlyMe {n : BitVec 8} (g : execSvc n s = .next t) : s.OnlyMe t := issue_onlyMe g (takeTrap_onlyMe hi hv _ _ _)
theorem execTrap_onlyMe {n : BitVec 8} (g : execTrap n s = .next t) : s.OnlyMe t := issue_onlyMe g (takeTrap_onlyMe hi hv _ _ _)
theorem execBrk_onlyMe {n : BitVec 8} (g : execBrk n s = .next t) : s.OnlyMe t := issue_onlyMe g (takeTrap_onlyMe hi hv _ _ _)

/-- Arithmetic, moves and transfers. -/
theorem registerInstruction_onlyMe (d a b : Reg) (u : Bool) :
    ∀ i ∈ [Instr.add d a b, .sub d a b, .mul d a b, .mulh d a b u, .div d a b u, .rem d a b u, .and d a b, .or d a b, .xor d a b, .shl d a b,
        .shr d a b, .sra d a b, .min d a b u, .max d a b u, .mov d a, .jmpr a, .callr a, .ret, .nop],
      exec i s = .next t → s.OnlyMe t := by
  simp only [List.forall_mem_cons]
  refine ⟨?_, ?_, ?_, ?_, ?_, ?_, ?_, ?_, ?_, ?_, ?_, ?_, ?_, ?_, ?_, execJmpr_onlyMe hi hv, execCallr_onlyMe hi hv, execRet_onlyMe hi hv, ?_,
    List.forall_mem_nil _⟩
  all_goals exact issueAlu_onlyMe

end

end Sys2Proof.Machine
end

section
/-! PROOFS. Handles (spec 06 R142 to R144): every operation on a handle entry leaves it well formed. -/
namespace Sys2Proof.Machine

/-! ### Well-formed entries -/

theorem Handle.wf_iff (e : Handle) : e.wf = true ↔
    (e.bnd = true ∨ e.state = .free ∧ e.len = 0)
      ∧ (e.state ≠ .free ∨ e.filled = 0 ∧ e.rd = 0 ∧ e.psn = false ∧ e.ws = false ∧ e.swz = 0)
      ∧ (e.state = .draining ∨ e.rd = 0) ∧ e.rd ≤ 15
      ∧ (e.bnd = false ∨ 64 ≤ e.len ∧ e.len % 64 = 0 ∧ e.base % 64 = 0 ∧ e.base + e.len ≤ 2097152) := by
  simp only [Handle.wf, Bool.and_eq_true, Bool.or_eq_true, Bool.not_eq_true', beq_iff_eq, bne_iff_ne, decide_eq_true_eq, and_assoc]

section
variable {e : Handle} (h : e.wf = true)
include h

/-- Only an entry in DRAINING is read. -/
theorem Handle.rd_eq_zero (hs : e.state ≠ .draining) : e.rd = 0 := by
  obtain ⟨-, -, hrd, -⟩ := e.wf_iff.1 h
  exact hrd.resolve_left hs

theorem Handle.rd_le : e.rd ≤ 15 := by
  obtain ⟨-, -, -, hmax, -⟩ := e.wf_iff.1 h
  exact hmax

/-- A bound entry that keeps its extent may come to any state but FREE, with readers in DRAINING alone. -/
theorem Handle.wf_of_bound {x : Handle} (hb : e.bnd = true) (hbnd : x.bnd = e.bnd) (hbase : x.base = e.base) (hlen : x.len = e.len)
    (hs : x.state ≠ .free) (hrd : x.state = .draining ∨ x.rd = 0) (hmax : x.rd ≤ 15) : x.wf = true := by
  obtain ⟨-, -, -, -, hext⟩ := e.wf_iff.1 h
  rw [Handle.wf_iff, hbnd, hbase, hlen]
  exact ⟨.inl hb, .inl hs, hrd, hmax, hext⟩

theorem Handle.wf_release : e.release.wf = true := by
  obtain ⟨hbound, -, -, -, hext⟩ := e.wf_iff.1 h
  exact (Handle.wf_iff _).2 ⟨hbound.imp_right fun hfree => ⟨rfl, hfree.2⟩, .inr ⟨rfl, rfl, rfl, rfl, rfl⟩, .inr rfl, Nat.zero_le _, hext⟩

theorem Handle.wf_unbind (hs : e.state = .free) : ({ e with bnd := false, len := 0 } : Handle).wf = true := by
  obtain ⟨-, hfree, hrd, hmax, -⟩ := e.wf_iff.1 h
  exact (Handle.wf_iff _).2 ⟨.inr ⟨hs, rfl⟩, hfree, hrd, hmax, .inl rfl⟩

theorem Handle.wf_bind {base len : Nat} (hext : ¬BadExtent base len) : ({ e with bnd := true, base := base, len := len } : Handle).wf = true := by
  obtain ⟨-, hfree, hrd, hmax, -⟩ := e.wf_iff.1 h
  refine (Handle.wf_iff _).2 ⟨.inl rfl, hfree, hrd, hmax, .inr ?_⟩
  unfold BadExtent at hext
  dsimp only
  omega

end

/-! ### Consumers and producers (06 R144) -/

theorem startConsumer_go {e : Handle} {n : Nat} {code : BitVec 5} (hgo : e.startConsumer n code = .go) :
    e.bnd = true ∧ (e.state = .full ∨ e.state = .draining ∧ e.rd < 15) := by
  unfold Handle.startConsumer at hgo
  split at hgo
  · cases hgo
  · next hb =>
    refine ⟨by simpa using hb, ?_⟩
    split at hgo
    · cases hgo
    · cases hs : e.state with simp only [hs] at hgo
      | free | filling => cases hgo
      | full => exact .inl rfl
      | draining =>
        refine .inr ⟨rfl, ?_⟩
        split at hgo
        · cases hgo
        · split at hgo
          · cases hgo
          · omega

theorem startWrite_go {e : Handle} {who n k : Nat} {code : BitVec 5} (hgo : e.startWrite who n k code = .go) :
    e.bnd = true ∧ (e.state = .free ∨ e.state = .filling) := by
  unfold Handle.startWrite at hgo
  split at hgo
  · cases hgo
  · next hb =>
    refine ⟨by simpa using hb, ?_⟩
    split at hgo
    · cases hgo
    · cases hs : e.state with simp only [hs] at hgo
      | free => exact .inl rfl
      | filling => exact .inr rfl
      | full | draining => split at hgo <;> cases hgo

section
variable {e : Handle} (h : e.wf = true)
include h

theorem Handle.wf_consumerStart {n : Nat} {code : BitVec 5} (hgo : e.startConsumer n code = .go) :
    ({ e with state := .draining, rd := e.rd + 1 } : Handle).wf = true := by
  obtain ⟨hb, hs⟩ := startConsumer_go hgo
  have hmax : e.rd + 1 ≤ 15 := by
    rcases hs with hs | ⟨-, hrd⟩
    · simp [Handle.rd_eq_zero h (e := e) (by simp [hs])]
    · exact hrd
  exact Handle.wf_of_bound h hb rfl rfl rfl nofun (.inl rfl) hmax

theorem Handle.wf_consumerEnd : ({ e with rd := e.rd - 1 } : Handle).wf = true := by
  obtain ⟨hbound, hfree, hrd, hmax, hext⟩ := e.wf_iff.1 h
  refine (Handle.wf_iff _).2 ⟨hbound, hfree.imp_right ?_, hrd.imp_right ?_, Nat.le_trans (Nat.sub_le _ _) hmax, hext⟩
  · rintro ⟨hfilled, hz, hflags⟩
    exact ⟨hfilled, by simp [hz], hflags⟩
  · intro hz
    simp [hz]

/-- Bytes counted into a handle that may be written leave it FILLING, or FULL with the last of them. -/
theorem Handle.wf_count {who n k : Nat} {code : BitVec 5} (hgo : e.startWrite who n k code = .go) (o : Nat) (psn : Bool) :
    (e.count who o k code psn).wf = true := by
  obtain ⟨hb, hs⟩ := startWrite_go hgo
  have hrd : e.rd = 0 := Handle.rd_eq_zero h (by rcases hs with hs | hs <;> simp [hs])
  have hmax := Handle.rd_le h
  unfold Handle.count
  rcases hs with hs | hs
  · have hfree : (e.state == .free) = true := by rw [hs]; rfl
    simp only [hfree, if_true]
    split
    · exact Handle.wf_of_bound h hb rfl rfl rfl nofun (.inr rfl) (Nat.zero_le _)
    · exact Handle.wf_of_bound h hb rfl rfl rfl nofun (.inr rfl) (Nat.zero_le _)
  · have hfree : (e.state == .free) = false := by rw [hs]; rfl
    simp only [hfree, Bool.false_eq_true, if_false]
    split
    · exact Handle.wf_of_bound h hb rfl rfl rfl nofun (.inr hrd) hmax
    · exact Handle.wf_of_bound h hb rfl rfl rfl (by simp [hs]) (.inr hrd) hmax

end

/-! ### Handles of a machine (06 R142, R143) -/

/-- What `State.HandlesWf` asks of one tile. -/
def Tile.HandlesWf (t : Tile) : Prop := (∀ h, (t.handle h).wf = true) ∧ ∀ w ∈ t.hwaits, w.unbind = true → w.want = .free

theorem Tile.handle_setHandle (t : Tile) (h k : Nat) (e : Handle) : (t.setHandle h e).handle k = if k = h then e else t.handle k := by
  simp only [Tile.handle, Tile.setHandle, tgetD, tget_tput]
  split <;> rfl

theorem Tile.HandlesWf.setHandle {t : Tile} (g : t.HandlesWf) {e : Handle} (he : e.wf = true) (h : Nat) : (t.setHandle h e).HandlesWf := by
  refine ⟨fun k => ?_, g.2⟩
  rw [Tile.handle_setHandle]
  split
  · exact he
  · exact g.1 k

theorem Tile.handle_meet (t : Tile) (h : Nat) (want : HState) (k : Nat) : (t.meet h want).handle k =
    if (t.hwaits.filter fun w => w.isFor h want).any (·.unbind) then (t.setHandle h { t.handle h with bnd := false, len := 0 }).handle k
    else t.handle k := by
  show tgetD (ite _ _ _) k Handle.free = _
  split <;> rfl

/-- Only an HFREE that has waited for FREE unbinds a handle. -/
theorem Tile.HandlesWf.meet {t : Tile} (g : t.HandlesWf) {h : Nat} {want : HState} (hs : (t.handle h).state = want) :
    (t.meet h want).HandlesWf := by
  refine ⟨fun k => ?_, fun w hw => g.2 w (List.mem_of_mem_filter hw)⟩
  rw [Tile.handle_meet]
  split
  · next hu =>
    obtain ⟨w, hw, hunbind⟩ := List.any_eq_true.1 hu
    obtain ⟨hmem, hfor⟩ := List.mem_filter.1 hw
    have hfree : want = .free := ((w.isFor_iff _ _).1 hfor).2.symm.trans (g.2 w hmem hunbind)
    exact (g.setHandle (Handle.wf_unbind (g.1 h) (hs.trans hfree)) h).1 k
  · exact g.1 k

section
variable {s : State} (g : s.HandlesWf)
include g

theorem State.handlesWf_modTile {d n : Nat} {f : Tile → Tile} (hf : (f (s.tile d n)).HandlesWf) : (s.modTile d n f).HandlesWf := by
  intro e q
  rw [State.tile_modTile]
  split
  · exact hf
  · exact g e q

theorem State.handlesWf_modStrand (d n k : Nat) (f : Strand → Strand) : (s.modStrand d n k f).HandlesWf := State.handlesWf_modTile g (g d n)

theorem State.handlesWf_modMe (f : Strand → Strand) : (s.modMe f).HandlesWf := State.handlesWf_modStrand g _ _ _ f

theorem State.OnlyMe.handlesWf {t : State} (ht : s.OnlyMe t) : t.HandlesWf := by
  rcases ht with rfl | ⟨f, rfl⟩
  · exact g
  · exact State.handlesWf_modMe g f

theorem State.handlesWf_lowerAll (d n : Nat) (l : List HandleWait) : (s.lowerAll d n l).HandlesWf :=
  State.over_induction (P := State.HandlesWf) (fun _ _ hu => State.handlesWf_modStrand hu _ _ _ _) l g

/-- A well-formed entry may take the place of any other, and whoever waits for its state goes on. -/
theorem State.handlesWf_putHandle (d n h : Nat) {e : Handle} (he : e.wf = true) : (s.putHandle d n h e).HandlesWf := by
  have hput := Tile.HandlesWf.setHandle (g d n) he h
  by_cases hs : ((s.tile d n).handle h).state = e.state
  · rw [putHandle_same hs]
    exact State.handlesWf_modTile g hput
  · have hcame : (((s.tile d n).setHandle h e).handle h).state = e.state := by rw [Tile.handle_setHandle, if_pos rfl]
    have harrived : (s.arrived d n h e).HandlesWf := State.handlesWf_modTile g (hput.meet hcame)
    rw [putHandle_other hs]
    exact State.handlesWf_lowerAll harrived _ _ _

theorem State.handlesWf_beginConsumer {d n h : Nat} {code : BitVec 5} (hgo : ((s.tile d n).handle h).startConsumer h code = .go) :
    (s.beginConsumer d n h).HandlesWf :=
  State.handlesWf_putHandle g _ _ _ (Handle.wf_consumerStart ((g d n).1 h) hgo)

theorem State.handlesWf_endConsumer (d n h : Nat) (rel : Bool) : (s.endConsumer d n h rel).HandlesWf := by
  have hend := Handle.wf_consumerEnd ((g d n).1 h)
  refine State.handlesWf_putHandle g _ _ _ ?_
  split
  · exact Handle.wf_release hend
  · exact hend

end

/-! ### The instructions of a handle (16 R368 to R370) -/

section
variable {s t : State} (g : s.HandlesWf)
include g

/-- An HWAIT or HFREE that waits: an HFREE waits for FREE. -/
theorem State.handlesWf_waitHandle {h : Nat} {want : HState} {unbind : Bool} {o : Order} (hfree : unbind = true → want = .free)
    (ht : s.waitHandle h want unbind o = .next t) : t.HandlesWf := by
  rcases issue_cases ht with ⟨-, rfl⟩ | ⟨-, rfl⟩
  · have hme := State.handlesWf_modMe g fun x => (x.raise o.set.val).next
    obtain ⟨hhandles, hwaits⟩ := hme s.cur.die s.cur.site
    refine State.handlesWf_modTile hme ⟨hhandles, fun w hw => ?_⟩
    rcases List.mem_append.1 hw with hw | hw
    · exact hwaits w hw
    · cases List.mem_singleton.1 hw
      exact hfree
  · exact g

theorem State.handlesWf_execHfree {h : Fin 128} {o : Order} (ht : execHfree h o s = .next t) : t.HandlesWf := by
  unfold execHfree at ht
  dsimp only at ht
  split at ht
  · split at ht
    · cases ht
      exact g
    · exact State.handlesWf_waitHandle g (fun _ => rfl) ht
  · next hfree =>
    rcases issue_cases ht with ⟨-, rfl⟩ | ⟨-, rfl⟩
    · split
      · next hb =>
        have hs : (s.here.handle h.val).state = .free := by simpa [hb] using hfree
        exact State.handlesWf_putHandle (State.handlesWf_modMe g _) _ _ _ (Handle.wf_unbind ((g _ _).1 h.val) hs)
      · exact State.handlesWf_modMe g _
    · exact g

variable (hi : s.me.intrap = false) (hv : s.me.tvec ≠ 0)
include hi hv

theorem State.handlesWf_execHalloc {d a b : Reg} {o : Order} (ht : execHalloc d a b o s = .next t) : t.HandlesWf := by
  rcases issue_cases ht with ⟨-, rfl⟩ | ⟨-, rfl⟩
  · dsimp only
    split
    · exact (illOperand_onlyMe hi hv _).handlesWf g
    · next hext =>
      split
      · exact State.handlesWf_modMe g _
      · next h _ =>
        have hput := Tile.HandlesWf.setHandle (g s.cur.die s.cur.site) (Handle.wf_bind ((g s.cur.die s.cur.site).1 h) hext) h
        have hbind : (s.modHere fun x => x.setHandle h
            { x.handle h with bnd := true, base := (s.me.rd a).toNat, len := (s.me.rd b).toNat }).HandlesWf := State.handlesWf_modTile g hput
        exact State.handlesWf_modMe hbind _
  · exact g

theorem State.handlesWf_execHwait {h : Fin 128} {want : HState} {o : Order} (ht : execHwait h want o s = .next t) : t.HandlesWf := by
  unfold execHwait at ht
  dsimp only at ht
  split at ht
  · split at ht
    · exact State.handlesWf_waitHandle g Bool.noConfusion ht
    · split at ht
      · cases ht
        exact State.handlesWf_modMe g _
      · cases ht
        exact g
  · rcases issue_cases ht with ⟨-, rfl⟩ | ⟨-, rfl⟩
    · split
      · exact (trapMe_onlyMe hi hv _ _ _).handlesWf g
      · exact State.handlesWf_modMe g _
    · exact g

theorem State.handlesWf_execHset {h : Fin 128} {to_ : HState} {o : Order} (ht : execHset h to_ o s = .next t) : t.HandlesWf := by
  have he := (g s.cur.die s.cur.site).1 h.val
  have hmax := Handle.rd_le he
  have put {x : Handle} (hx : x.wf = true) : ((s.modMe Strand.next).putHandle s.cur.die s.cur.site h.val x).HandlesWf :=
    State.handlesWf_putHandle (State.handlesWf_modMe g _) _ _ _ hx
  unfold execHset at ht
  dsimp only at ht
  split at ht
  · cases ht
    exact g
  · split at ht
    · cases ht
      exact g
    · rcases issueMem_cases ht with ⟨-, rfl⟩ | ⟨-, rfl⟩
      · split
        · exact (trapMe_onlyMe hi hv _ _ _).handlesWf g
        · next hb =>
          replace hb : (s.here.handle h.val).bnd = true := by simpa using hb
          -- The rows of R144, then the traps that have none.
          split
          · exact put (Handle.wf_of_bound he hb rfl rfl rfl nofun (.inr rfl) (Nat.zero_le _))
          · next hs _ _ =>
            have hrd := Handle.rd_eq_zero he (fun hd => nomatch hs.symm.trans hd)
            split
            · exact put (Handle.wf_of_bound he hb rfl rfl rfl nofun (.inr hrd) hmax)
            · exact (trapMe_onlyMe hi hv _ _ _).handlesWf g
          · exact put (Handle.wf_of_bound he hb rfl rfl rfl nofun (.inl rfl) hmax)
          · exact State.handlesWf_modMe g _
          · exact put (Handle.wf_release he)
          · exact (trapMe_onlyMe hi hv _ _ _).handlesWf g
      · exact g

end

end Sys2Proof.Machine
end

section
/-! PROOFS. Tokens of lines (spec 08 R196 to R209): what each move of a line's tokens between its home, the die caches and packets keeps. -/
namespace Sys2Proof.Machine

/-! ### The three places of a line's tokens -/

/-- The tokens of a line in the die caches. -/
def State.cachedTokens (s : State) (line : Nat) : Nat := ((List.range 8).map fun d => (s.cacheLine d line).tok).sum
/-- The tokens of a line in packets on their way. -/
def State.flyingTokens (s : State) (line : Nat) : Nat :=
  ((s.net.filter fun n => (n.opc == 3 || n.opc == 4) && n.p.line == line).map fun n => n.p.tok).sum

theorem State.tokensOf_eq (s : State) (line : Nat) : s.tokensOf line = (s.home line).tok + s.cachedTokens line + s.flyingTokens line := rfl

/-- A sum over a range when one of its terms changes. -/
theorem sum_range_change {n k x : Nat} {f g : Nat → Nat} (hk : k < n) (hx : g k = x) (hne : ∀ i < n, i ≠ k → g i = f i) :
    ((List.range n).map g).sum + f k = ((List.range n).map f).sum + x := by
  induction n with
  | zero => omega
  | succ n ih =>
    simp only [List.range_succ, List.map_append, List.sum_append, List.map_cons, List.map_nil, List.sum_cons, List.sum_nil]
    by_cases h : k = n
    · subst h
      have : (List.range k).map g = (List.range k).map f :=
        List.map_congr_left fun i hi => hne i (by simp at hi; omega) (by simp at hi; omega)
      rw [this]
      omega
    · have := ih (by omega) fun i hi => hne i (by omega)
      have := hne n (by omega) (Ne.symm h)
      omega

section
variable (s : State) (d l line : Nat)

theorem State.cacheLine_setCacheLine (c : CacheLine) (e : Nat) : (s.setCacheLine d l c).cacheLine e line =
    if e % 8 = d % 8 ∧ line = l then (if c.tok = 0 then CacheLine.none else c) else s.cacheLine e line := by
  unfold State.cacheLine State.setCacheLine
  rw [State.die_modDie]
  by_cases he : e % 8 = d % 8
  · have hdie : s.die e = s.die d := by simp only [State.die, vget, he]
    by_cases hl : line = l
    · subst hl
      by_cases hc : c.tok = 0 <;> simp [he, hc, tgetD]
    · by_cases hc : c.tok = 0 <;> simp [he, hl, hc, tgetD, tget_tdel, tget_tput, hdie]
  · simp [he]

theorem State.home_setHome (h : HomeLine) : (s.setHome l h).home line = if line = l then h else s.home line := by
  simp only [State.home, State.setHome, tgetD, tget_tput]
  split <;> rfl

theorem State.cachedTokens_setCacheLine (c : CacheLine) :
    (s.setCacheLine d l c).cachedTokens line + (if l = line then (s.cacheLine d l).tok else 0)
      = s.cachedTokens line + if l = line then c.tok else 0 := by
  by_cases hl : l = line
  · subst hl
    have hdie : s.cacheLine d l = s.cacheLine (d % 8) l := by simp only [State.cacheLine, State.die, vget, Nat.mod_mod]
    rw [if_pos rfl, if_pos rfl, hdie]
    refine sum_range_change (f := fun e => (s.cacheLine e l).tok) (g := fun e => ((s.setCacheLine d l c).cacheLine e l).tok)
      (Nat.mod_lt d (Nat.succ_pos 7)) ?_ fun e he hne => ?_
    · rw [State.cacheLine_setCacheLine, if_pos ⟨Nat.mod_mod _ _, rfl⟩]
      split
      · next hc => exact hc.symm
      · rfl
    · rw [State.cacheLine_setCacheLine, if_neg fun ⟨hed, _⟩ => hne ((Nat.mod_eq_of_lt he).symm.trans hed)]
  · simp only [if_neg hl, State.cachedTokens, State.cacheLine_setCacheLine, Ne.symm hl, and_false, if_false]

theorem State.tokensOf_setCacheLine (c : CacheLine) :
    (s.setCacheLine d l c).tokensOf line + (if l = line then (s.cacheLine d l).tok else 0) = s.tokensOf line + if l = line then c.tok else 0 := by
  have hcached := s.cachedTokens_setCacheLine d l line c
  rw [State.tokensOf_eq, State.tokensOf_eq]
  show (s.home line).tok + _ + s.flyingTokens line + _ = _
  omega

variable (src dst txn tok : Nat) (own dirty data : Bool) (x : LineData)

theorem State.sendTokens_frame : let t := s.sendTokens src dst l txn tok own dirty data x
    t.homes = s.homes ∧ t.dies = s.dies := by
  unfold State.sendTokens
  dsimp only
  split <;> exact ⟨rfl, rfl⟩

theorem State.flyingTokens_sendTokens : (s.sendTokens src dst l txn tok own dirty data x).flyingTokens line
    = s.flyingTokens line + if l = line then tok else 0 := by
  unfold State.sendTokens
  dsimp only
  split
  · next h => simp [h]
  · by_cases hl : l = line <;> cases data || own <;> simp [State.flyingTokens, State.send, List.filter_append, hl, Packet.zero]

end

/-! ### What a change of one place does to owners and sums -/

section
variable {s : State} (h : s.OwnersHold)
include h

theorem State.ownersHold_setCacheLine (d l : Nat) {c : CacheLine} (hc : c.own = true → c.tok ≠ 0) : (s.setCacheLine d l c).OwnersHold := by
  intro line
  obtain ⟨hhome, hcache⟩ := h line
  refine ⟨hhome, fun e he => ?_⟩
  rw [State.cacheLine_setCacheLine]
  split
  · split
    · exact nofun
    · exact hc
  · exact hcache e he

theorem State.ownersHold_setHome (l : Nat) {x : HomeLine} (hx : x.own = true → x.tok ≠ 0) : (s.setHome l x).OwnersHold := by
  intro line
  obtain ⟨hhome, hcache⟩ := h line
  refine ⟨?_, hcache⟩
  rw [State.home_setHome]
  split
  · exact hx
  · exact hhome

end

/-- The same lines stand in the die caches, the same tokens at homes and in packets. -/
structure State.SameTokens (s t : State) : Prop where
  dies : t.dies = s.dies
  home : ∀ line, (t.home line).tok = (s.home line).tok ∧ (t.home line).own = (s.home line).own
  flying : ∀ line, t.flyingTokens line = s.flyingTokens line

/-- Every line has as many tokens in `t` as in `s`, and owners still hold one. -/
def State.KeepsTokens (s t : State) : Prop := s.OwnersHold → t.OwnersHold ∧ ∀ line, t.tokensOf line = s.tokensOf line

theorem State.SameTokens.refl (s : State) : s.SameTokens s := ⟨rfl, fun _ => ⟨rfl, rfl⟩, fun _ => rfl⟩

theorem State.SameTokens.trans {s t u : State} (h : s.SameTokens t) (g : t.SameTokens u) : s.SameTokens u :=
  ⟨g.dies.trans h.dies, fun line => ⟨(g.home line).1.trans (h.home line).1, (g.home line).2.trans (h.home line).2⟩,
    fun line => (g.flying line).trans (h.flying line)⟩

theorem State.cacheLine_congr {s t : State} (h : t.dies = s.dies) (d line : Nat) : t.cacheLine d line = s.cacheLine d line := by
  simp only [State.cacheLine, State.die, h]

theorem State.SameTokens.keeps {s t : State} (h : s.SameTokens t) : s.KeepsTokens t := by
  refine fun hs => ⟨fun line => ?_, fun line => ?_⟩
  · simp only [(h.home line).1, (h.home line).2, State.cacheLine_congr h.dies]
    exact hs line
  · simp only [State.tokensOf_eq, (h.home line).1, h.flying, State.cachedTokens, State.cacheLine_congr h.dies]

theorem State.KeepsTokens.refl (s : State) : s.KeepsTokens s := (State.SameTokens.refl s).keeps

theorem State.KeepsTokens.trans {s t u : State} (h : s.KeepsTokens t) (g : t.KeepsTokens u) : s.KeepsTokens u := by
  intro hs
  obtain ⟨ht, hst⟩ := h hs
  obtain ⟨hu, htu⟩ := g ht
  exact ⟨hu, fun line => (htu line).trans (hst line)⟩

/-! ### Tokens that leave a place in a packet (08 R203, R209) -/

section
variable {s : State} {src dst l txn tok : Nat} {own dirty data : Bool} {x : LineData}

theorem State.ownersHold_sendTokens (h : s.OwnersHold) : (s.sendTokens src dst l txn tok own dirty data x).OwnersHold := by
  obtain ⟨hhomes, hdies⟩ := s.sendTokens_frame l src dst txn tok own dirty data x
  intro line
  simp only [State.home, hhomes, State.cacheLine_congr hdies]
  exact h line

theorem State.tokensOf_sendTokens (line : Nat) : (s.sendTokens src dst l txn tok own dirty data x).tokensOf line
    = s.tokensOf line + if l = line then tok else 0 := by
  obtain ⟨hhomes, hdies⟩ := s.sendTokens_frame l src dst txn tok own dirty data x
  simp only [State.tokensOf_eq, State.home, hhomes, State.cachedTokens, State.cacheLine_congr hdies, State.flyingTokens_sendTokens, Nat.add_assoc]

/-- A die cache gives tokens of a line. -/
theorem keepsTokens_cacheGives {d : Nat} {c : CacheLine} (hown : c.own = true → c.tok ≠ 0) (htok : c.tok + tok = (s.cacheLine d l).tok) :
    s.KeepsTokens ((s.setCacheLine d l c).sendTokens src dst l txn tok own dirty data x) := by
  refine fun hs => ⟨State.ownersHold_sendTokens (State.ownersHold_setCacheLine hs d l hown), fun line => ?_⟩
  have hcache := s.tokensOf_setCacheLine d l line c
  rw [State.tokensOf_sendTokens]
  by_cases hl : l = line
  · simp only [hl, if_true] at hcache htok ⊢
    omega
  · simp only [hl, if_false] at hcache ⊢
    omega

/-- A home gives tokens of a line. -/
theorem keepsTokens_homeGives {y : HomeLine} (hown : y.own = true → y.tok ≠ 0) (htok : y.tok + tok = (s.home l).tok) :
    s.KeepsTokens ((s.setHome l y).sendTokens src dst l txn tok own dirty data x) := by
  refine fun hs => ⟨State.ownersHold_sendTokens (State.ownersHold_setHome hs l hown), fun line => ?_⟩
  rw [State.tokensOf_sendTokens, State.tokensOf_eq, State.tokensOf_eq, State.home_setHome]
  show _ + s.cachedTokens line + s.flyingTokens line + _ = _
  by_cases hl : l = line
  · subst hl
    simp only [if_true]
    omega
  · simp only [hl, Ne.symm hl, if_false]
    omega

end

/-! ### Homes (08 R197, R203, R204) -/

section
variable {s u : State} (h : s.SameTokens u)
include h

theorem State.SameTokens.setHome (l : Nat) {x : HomeLine} (htok : x.tok = (u.home l).tok) (hown : x.own = (u.home l).own) :
    s.SameTokens (u.setHome l x) := by
  refine ⟨h.dies, fun line => ?_, h.flying⟩
  rw [State.home_setHome]
  split
  · next hl => exact hl ▸ ⟨htok.trans (h.home l).1, hown.trans (h.home l).2⟩
  · exact h.home line

/-- A packet that carries no tokens. -/
theorem State.SameTokens.send {opc : Nat} (p : Packet) (hopc : (opc == 3 || opc == 4) = false) : s.SameTokens (u.send opc p) :=
  ⟨h.dies, h.home, fun line => (h.flying line).symm ▸ by simp [State.flyingTokens, State.send, List.filter_append, hopc]⟩

theorem State.SameTokens.sliceOut (l : Nat) : s.SameTokens (u.sliceOut l) := by
  have hout : s.SameTokens { u with sliceLines := tdel u.sliceLines l } := ⟨h.dies, h.home, h.flying⟩
  unfold State.sliceOut
  split
  · exact h
  · next x _ =>
    have hset := hout.setHome l (x := { u.home l with key := x.key, part := x.part, psn := x.psn }) rfl rfl
    dsimp only
    split
    · exact ⟨hset.dies, hset.home, hset.flying⟩
    · exact hout

theorem State.SameTokens.sliceIn (l : Nat) (x : SliceLine) : s.SameTokens (u.sliceIn l x) := by
  have hroom : s.SameTokens (if 8 ≤ (u.sliceWays l).length then
      (u.pick (u.sliceWays l).length).2.sliceOut ((lget (u.sliceWays l) (u.pick (u.sliceWays l).length).1).getD 0) else u) := by
    split
    · exact State.SameTokens.sliceOut (u := (u.pick _).2) ⟨h.dies, h.home, h.flying⟩ _
    · exact h
  exact ⟨hroom.dies, hroom.home, hroom.flying⟩

theorem State.SameTokens.homeFill (l : Nat) : s.SameTokens (u.homeFill l) := by
  unfold State.homeFill
  split
  · exact h
  · exact h.sliceIn _ _

theorem State.SameTokens.grantNext (slice : Nat) : s.SameTokens (u.grantNext slice) := by
  unfold State.grantNext
  split
  · split
    · refine State.SameTokens.send ?_ _ rfl
      exact ⟨h.dies, h.home, h.flying⟩
    · exact h
  · exact h

theorem State.SameTokens.freeTracker (slice : Nat) : s.SameTokens (u.freeTracker slice) := by
  refine State.SameTokens.grantNext ?_ slice
  exact ⟨h.dies, h.home, h.flying⟩

end

theorem keepsTokens_homeYield (s : State) (p : Packet) : s.KeepsTokens (s.homeYield p) :=
  ((State.SameTokens.refl s).homeFill p.line).keeps.trans (keepsTokens_homeGives nofun (Nat.zero_add _))

theorem keepsTokens_homeShare (s : State) (p : Packet) : s.KeepsTokens (s.homeShare p) := by
  refine ((State.SameTokens.refl s).homeFill p.line).keeps.trans ?_
  unfold State.homeShare
  dsimp only
  generalize s.homeFill p.line = u
  split
  · exact .refl u
  · next hown =>
    split
    · next h => exact keepsTokens_homeGives nofun ((Nat.zero_add _).trans h.symm)
    · split
      · next h => exact keepsTokens_homeGives nofun ((Nat.zero_add _).trans h.symm)
      · next h =>
        intro hs
        have hpos : (u.home p.line).tok ≠ 0 := (hs p.line).1 (by simpa using hown)
        exact keepsTokens_homeGives (fun _ => by dsimp only; omega) (by dsimp only; omega) hs

/-- A home's answer to a transient request moves no tokens beside those that `answer` moves. -/
theorem keepsTokens_homeTransient (s : State) (p : Packet) {answer : State → State} (ha : s.KeepsTokens (answer s)) :
    s.KeepsTokens (s.homeTransient p answer) := by
  unfold State.homeTransient
  dsimp only
  split
  · refine State.KeepsTokens.trans ?_ ((State.SameTokens.refl _).freeTracker _).keeps
    split
    · exact .refl s
    · exact ha
  · split
    · exact .refl s
    · split
      · split
        · exact ((State.SameTokens.refl s).send _ rfl).keeps
        · exact (State.SameTokens.send ⟨rfl, fun _ => ⟨rfl, rfl⟩, fun _ => rfl⟩ _ (by rfl)).keeps
      · exact ha

/-! ### Requests and evictions at a die cache (08 R203, R209) -/

theorem keepsTokens_execGets {s t : State} {p : Packet} (h : execGets p s = .next t) : s.KeepsTokens t := by
  unfold execGets at h
  dsimp only at h
  split at h
  · next hd =>
    split at h
    · cases h
      exact .refl s
    · next hown =>
      split at h
      · next htok =>
        cases h
        exact keepsTokens_cacheGives nofun ((Nat.zero_add _).trans htok.symm)
      · next htok =>
        cases h
        intro hs
        have hheld : (s.cacheLine p.dst p.line).own = true := by
          simp only [Bool.or_eq_true, Bool.not_eq_true', not_or, Bool.not_eq_false] at hown
          exact hown.2
        have hpos : (s.cacheLine p.dst p.line).tok ≠ 0 := (hs p.line).2 p.dst hd hheld
        exact keepsTokens_cacheGives (fun _ => by dsimp only; omega) (by dsimp only; omega) hs
  · cases h
    exact keepsTokens_homeTransient s p (keepsTokens_homeShare s p)

theorem keepsTokens_execGetx {s t : State} {p : Packet} (h : execGetx p s = .next t) : s.KeepsTokens t := by
  unfold execGetx at h
  dsimp only at h
  split at h
  · split at h
    · cases h
      exact .refl s
    · cases h
      exact keepsTokens_cacheGives nofun (Nat.zero_add _)
  · cases h
    exact keepsTokens_homeTransient s p (keepsTokens_homeYield s p)

theorem keepsTokens_evictLine (s : State) (d l : Nat) : s.KeepsTokens (s.evictLine d l) :=
  keepsTokens_cacheGives nofun (Nat.zero_add _)

/-! ### Tokens that reach a die cache (08 R196, R204, R206) -/

theorem lget_mem {α : Type} {l : List α} {i : Nat} {x : α} (h : lget l i = some x) : x ∈ l := by
  induction l generalizing i with
  | nil => cases h
  | cons y l ih =>
    cases i with
    | zero => exact Option.some.inj h ▸ List.mem_cons_self
    | succ i => exact List.mem_cons_of_mem _ (ih h)

/-- A line that another makes room for: the other line and the misses of the die are as they were. -/
theorem evictLine_frame (s : State) {d l x : Nat} (hx : l ≠ x) :
    (s.evictLine d x).cacheLine d l = s.cacheLine d l ∧ ((s.evictLine d x).die d).misses = (s.die d).misses := by
  have hdies : (s.evictLine d x).dies = (s.setCacheLine d x CacheLine.none).dies := (State.sendTokens_frame _ _ _ _ _ _ _ _ _ _).2
  constructor
  · rw [State.cacheLine_congr hdies, State.cacheLine_setCacheLine, if_neg fun h => hx h.2]
  · simp only [State.die, hdies, State.setCacheLine_dies, vget_vset_self]

theorem makeRoom_keeps (s : State) (d l : Nat) : s.KeepsTokens (s.makeRoom d l) ∧ (s.makeRoom d l).cacheLine d l = s.cacheLine d l
    ∧ ((s.makeRoom d l).die d).misses = (s.die d).misses := by
  unfold State.makeRoom
  dsimp only
  split
  · split
    · next x c hx =>
      have hmem : (x, c) ∈ (s.die d).lines.filter fun e => e.1 % 24576 == l % 24576 && e.1 != l := lget_mem hx
      have hne : l ≠ x := by
        rintro rfl
        simp at hmem
      obtain ⟨hline, hmisses⟩ := evictLine_frame (State.pick s _).2 (d := d) hne
      exact ⟨keepsTokens_evictLine (State.pick s _).2 d x, hline, hmisses⟩
    · exact ⟨State.KeepsTokens.refl s, rfl, rfl⟩
  · exact ⟨.refl s, rfl, rfl⟩

/-- Line `l` has `n` tokens more in `t` than in `s`, every other line as many, and owners hold a token. -/
def State.Gains (s t : State) (l n : Nat) : Prop := t.OwnersHold ∧ ∀ line, t.tokensOf line = s.tokensOf line + if l = line then n else 0

section
variable {s : State} (hs : s.OwnersHold) {d : Nat} {p : Packet}
include hs

theorem sendTokens_gains {src dst l txn tok : Nat} {own dirty data : Bool} {x : LineData} :
    s.Gains (s.sendTokens src dst l txn tok own dirty data x) l tok :=
  ⟨State.ownersHold_sendTokens hs, State.tokensOf_sendTokens⟩

variable (hd : d < 8) (hp : p.own = true → p.tok ≠ 0)
include hd hp

/-- Tokens join their line at a die cache. -/
theorem addTokens_gains (data : Bool) : s.Gains (s.addTokens d p data) p.line p.tok := by
  obtain ⟨hroom, hline, -⟩ := makeRoom_keeps s d p.line
  obtain ⟨hu, hsum⟩ := hroom hs
  obtain ⟨c, hadd, htok, hown⟩ : ∃ c, s.addTokens d p data = (s.makeRoom d p.line).setCacheLine d p.line c
      ∧ c.tok = (s.cacheLine d p.line).tok + p.tok ∧ c.own = ((s.cacheLine d p.line).own || p.own) :=
    ⟨_, rfl, by dsimp only; split <;> rfl, by dsimp only; split <;> rfl⟩
  rw [hadd]
  refine ⟨State.ownersHold_setCacheLine hu d p.line fun ho => ?_, fun line => ?_⟩
  · rw [hown, Bool.or_eq_true] at ho
    have := ho.imp ((hs p.line).2 d hd) hp
    omega
  · have hcache := (s.makeRoom d p.line).tokensOf_setCacheLine d p.line line c
    rw [hline, hsum, htok] at hcache
    by_cases hl : p.line = line
    · simp only [hl, if_true] at hcache ⊢
      omega
    · simp only [hl, if_false] at hcache ⊢
      omega

/-- Tokens at a die cache that has no miss of their line join it or go on. -/
theorem tokensAtDie_gains (hm : tget (s.die d).misses p.line = none) (data : Bool) : s.Gains (s.tokensAtDie d p data) p.line p.tok := by
  have hadd := addTokens_gains hs hd hp data
  have hmisses : ((s.addTokens d p data).die d).misses = (s.die d).misses := by
    unfold State.addTokens
    dsimp only
    rw [State.setCacheLine, State.die_modDie_self]
    exact (makeRoom_keeps s d p.line).2.2
  unfold State.tokensAtDie
  dsimp only
  split
  · split
    · exact hadd
    · exact sendTokens_gains hs
  · split
    · rw [hmisses, hm]
      exact hadd
    · exact sendTokens_gains hs

end

theorem execTokd_atDie {s : State} {p : Packet} (hd : p.dst < 8) : execTokd p s = .next (s.tokensAtDie p.dst p true) := congrArg _ (if_pos hd)
theorem execTokn_atDie {s : State} {p : Packet} (hd : p.dst < 8) : execTokn p s = .next (s.tokensAtDie p.dst p false) := congrArg _ (if_pos hd)

/-- Settles O60: byte memories by kind of instruction, then handles by instruction and by engine event, then tokens by packet. -/
theorem memoryKeepsItsForm : Obligations.MemoryKeepsItsForm := by
  unfold Obligations.MemoryKeepsItsForm
  refine ⟨fun s t h hi hv => ?memories, fun s t g hi hv => ?handles, fun s d site n g => ?engines, fun s t hs => ?tokens⟩
  case memories =>
    refine ⟨fun d a b u i hmem ht => (registerInstruction_onlyMe hi hv d a b u i hmem ht).memoryWf h, ?system,
      fun _ _ _ _ _ => State.memoryWf_execLdl h hi hv, fun _ _ _ _ _ => State.memoryWf_execStl h hi hv,
      fun _ _ _ _ _ _ _ => State.memoryWf_execAmol h hi hv, fun _ ha hb hp => State.memoryWf_execMst h ha hb hp, State.memoryWf_hostPut h⟩
    case system =>
      intro d r n
      simp only [List.forall_mem_cons]
      exact ⟨fun ht => (issueAlu_onlyMe ht).memoryWf h, State.memoryWf_execSwr h hi hv, fun ht => (execSvc_onlyMe hi hv ht).memoryWf h,
        fun ht => (execTrap_onlyMe hi hv ht).memoryWf h, fun ht => (execBrk_onlyMe hi hv ht).memoryWf h, List.forall_mem_nil _⟩
  case handles =>
    intro x a b n to_ o
    simp only [List.forall_mem_cons]
    exact ⟨State.handlesWf_execHalloc g hi hv, State.handlesWf_execHfree g, State.handlesWf_execHset g hi hv,
      State.handlesWf_execHwait g hi hv, List.forall_mem_nil _⟩
  case engines =>
    exact ⟨fun _ => State.handlesWf_beginConsumer g, State.handlesWf_endConsumer g d site n,
      fun _ o _ _ psn hgo => Handle.wf_count ((g d site).1 n) hgo o psn⟩
  case tokens =>
    refine ⟨fun p => ?requests, fun die x ht => ?evicted, fun p hd hp hm => ?arrivals⟩
    case requests =>
      simp only [List.forall_mem_cons]
      exact ⟨fun ht => keepsTokens_execGets ht hs, fun ht => keepsTokens_execGetx ht hs, List.forall_mem_nil _⟩
    case evicted =>
      cases ht
      exact keepsTokens_evictLine s die x hs
    case arrivals =>
      simp only [List.forall_mem_cons]
      refine ⟨fun ht => ?_, fun ht => ?_, List.forall_mem_nil _⟩
      · cases (execTokd_atDie hd).symm.trans ht
        exact tokensAtDie_gains hs hd hp hm true
      · cases (execTokn_atDie hd).symm.trans ht
        exact tokensAtDie_gains hs hd hp hm false

end Sys2Proof.Machine
end

section
/-! PROOFS. Token packets, uncached packets and die cache events (spec 08 R196, R203 to R209, 09 R222, R232, 17 R405): what each does under each of
its conditions. -/
namespace Sys2Proof.Machine

/-! ### Transient requests at a die cache (08 R203, R206) -/

section
variable {s : State} {p : Packet} (hd : p.dst < 8)
include hd

theorem execGets_no_owner (ho : (s.cacheLine p.dst p.line).own = false) : execGets p s = .next s := by
  simp only [execGets, if_pos hd, ho, Bool.not_false, Bool.or_true, if_true]

section
variable (ha : s.activeFor p.dst p.line ≠ none)
include ha

theorem execGets_persistent : execGets p s = .next s := by
  simp only [execGets, if_pos hd, Option.isSome_iff_ne_none.2 ha, Bool.true_or, if_true]

theorem execGetx_persistent : execGetx p s = .next s := by
  simp only [execGetx, if_pos hd, Option.isSome_iff_ne_none.2 ha, if_true]

end

section
variable (ha : s.activeFor p.dst p.line = none)
include ha

theorem execGetx_gives_all :
    let c := s.cacheLine p.dst p.line
    execGetx p s =
      .next ((s.setCacheLine p.dst p.line CacheLine.none).sendTokens p.dst p.src p.line p.txn c.tok c.own c.dirty c.own c.dataOf) := by
  simp only [execGetx, if_pos hd, ha, Option.isSome_none, Bool.false_eq_true, if_false]

variable (ho : (s.cacheLine p.dst p.line).own = true)
include ho

theorem execGets_gives_line (h1 : (s.cacheLine p.dst p.line).tok = 1) :
    let c := s.cacheLine p.dst p.line
    execGets p s =
      .next ((s.setCacheLine p.dst p.line CacheLine.none).sendTokens p.dst p.src p.line p.txn 1 true c.dirty true c.dataOf) := by
  simp only [execGets, if_pos hd, ha, ho, h1, Option.isSome_none, Bool.not_true, Bool.or_false, Bool.false_eq_true, if_false, if_true]

theorem execGets_gives_token (h1 : (s.cacheLine p.dst p.line).tok ≠ 1) :
    let c := s.cacheLine p.dst p.line
    execGets p s = .next ((s.setCacheLine p.dst p.line { c with tok := c.tok - 1 }).sendTokens p.dst p.src p.line p.txn 1 false false true
      c.dataOf) := by
  simp only [execGets, if_pos hd, ha, ho, if_neg h1, Option.isSome_none, Bool.not_true, Bool.or_false, Bool.false_eq_true, if_false]

end
end

/-! ### Transient requests at a home (08 R203, R204, R206, 09 R233) -/

/-- A REFUSE or TICKET of the home of the line of a request (08 R204, log 9). -/
def State.refusal (s : State) (p : Packet) (aux : Nat) : Packet :=
  { Packet.zero with src := s.homeNode p.line, dst := p.src, line := p.line, txn := p.txn, part := p.part, aux := aux }

/-- A persistent request or an SC access has the line, so that its home does not answer transient requests (08 R206, 09 R233). -/
def State.LineTaken (s : State) (l : Nat) : Prop := s.activeEntry l ≠ none ∨ s.homeHolds l = true

theorem lineTaken_iff (s : State) (l : Nat) : ((s.activeEntry l).isSome || s.homeHolds l) = true ↔ s.LineTaken l := by
  rw [Bool.or_eq_true, Option.isSome_iff_ne_none, State.LineTaken]

theorem not_lineTaken {s : State} {l : Nat} (he : s.activeEntry l = none) (hh : s.homeHolds l = false) : ¬s.LineTaken l := by
  simp [State.LineTaken, he, hh]

section
variable {s : State} {p : Packet} {answer : State → State}

section
variable (ht : s.LineTaken p.line)
include ht

theorem homeTransient_taken_granted (h2 : p.aux = 2) : s.homeTransient p answer = s.freeTracker (s.homeSlice p.line) := by
  simp only [State.homeTransient, if_pos h2, if_pos ((lineTaken_iff _ _).2 ht)]

theorem homeTransient_taken (h2 : p.aux ≠ 2) : s.homeTransient p answer = s := by
  simp only [State.homeTransient, if_neg h2, if_pos ((lineTaken_iff _ _).2 ht)]

end

section
variable (ht : ¬s.LineTaken p.line)
include ht

theorem homeTransient_granted (h2 : p.aux = 2) : s.homeTransient p answer = (answer s).freeTracker (s.homeSlice p.line) := by
  simp only [State.homeTransient, if_pos h2, if_neg (mt (lineTaken_iff _ _).1 ht)]

theorem homeTransient_answers (h2 : p.aux ≠ 2) (hu : s.trackerUse (s.homeSlice p.line) < 32) : s.homeTransient p answer = answer s := by
  simp only [State.homeTransient, if_neg h2, if_neg (mt (lineTaken_iff _ _).1 ht), if_neg (Nat.not_le.2 hu)]

variable (hu : 32 ≤ s.trackerUse (s.homeSlice p.line))
include hu

theorem homeTransient_refuses (h0 : p.aux = 0) : s.homeTransient p answer = s.send 5 (s.refusal p 0) := by
  simp only [State.homeTransient, h0, if_neg (mt (lineTaken_iff _ _).1 ht), if_pos hu, if_true]
  rfl

/-- The state in which a slice's tickets are `q`, the one at place `k` of which has been announced (08 R204). -/
def State.ticketed (s : State) (p : Packet) (q : List (Nat × Nat)) (k : Nat) : State :=
  State.send { s with tickets := tput s.tickets (s.homeSlice p.line) q } 6 (s.refusal p k)

variable (h0 : p.aux ≠ 0) (h2 : p.aux ≠ 2)
include h0 h2

theorem homeTransient_keeps_ticket (hq : (p.src, p.line) ∈ tgetD s.tickets (s.homeSlice p.line) []) :
    let q := tgetD s.tickets (s.homeSlice p.line) []
    s.homeTransient p answer = s.ticketed p q (q.idxOf (p.src, p.line)) := by
  simp only [State.homeTransient, if_neg h2, if_neg (mt (lineTaken_iff _ _).1 ht), if_pos hu, if_neg h0, if_pos (List.contains_iff_mem.2 hq)]
  rfl

theorem homeTransient_gives_ticket (hq : (p.src, p.line) ∉ tgetD s.tickets (s.homeSlice p.line) []) :
    let q := tgetD s.tickets (s.homeSlice p.line) []
    s.homeTransient p answer = s.ticketed p (q ++ [(p.src, p.line)]) q.length := by
  have hlast : (tgetD s.tickets (s.homeSlice p.line) [] ++ [(p.src, p.line)]).idxOf (p.src, p.line)
      = (tgetD s.tickets (s.homeSlice p.line) []).length := by
    rw [List.idxOf_append_of_notMem hq, List.idxOf_cons_self, Nat.add_zero]
  simp only [State.homeTransient, if_neg h2, if_neg (mt (lineTaken_iff _ _).1 ht), if_pos hu, if_neg h0,
    if_neg (mt List.contains_iff_mem.1 hq), hlast]
  rfl

end

variable (hd : 8 ≤ p.dst)
include hd

theorem execGets_atHome : execGets p s = .next (s.homeTransient p fun s => s.homeShare p) := by
  simp only [execGets, if_neg (Nat.not_lt.2 hd)]

theorem execGetx_atHome : execGetx p s = .next (s.homeTransient p fun s => s.homeYield p) := by
  simp only [execGetx, if_neg (Nat.not_lt.2 hd)]

/-- Where the home's answer does not matter, GETS and GETX do the same. -/
theorem transient_atHome {t : State} (h : ∀ answer, s.homeTransient p answer = t) : execGets p s = .next t ∧ execGetx p s = .next t :=
  ⟨(execGets_atHome hd).trans (congrArg _ (h _)), (execGetx_atHome hd).trans (congrArg _ (h _))⟩

end

/-! ### Answers of a home to a transient request, and its time-out (08 R203, R204) -/

/-- A miss that is in its transient phase: not persistent, and with fewer than two failed attempts (08 R204). -/
def Miss.Transient (m : Miss) : Prop := m.persistent = false ∧ m.fails < 2

theorem Miss.not_transient_iff (m : Miss) : (m.persistent || decide (2 ≤ m.fails)) = true ↔ ¬m.Transient := by
  simp only [Miss.Transient, Bool.or_eq_true, decide_eq_true_eq, not_and_or, Bool.not_eq_false, Nat.not_lt]

theorem Miss.not_transient {m : Miss} (h : m.persistent = true ∨ 2 ≤ m.fails) : ¬m.Transient :=
  m.not_transient_iff.1 (by simpa using h)

section
variable {s : State} {p : Packet} {d line : Nat} {m : Miss}

theorem transientMiss_of_transient {txn : Nat} (hm : tget (s.die d).misses line = some m) (hx : m.txn = txn) (ht : m.Transient) :
    s.transientMiss d line txn = some m := by
  simp only [State.transientMiss, hm, hx, ht.1, ht.2, Bool.not_false, and_self, if_true]

theorem transientMiss_none {txn : Nat} (hm : tget (s.die d).misses line = none) : s.transientMiss d line txn = none := by
  simp only [State.transientMiss, hm]

section
variable (hm : s.transientMiss p.dst p.line p.txn = some m)
include hm

theorem execRefuse_fails : execRefuse p s = .next (s.failAttempt p.dst p.line m) := by simp only [execRefuse, hm]
theorem execTicket_waits : execTicket p s = .next (s.setMiss p.dst p.line { m with ticket := true }) := by simp only [execTicket, hm]

end

section
variable (hm : s.transientMiss p.dst p.line p.txn = none)
include hm

theorem execRefuse_unwanted : execRefuse p s = .next s := by simp only [execRefuse, hm]
theorem execTicket_unwanted : execTicket p s = .next s := by simp only [execTicket, hm]

end

theorem execGrant_resends (hm : tget (s.die p.dst).misses p.line = some m) (ht : m.Transient) :
    execGrant p s = .next ((s.setMiss p.dst p.line { m with ticket := false }).sendTransient p.dst p.line { m with ticket := false } 2) := by
  simp only [execGrant, hm, if_neg (mt m.not_transient_iff.1 (not_not.2 ht))]

theorem execGrant_frees (hm : tget (s.die p.dst).misses p.line = some m) (ht : ¬m.Transient) :
    execGrant p s = .next (s.freeTracker (s.homeSlice p.line)) := by
  simp only [execGrant, hm, if_pos (m.not_transient_iff.2 ht)]

theorem execGrant_no_miss (hm : tget (s.die p.dst).misses p.line = none) : execGrant p s = .next (s.freeTracker (s.homeSlice p.line)) := by
  simp only [execGrant, hm]

variable (hm : tget (s.die d).misses line = some m)
include hm

theorem execTransientTimeout_fails (ht : m.Transient) : execTransientTimeout d line s = .next (s.failAttempt d line m) := by
  simp only [execTransientTimeout, hm, if_neg (mt m.not_transient_iff.1 (not_not.2 ht))]

theorem execTransientTimeout_past (ht : ¬m.Transient) : execTransientTimeout d line s = .next s := by
  simp only [execTransientTimeout, hm, if_pos (m.not_transient_iff.2 ht)]

end

/-! ### Tokens that arrive at a home (08 R204, R206, R209) -/

theorem execTokd_atHome {s : State} {p : Packet} (hd : 8 ≤ p.dst) : execTokd p s = .next (s.tokensAtHome p) :=
  congrArg _ (if_neg (Nat.not_lt.2 hd))
theorem execTokn_atHome {s : State} {p : Packet} (hd : 8 ≤ p.dst) : execTokn p s = .next (s.tokensAtHome p) :=
  congrArg _ (if_neg (Nat.not_lt.2 hd))

/-! ### Uncached requests and their replies (08 R201, R208, 09 R232) -/

section
variable {s : State} {p : Packet}

theorem uncachedArrive_serial {opc : Nat} (hp : scPacket p = true) (hl : s.lostHome p.line = false) :
    s.uncachedArrive opc p = (State.joinSerial { s with homeWait := s.homeWait ++ [{ p with tok := 0 }] } (sliceNode (s.homeSlice p.line)) p.src
      p.txn).homeSettle p.line :=
  if_pos (by simp [hp, hl])

section
variable (hp : scPacket p = false)
include hp

theorem uncachedArrive_waits {opc : Nat} (hu : 32 ≤ s.trackerUse (s.homeSlice p.line)) : s.uncachedArrive opc p = s.waitAt opc p :=
  (if_neg (by simp [hp])).trans (if_pos hu)

theorem uncachedArrive_atHome {opc : Nat} (hu : s.trackerUse (s.homeSlice p.line) < 32) :
    s.uncachedArrive opc p = State.homeSettle { s with homeWait := s.homeWait ++ [p] } p.line :=
  (if_neg (by simp [hp])).trans (if_neg (Nat.not_le.2 hu))

end

/-- The test by which UCRSP passes over an access fails for one whose request is at its home. -/
theorem awaits_home {a : Access} (hp : a.phase = .uncached ∨ a.phase = .serial) : (a.phase != .uncached && a.phase != .serial) = false := by
  rcases hp with hp | hp <;> simp [hp]

theorem execUcrsp_atMdie (hd : 8 ≤ p.dst) : execUcrsp p s = .next (s.replyAtMdie p) := if_pos hd

section
variable (hd : p.dst < 8)
include hd

theorem execUcrsp_unknown (ha : s.accessOf p.dst p.txn = none) : execUcrsp p s = .next (s.countGen p.dst) := by
  simp only [execUcrsp, if_neg (Nat.not_le.2 hd), ha]

variable {a : Access} {x y z : Nat} (ha : s.accessOf p.dst p.txn = some a) (hp : a.phase = .uncached ∨ a.phase = .serial)
include ha hp

theorem execUcrsp_strand_reads (hg : a.agent = .strand x y z) (hr : a.reads = true) :
    execUcrsp p s = .next (s.replyRead a (a.extendValue p.data.toNat) p.psn) := by
  simp only [execUcrsp, if_neg (Nat.not_le.2 hd), ha, awaits_home hp, hg, hr, Bool.false_eq_true, if_false, if_true]

theorem execUcrsp_strand_writes (hg : a.agent = .strand x y z) (hr : a.reads = false) : execUcrsp p s = .next (s.finishReply a) := by
  simp only [execUcrsp, if_neg (Nat.not_le.2 hd), ha, awaits_home hp, hg, hr, Bool.false_eq_true, if_false]

theorem execUcrsp_engine (hg : a.agent = .stream x y z ∨ a.agent = .copy x y z) :
    execUcrsp p s = .next (s.enginePiece a false (toBytes p.data.toNat (2 ^ p.size)) p.psn) := by
  rcases hg with hg | hg <;>
    simp only [execUcrsp, if_neg (Nat.not_le.2 hd), ha, awaits_home hp, hg, Bool.false_eq_true, if_false]

end
end

/-! ### Accesses at a die cache (08 R196, 09 R222, 17 R405) -/

section
variable {s : State} {d k : Nat} {a : Access} (ha : s.access? k = some a) (hp : a.phase = .cache) (hd : a.agent.dieNo = d)
include ha hp hd

section
variable (hk : a.kind = .pref)
include hk

theorem execDieCacheAccess_hint_served (hr : (s.cacheLine d (a.pa / 128)).serves a.writes = true) :
    execDieCacheAccess d k s = .next (s.finish a) := by
  simp [execDieCacheAccess, ha, hp, hd, hk, hr]

theorem execDieCacheAccess_hint_missed (hr : (s.cacheLine d (a.pa / 128)).serves a.writes = false) :
    execDieCacheAccess d k s = .next (s.openMiss d (a.pa / 128) false a.part true) := by
  simp [execDieCacheAccess, ha, hp, hd, hk, hr]

end

section
variable (hk : a.kind ≠ .pref)
include hk

theorem execDieCacheAccess_ordered (hm : s.mayPerform a = false) : execDieCacheAccess d k s = .next s := by
  simp [execDieCacheAccess, ha, hp, hd, hk, hm]

variable (hm : s.mayPerform a = true)
include hm

theorem execDieCacheAccess_served (hr : (s.cacheLine d (a.pa / 128)).serves a.writes = true) :
    execDieCacheAccess d k s = .next (s.cachePerform d a) := by
  simp [execDieCacheAccess, ha, hp, hd, hk, hm, hr]

theorem execDieCacheAccess_missed (hr : (s.cacheLine d (a.pa / 128)).serves a.writes = false) :
    execDieCacheAccess d k s = .next (s.openMiss d (a.pa / 128) a.writes a.part false) := by
  simp [execDieCacheAccess, ha, hp, hd, hk, hm, hr]

end
end

/-- Settles O50: requests at a die cache, requests and tokens at a home, the answers to a miss, uncached requests and replies, and what happens at a
die cache. -/
theorem tokenPackets : Obligations.TokenPackets := by
  unfold Obligations.TokenPackets
  intro s p d k line c l slice both
  refine ⟨fun hd ha => ⟨execGets_gives_line hd ha, execGets_gives_token hd ha, execGets_no_owner hd, execGetx_gives_all hd ha⟩,
    fun hd ha => ⟨execGets_persistent hd ha, execGetx_persistent hd ha⟩, ?answered, ?taken, ?full,
    fun hd => ⟨execTokd_atDie hd, execTokn_atDie hd⟩, fun hd => ⟨execTokd_atHome hd, execTokn_atHome hd⟩, ?missed, ?granted, ?unmissed,
    fun m hm => ⟨fun hp hf => execTransientTimeout_fails hm ⟨hp, hf⟩, fun h => execTransientTimeout_past hm (Miss.not_transient h)⟩,
    fun hp hl => ⟨congrArg _ (uncachedArrive_serial hp hl), congrArg _ (uncachedArrive_serial hp hl)⟩,
    fun hp hu => ⟨congrArg _ (uncachedArrive_waits hp hu), congrArg _ (uncachedArrive_waits hp hu)⟩,
    fun hp hu => ⟨congrArg _ (uncachedArrive_atHome hp hu), congrArg _ (uncachedArrive_atHome hp hu)⟩,
    execUcrsp_unknown, ?replied, execUcrsp_atMdie, rfl, ?cached⟩
  case answered =>
    intro hd he hh
    have ht := not_lineTaken he hh
    exact ⟨fun h2 => ⟨(execGets_atHome hd).trans (congrArg _ (homeTransient_granted ht h2)),
        (execGetx_atHome hd).trans (congrArg _ (homeTransient_granted ht h2))⟩,
      fun h2 hu => ⟨(execGets_atHome hd).trans (congrArg _ (homeTransient_answers ht h2 hu)),
        (execGetx_atHome hd).trans (congrArg _ (homeTransient_answers ht h2 hu))⟩⟩
  case taken =>
    exact fun hd ht => ⟨fun h2 => transient_atHome hd fun _ => homeTransient_taken_granted ht h2,
      fun h2 => transient_atHome hd fun _ => homeTransient_taken ht h2⟩
  case full =>
    intro hd he hh hu refused
    have ht := not_lineTaken he hh
    exact ⟨fun h0 => transient_atHome hd fun _ => homeTransient_refuses ht hu h0,
      fun h0 h2 => ⟨fun hq => transient_atHome hd fun _ => homeTransient_gives_ticket ht hu h0 h2 hq,
        fun hq => transient_atHome hd fun _ => homeTransient_keeps_ticket ht hu h0 h2 hq⟩⟩
  case missed =>
    intro m hm hx hp hf
    have ht := transientMiss_of_transient hm hx ⟨hp, hf⟩
    exact ⟨execRefuse_fails ht, execTicket_waits ht⟩
  case granted =>
    exact fun m hm => ⟨fun hp hf => execGrant_resends hm ⟨hp, hf⟩, fun h => execGrant_frees hm (Miss.not_transient h)⟩
  case unmissed =>
    exact fun hm => ⟨execGrant_no_miss hm, execRefuse_unwanted (transientMiss_none hm), execTicket_unwanted (transientMiss_none hm)⟩
  case replied =>
    exact fun a x y z hd ha hp => ⟨execUcrsp_strand_reads hd ha hp, execUcrsp_strand_writes hd ha hp, execUcrsp_engine hd ha hp⟩
  case cached =>
    intro a ha hp hd ready
    exact ⟨fun hk hm => ⟨execDieCacheAccess_served ha hp hd hk hm, execDieCacheAccess_missed ha hp hd hk hm⟩,
      fun hk => execDieCacheAccess_ordered ha hp hd hk,
      fun hk => ⟨execDieCacheAccess_hint_served ha hp hd hk, execDieCacheAccess_hint_missed ha hp hd hk⟩⟩

end Sys2Proof.Machine
end

section
/-! PROOFS. Persistent requests, memory-tile packets, the serialising token and refused packets (spec 08 R201, R205 to R209, R212, R213, 09 R232 to
R234, 10 R253, 11 R259): what each does under each of its conditions. -/
namespace Sys2Proof.Machine

/-! ### Persistent requests at a home (08 R205, R207, log 75) -/

/-- The state in which a home has `l` and then a request of `p`'s sender in state `st`, and has gone on from there. -/
def State.requested (s : State) (p : Packet) (l : List Persistent) (st : Nat) : State :=
  (State.activateNext { s with persistent := l ++ [(⟨p.line, p.src, st, 0, 0⟩ : Persistent)] } p.line).homeSettle p.line

section
variable {s : State} {p : Packet} {e : Persistent}

theorem execPreq_joins (h : (s.persistent.find? fun e => e.line == p.line && e.slot == p.src && e.state == 5) = none) :
    execPreq p s = .next (s.requested p s.persistent 0) := by
  simp only [execPreq, h, Option.isSome_none, Bool.false_eq_true, if_false]
  rfl

theorem execPreq_done_before (h : (s.persistent.find? fun e => e.line == p.line && e.slot == p.src && e.state == 5) = some e) :
    execPreq p s = .next (s.requested p (s.persistent.erase e) 4) := by
  simp only [execPreq, h, Option.isSome_some, if_true]
  rfl

section
variable {mine : List Persistent} (hm : (s.persistent.filter fun e => e.line == p.line && e.slot == p.src) = mine)
include hm

theorem execPdone_deactivates (h : mine.find? (fun e => e.state == 1) = some e) : execPdone p s = .next (s.deactivate e false) := by
  simp only [execPdone, hm, h]

theorem execPdone_noted (h : mine.find? (fun e => e.state == 1) = none) (h0 : mine.find? (fun e => e.state == 0) = some e) :
    execPdone p s = .next (s.putEntry e { e with state := 4 }) := by
  simp only [execPdone, hm, h, h0]

theorem execPdone_early (h : mine = []) :
    execPdone p s = .next { s with persistent := s.persistent ++ [(⟨p.line, p.src, 5, 0, 0⟩ : Persistent)] } := by
  simp only [execPdone, hm, h, List.find?_nil, List.isEmpty_nil, if_true]

end

/-- The state in which one acknowledgement of an entry has come. -/
def State.countAck (s : State) (e : Persistent) : State := s.putEntry e { e with acks := e.acks - 1 }

/-- The state in which a home's request has ended, and every line that has requests has gone on (08 R205). -/
def State.requestEnds (s : State) (e : Persistent) (line : Nat) : State :=
  let u : State := { s with persistent := s.persistent.erase e }
  (u.over ((u.persistent.map (·.line)).eraseDups) fun line u => (u.activateNext line).homeSettle line).homeSettle line

section
variable (h : (s.persistent.find? fun e => e.line == p.line && e.slot == p.aux / 4096 && e.busy && e.epoch == p.aux % 4096) = some e)
include h

theorem execPack_counts (hk : 1 < e.acks) : execPack p s = .next (s.countAck e) := by
  simp only [execPack, h]
  exact if_pos (Nat.sub_ne_zero_of_lt hk)

variable (hk : e.acks ≤ 1)
include hk

/-- The last acknowledgement of an entry. -/
theorem execPack_last :
    let x := { e with acks := e.acks - 1 }
    execPack p s = if e.state = 3 then .next ((s.countAck e).deactivate x false)
      else if e.state = 2 then .next ((s.countAck e).requestEnds x p.line) else .next (s.countAck e) := by
  simp only [execPack, h, if_neg (not_not.2 (Nat.sub_eq_zero_of_le hk))]
  rfl

theorem execPack_activated (h1 : e.state = 1) : execPack p s = .next (s.countAck e) := by
  simp [execPack_last h hk, h1]

theorem execPack_deactivates (h3 : e.state = 3) :
    execPack p s = .next ((s.countAck e).deactivate { e with acks := e.acks - 1 } false) :=
  (execPack_last h hk).trans (if_pos h3)

theorem execPack_ends (h2 : e.state = 2) :
    execPack p s = .next ((s.countAck e).requestEnds { e with acks := e.acks - 1 } p.line) := by
  simp [execPack_last h hk, h2]

end

theorem execPersistentPoisonTimeout_poisons {line : Nat} (ha : s.activeEntry line ≠ none) (hc : s.tokenCount line ≠ 16) :
    execPersistentPoisonTimeout line s = .next ((s.poisonLine line).homeSettle line) := by
  simp only [execPersistentPoisonTimeout, if_pos (show ((s.activeEntry line).isSome && s.tokenCount line != 16) = true by
    simp [Option.isSome_iff_ne_none, ha, hc])]

theorem execPersistentPoisonTimeout_settles {line : Nat} (h : s.activeEntry line = none ∨ s.tokenCount line = 16) :
    execPersistentPoisonTimeout line s = .next (s.homeSettle line) := by
  simp only [execPersistentPoisonTimeout, if_neg (show ¬((s.activeEntry line).isSome && s.tokenCount line != 16) = true by
    rcases h with h | h <;> simp [h])]

end

/-! ### Activations at a die (08 R205, R206, log 16) -/

/-- The acknowledgement of a PACT or PDEACT. -/
def State.sendAck (s : State) (p : Packet) : State := s.send 11 { Packet.zero with src := p.dst, dst := p.src, line := p.line, aux := p.aux }

/-- The test by which a PDEACT clears its place. -/
theorem clears_iff (e f : Nat) : (epochAfter e f || e == f) = true ↔ epochAfter e f = true ∨ e = f := by
  rw [Bool.or_eq_true, beq_iff_eq]

/-- The state in which a die's place for a PACT's or PDEACT's slot is active or not. -/
def State.setPlace (s : State) (p : Packet) (b : Bool) : State :=
  s.modDie p.dst fun f => { f with acts := tput f.acts (p.aux / 4096) ⟨p.line, p.aux % 4096, b⟩ }

/-- The state in which a die's own request has ended and been acknowledged (08 R206). -/
def State.ownEnded (s : State) (p : Packet) : State := ((s.setPlace p false).sendAck p).modDie p.dst fun f => { f with preq := none }

section
variable {s : State} {p : Packet} {old : Activation} (ho : tgetD (s.die p.dst).acts (p.aux / 4096) ⟨0, 0, false⟩ = old)
include ho

theorem execPact_old (h : epochAfter (p.aux % 4096) old.epoch = false) : execPact p s = .next (s.sendAck p) := by
  simp only [execPact, ho, h, Bool.false_eq_true, if_false]
  rfl

section
variable (h : epochAfter (p.aux % 4096) old.epoch = true)
include h

theorem execPact_own (hs : p.aux / 4096 = p.dst) : execPact p s = .next ((s.setPlace p true).sendAck p) := by
  simp only [execPact, ho, if_pos h, if_pos hs]
  rfl

theorem execPact_other (hs : p.aux / 4096 ≠ p.dst) :
    let t := s.setPlace p true
    let c := t.cacheLine p.dst p.line
    execPact p s = .next (((t.setCacheLine p.dst p.line CacheLine.none).sendTokens p.dst (t.slotNode (p.aux / 4096) p.line) p.line 0 c.tok c.own
      c.dirty c.own c.dataOf).sendAck p) := by
  simp only [execPact, ho, if_pos h, if_neg hs]
  rfl

end

section
variable (hs : p.aux / 4096 ≠ p.dst)
include hs

theorem execPdeact_clears (h : epochAfter (p.aux % 4096) old.epoch = true ∨ p.aux % 4096 = old.epoch) :
    execPdeact p s = .next ((s.setPlace p false).sendAck p) := by
  simp only [execPdeact, ho, if_pos ((clears_iff _ _).2 h), if_pos hs]
  rfl

theorem execPdeact_old (h : ¬(epochAfter (p.aux % 4096) old.epoch = true ∨ p.aux % 4096 = old.epoch)) :
    execPdeact p s = .next (s.sendAck p) := by
  simp only [execPdeact, ho, if_neg (mt (clears_iff _ _).1 h), if_pos hs]
  rfl

end

section
variable (h : epochAfter (p.aux % 4096) old.epoch = true ∨ p.aux % 4096 = old.epoch) (hs : p.aux / 4096 = p.dst)
include h hs

theorem execPdeact_unserved {m : Miss} (hm : tget ((s.ownEnded p).die p.dst).misses p.line = some m) (hp : m.persistent = true) :
    let n := { m with persistent := false, fails := 0 }
    execPdeact p s = .next ((((s.ownEnded p).setMiss p.dst p.line n).sendTransient p.dst p.line n 0).nextPersistent p.dst) := by
  unfold State.ownEnded State.setPlace State.sendAck at hm
  simp only [execPdeact, ho, if_pos ((clears_iff _ _).2 h), if_neg (not_not.2 hs), hm, hp, if_true]
  rfl

theorem execPdeact_next (hm : ∀ m, tget ((s.ownEnded p).die p.dst).misses p.line = some m → m.persistent = false) :
    execPdeact p s = .next ((s.ownEnded p).nextPersistent p.dst) := by
  unfold State.ownEnded State.setPlace State.sendAck at hm
  simp only [execPdeact, ho, if_pos ((clears_iff _ _).2 h), if_neg (not_not.2 hs)]
  split
  · next m hmiss =>
    rw [if_neg (by simp [hm m hmiss])]
    rfl
  · rfl

end
end

/-! ### Memory-tile packets (08 R212, R213, 09 R233) -/

section
variable {s : State} {p : Packet} {a : Access}

theorem execMtop_unknown (h : s.accessOf p.src p.txn = none) : execMtop p s = .next (s.countGen p.src) := by simp only [execMtop, h]

section
variable (h : s.accessOf p.src p.txn = some a)
include h

theorem execMtop_serial (ho : a.ord = .sc) (hl : s.lostWord (a.va - windowBase) = false) :
    execMtop p s = .next (s.joinSerial (s.tileNode (a.va - windowBase)) p.src p.txn) := by
  simp [execMtop, h, ho, hl]

theorem execMtop_performs (ho : a.ord ≠ .sc) : execMtop p s = .next (s.windowStep a) := by
  simp [execMtop, h, ho]

end

theorem execMtrsp_unknown (h : s.accessOf p.dst p.txn = none) : execMtrsp p s = .next (s.countGen p.dst) := by simp only [execMtrsp, h]

section
variable (h : s.accessOf p.dst p.txn = some a)
include h

theorem execMtrsp_waits (hb : s.heldBack a = true) : execMtrsp p s = .next (s.waitAt 17 p) := by simp only [execMtrsp, h, if_pos hb]

variable (hb : s.heldBack a = false)
include hb

theorem execMtrsp_strand {d t n : Nat} (hg : a.agent = .strand d t n) : execMtrsp p s = .next (s.windowReply a p d t n) := by
  simp only [execMtrsp, h, hb, hg, Bool.false_eq_true, if_false]

theorem execMtrsp_pe {d t n i : Nat} (hg : a.agent = .pe d t n i) : execMtrsp p s = .next (s.gridReply a p d t n i) := by
  simp only [execMtrsp, h, hb, hg, Bool.false_eq_true, if_false]

theorem execMtrsp_engine {x y z : Nat} (hg : a.agent = .stream x y z ∨ a.agent = .copy x y z) :
    execMtrsp p s = .next (s.enginePiece a (p.psn && p.stat != 0) (toBytes p.data.toNat a.bytes) p.psn) := by
  rcases hg with hg | hg <;> simp only [execMtrsp, h, hb, hg, Bool.false_eq_true, if_false]

end
end

/-! ### Refused packets (08 R201, 10 R253, log 15) -/

section
variable {s : State} {p : Packet}

theorem execNack_atMdie (hd : 8 ≤ p.dst) : execNack p s = .next (s.nackAtMdie p) := if_pos hd

section
variable {a : Access} (hd : p.dst < 8) (h : s.accessOf p.dst p.txn = some a)
include hd h

theorem execNack_drops (h2 : p.stat = 2) : execNack p s = .next ((s.countGen a.agent.dieNo).finish a) := by
  simp only [execNack, if_neg (Nat.not_le.2 hd), h, if_pos h2]

variable (h2 : p.stat ≠ 2)
include h2

theorem execNack_unsent (hs : a.sent = false) : execNack p s = .next s := by
  simp only [execNack, if_neg (Nat.not_le.2 hd), h, if_neg h2, hs, Bool.not_false, if_true]

variable {x y z : Nat} (hs : a.sent = true)
include hs

theorem execNack_strand (hg : a.agent = .strand x y z) :
    execNack p s = .next ((s.modAccess a.id fun _ => { a with sent := false }).push { a with sent := false }) := by
  simp only [execNack, if_neg (Nat.not_le.2 hd), h, if_neg h2, hs, hg, Bool.not_true, Bool.false_eq_true, if_false]

theorem execNack_engine (hg : a.agent = .stream x y z ∨ a.agent = .copy x y z) : execNack p s = .next (s.endWalk a) := by
  rcases hg with hg | hg <;>
    simp only [execNack, if_neg (Nat.not_le.2 hd), h, if_neg h2, hs, hg, Bool.not_true, Bool.false_eq_true, if_false]

end
end

/-! ### The serialising token (09 R232, R234, log 98) -/

section
variable {s : State} {p : Packet}

theorem visit_ready {n : Nat} {x : Nat × Nat} {rest : List (Nat × Nat)} (h : s.serialReady x = true) :
    State.visit n (x :: rest) s = State.visit n rest (s.serialPerform n x.1 x.2) := if_pos h
theorem visit_unready {n : Nat} {x : Nat × Nat} {rest : List (Nat × Nat)} (h : s.serialReady x = false) :
    State.visit n (x :: rest) s = (x :: rest, s) := if_neg (Bool.eq_false_iff.1 h)
theorem visitList_arriving {n : Nat} (h : s.scVisit = none) : s.visitList n = (s.waitersAt n).take 4 := by simp only [State.visitList, h]

/-- The visit that the token makes at the node it has reached. -/
def State.tokenVisit (s : State) : List (Nat × Nat) × State := State.visit s.scAt (s.visitList s.scAt) s

/-- The state in which the token has left node `n` for the next one, with a lap. -/
def State.passToken (s : State) (n lap : Nat) (fresh : Bool) : State :=
  State.send { s with scVisit := none, scAt := s.nextNode n, scLap := lap, scFresh := fresh } 19
    { Packet.zero with src := ringDie n, dst := ringDie (s.nextNode n), aux := lap }

theorem execSct_old (h : p.aux ≠ s.scLap) : execSct p s = .next s := if_pos (by simp [h])

section
variable (h : p.aux = s.scLap) (hf : s.firstNode ≠ 2560) (hu : s.ringUsable s.scAt = true)
include h hf hu

/-- A token of the present lap visits its node, and goes on when the visit has nothing left. -/
theorem execSct_visits :
    let t := s.tokenVisit.2
    let first := s.scAt == t.firstNode
    execSct p s = if !s.tokenVisit.1.isEmpty then .next (State.waitAt { t with scVisit := some s.tokenVisit.1 } 19 p)
      else .next (t.passToken s.scAt (if first && !t.scFresh then (t.scLap + 1) % 65536 else t.scLap) (t.scFresh && !first)) := by
  have hcur : ¬(p.aux != s.scLap || s.firstNode == 2560) = true := by simp [h, hf]
  simp only [execSct, if_neg hcur, if_pos hu]
  rfl

theorem execSct_stays (hr : s.tokenVisit.1 ≠ []) :
    execSct p s = .next (State.waitAt { s.tokenVisit.2 with scVisit := some s.tokenVisit.1 } 19 p) :=
  (execSct_visits h hf hu).trans (if_pos (by simpa using hr))

variable (hr : s.tokenVisit.1 = [])
include hr

theorem execSct_goes_on (hn : s.scAt ≠ s.tokenVisit.2.firstNode) :
    let t := s.tokenVisit.2
    execSct p s = .next (t.passToken s.scAt t.scLap t.scFresh) := by
  simp [execSct_visits h hf hu, hr, beq_eq_false_iff_ne.2 hn]

theorem execSct_new_lap (hn : s.scAt = s.tokenVisit.2.firstNode) :
    let t := s.tokenVisit.2
    execSct p s = .next (t.passToken s.scAt (if t.scFresh then t.scLap else (t.scLap + 1) % 65536) false) := by
  cases hfresh : s.tokenVisit.2.scFresh <;> simp [execSct_visits h hf hu, hr, ← hn, hfresh]

end

theorem execSclost_issues (hb : s.plinth.booted = true) (hf : s.firstNode ≠ 2560) :
    execSclost s = .next (s.regenerate.raiseEvent 4 (ringDie s.regenerate.firstNode) (BitVec.ofNat 64 s.regenerate.scLap) 0) :=
  if_neg (by simp [hb, hf])

theorem regenerate_of_node (hf : s.firstNode ≠ 2560) :
    let lap := (s.scLap + 1) % 65536
    s.regenerate = State.send { s with scLap := lap, scAt := s.firstNode, scFresh := true, scVisit := none } 19
      { Packet.zero with src := ringDie s.firstNode, dst := ringDie s.firstNode, aux := lap } := by
  simp only [State.regenerate, if_neg hf]

end

/-- Settles O51: persistent requests, memory-tile packets, refused requests and the serialising token, and what is unknown or lost. -/
theorem persistentAndSerialPackets : Obligations.PersistentAndSerialPackets := by
  unfold Obligations.PersistentAndSerialPackets
  intro s p line slot old ack on later joined early
  refine ⟨execPreq_joins, fun x => execPreq_done_before, execPact_own rfl, execPact_other rfl, execPact_old rfl,
    fun h hs => execPdeact_clears rfl hs h, fun hl he hs => execPdeact_old rfl hs (not_or.2 ⟨Bool.eq_false_iff.1 hl, he⟩), ?ended, ?acknowledged,
    ⟨fun e => execPdone_deactivates rfl, fun e => execPdone_noted rfl, execPdone_early rfl⟩,
    fun a ha => ⟨execMtop_serial ha, execMtop_performs ha⟩, execMtop_unknown, ?replied, execMtrsp_unknown, ?refused, execNack_atMdie, ?visits,
    fun n x rest => ⟨rfl, visit_ready, visit_unready, visitList_arriving⟩, execSct_old, ?lost, ?unknown,
    execPersistentPoisonTimeout_poisons, execPersistentPoisonTimeout_settles⟩
  case ended =>
    exact fun h hs => ⟨fun m => execPdeact_unserved rfl h hs, execPdeact_next rfl h hs⟩
  case acknowledged =>
    exact fun e he => ⟨execPack_counts he, execPack_activated he, execPack_deactivates he, execPack_ends he⟩
  case replied =>
    exact fun a ha => ⟨fun d t n hg hb => execMtrsp_strand ha hb hg, fun d t n i hg hb => execMtrsp_pe ha hb hg,
      fun x y z hg hb => execMtrsp_engine ha hb hg, execMtrsp_waits ha⟩
  case refused =>
    exact fun a hd ha => ⟨execNack_drops hd ha, execNack_unsent hd ha,
      fun x y z h2 hs => ⟨execNack_strand hd ha h2 hs, execNack_engine hd ha h2 hs⟩⟩
  case visits =>
    exact fun h hf hu => ⟨execSct_stays h hf hu, execSct_goes_on h hf hu, execSct_new_lap h hf hu⟩
  case lost =>
    intro hb hf lap t
    have ht : s.regenerate = t := regenerate_of_node hf
    have hissue := execSclost_issues hb hf
    rwa [ht] at hissue
  case unknown =>
    exact fun opc r => (apply_ite Host.Outcome.next _ _ _).symm

end Sys2Proof.Machine
end

section
/-! PROOFS. The remote-write buffer, UALink, the Golfy port and the indices of the host's rings (spec 09 R236, 10 R252, 12 R270 to R272, R275 to
R279): what each event does under each of its conditions. -/
namespace Sys2Proof.Machine

/-! ### The remote-write buffer (09 R236) -/

section
variable {s : State} {d k : Nat}

/-- No entry older than `k` of the same device is still to start. -/
theorem no_older_entry_of {x : RemoteEntry} {l : List RemoteEntry}
    (h : ∀ o ∈ l, o.seq < k → o.draining = true ∨ bits o.pa 40 10 ≠ bits x.pa 40 10) :
    (l.any fun o => decide (o.seq < k) && !o.draining && bits o.pa 40 10 == bits x.pa 40 10) = false := by
  rw [List.any_eq_false]
  intro o ho hold
  simp only [Bool.and_eq_true, decide_eq_true_eq, Bool.not_eq_true', beq_iff_eq] at hold
  obtain ⟨⟨hseq, hwaits⟩, hdev⟩ := hold
  rcases h o ho hseq with hdrains | hother
  · exact Bool.false_ne_true (hwaits.symm.trans hdrains)
  · exact hother hdev

theorem execRemoteWriteDrain_starts {x : RemoteEntry} (hx : (s.die d).rwb.find? (fun e => e.seq == k) = some x) (hd : x.draining = false)
    (ho : ∀ o ∈ (s.die d).rwb, o.seq < k → o.draining = true ∨ bits o.pa 40 10 ≠ bits x.pa 40 10) :
    execRemoteWriteDrain d k s = .next ((s.modDie d fun f =>
      { f with rwb := f.rwb.map fun y => if y.seq = k then { y with draining := true } else y }).ualink d (bits x.pa 40 10) none
        (some (d, k)) x.request) := by
  simp only [execRemoteWriteDrain, hx, hd, no_older_entry_of ho, Bool.or_self, Bool.false_eq_true, if_false]

theorem execRemoteWriteAck_frees {e : Bool} (h : s.uaOut.any (fun u => u.entry == some (d, k) && !u.held) = true) :
    execRemoteWriteAck d k e s = .next (s.endRemoteWrite d k e).releaseUalink := if_pos h

end

/-! ### Requests of peers (12 R276 to R278, 10 R252) -/

/-- The state that has noted the transaction of a request. -/
def State.noteRequest (s : State) (r : UaReq) : State := { s with uaSeen := (r.src, r.id) :: s.uaSeen }

section
variable {s : State} {d : Nat} {r : UaReq}

theorem execUalinkRequest_repeated (h : s.uaSeen.contains (r.src, r.id) = true) : execUalinkRequest r s = .next s := if_pos h
theorem execUalinkRequest_new (h : s.uaSeen.contains (r.src, r.id) = false) :
    execUalinkRequest r s = .next ((s.noteRequest r).peerRequest r) := if_neg (Bool.eq_false_iff.1 h)

theorem execDispatcherWindowWrite_own (h : windowOf r.off = some d) : execDispatcherWindowWrite d r s = execUalinkRequest r s := if_pos h
theorem execDispatcherWindowWrite_other (h : windowOf r.off ≠ some d) : execDispatcherWindowWrite d r s = .next s := if_neg h

theorem peerRequest_window (h : windowOf r.off = some d) : s.peerRequest r = s.windowWrite d r := by simp only [State.peerRequest, h]

section
variable (h : windowOf r.off = none)
include h

theorem peerRequest_refused (hbad : s.plinth.admitted.contains r.src = false ∨ s.hbmSize < r.off + r.bytes ∨ r.sizeOk = false
      ∨ s.keyOf r.part r.kidx = none) : s.peerRequest r = s.answerPeer r true [] false := by
  simp only [State.peerRequest, h]
  refine if_pos ?_
  rcases hbad with hbad | hbad | hbad | hbad <;> simp only [hbad, Bool.not_false, Bool.true_or, Bool.or_true, decide_true, Option.isNone_none]

theorem peerRequest_served {key : Nat} (hadm : s.plinth.admitted.contains r.src = true) (hoff : r.off + r.bytes ≤ s.hbmSize)
    (hsize : r.sizeOk = true) (hkey : s.keyOf r.part r.kidx = some key) : s.peerRequest r = s.station none r := by
  simp only [State.peerRequest, h, hadm, decide_eq_false (Nat.not_lt.2 hoff), hsize, hkey, Bool.not_true, Bool.or_self, Option.isNone_some,
    Bool.false_eq_true, if_false]

end
end

/-! ### Answers of peers (12 R277, log 17) -/

section
variable {s : State} {u : UaRsp} {x : UaOut}

/-- The state that waits for no answer with the number of `u`. -/
def State.forgetRequest (s : State) (u : UaRsp) : State := { s with uaOut := s.uaOut.filter fun v => v.id != u.id }

theorem execUalinkResponse_ends (h : s.uaOut.find? (fun v => v.id == u.id && !v.held) = some x) :
    execUalinkResponse u s = .next ((s.forgetRequest u).peerAnswered x u).releaseUalink := by
  simp only [execUalinkResponse, h]
  rfl

section
variable {k y z w : Nat} {a : Access} (he : x.entry = none) (hk : x.access = some k) (ha : s.access? k = some a) (hg : a.agent = .strand y z w)
include he hk ha hg

/-- The answer to a strand's own access. -/
theorem peerAnswered_strand :
    s.peerAnswered x u = if u.error then s.faultAccess a ⟨5, 3, BitVec.ofNat 64 a.va⟩
      else if u.psn then s.faultAccess a ⟨8, 1, BitVec.ofNat 64 a.va⟩
      else if a.reads then s.reply a (a.extendValue (fromBytes ((u.data.drop (a.pa % 64)).take a.bytes))) else s.finishReply a := by
  simp only [State.peerAnswered, he, hk, ha, hg]

theorem peerAnswered_error (h : u.error = true) : s.peerAnswered x u = s.faultAccess a ⟨5, 3, BitVec.ofNat 64 a.va⟩ :=
  (peerAnswered_strand he hk ha hg).trans (if_pos h)

variable (h : u.error = false)
include h

theorem peerAnswered_poison (hp : u.psn = true) : s.peerAnswered x u = s.faultAccess a ⟨8, 1, BitVec.ofNat 64 a.va⟩ := by
  simp only [peerAnswered_strand he hk ha hg, h, hp, Bool.false_eq_true, if_false, if_true]

variable (hp : u.psn = false)
include hp

theorem peerAnswered_write (hr : a.reads = false) : s.peerAnswered x u = s.finishReply a := by
  simp only [peerAnswered_strand he hk ha hg, h, hp, hr, Bool.false_eq_true, if_false]

theorem peerAnswered_read (hr : a.reads = true) :
    s.peerAnswered x u = s.reply a (a.extendValue (fromBytes ((u.data.drop (a.pa % 64)).take a.bytes))) := by
  simp only [peerAnswered_strand he hk ha hg, h, hp, hr, Bool.false_eq_true, if_false, if_true]

end
end

/-! ### Ports (12 R279) -/

section
variable {s : State} {n : Nat}

theorem execUalinkPortDown_leaves (h : s.plinth.portsUp.contains n = true) :
    let t := s.modPlinth fun p => { p with portsUp := sdel p.portsUp n, portEpoch := p.portEpoch + 1 }
    execUalinkPortDown n s =
      .next ({ t with uaOut := t.uaOut.map fun (v : UaOut) => if v.port = n then { v with held := true } else v } : State).releaseUalink :=
  if_neg (by simp only [h, Bool.not_true, Bool.false_eq_true, not_false_eq_true])

theorem execUalinkPortUp_joins (hid : s.plinth.idSet = true) (hen : s.portEnabled n = true) (hup : s.plinth.portsUp.contains n = false) :
    execUalinkPortUp n s =
      .next (s.modPlinth fun p => { p with portsUp := sput p.portsUp n, portEpoch := p.portEpoch + 1 }).releaseUalink :=
  if_neg (by simp only [hid, hen, hup, Bool.not_true, Bool.or_self, Bool.false_eq_true, not_false_eq_true])

end

/-! ### The Golfy port and the indices of the rings (12 R270 to R272, R275) -/

section
variable {s : State}

section
variable {k : Nat} {a : Access} (ha : s.access? k = some a) (hp : a.phase = .host) (hl : s.plinth.golfyUp = true) (hm : s.mayPerform a = true)
include ha hp hl hm

/-- An access that the port may perform writes or reads host memory. -/
theorem execGolfyReply_performs :
    execGolfyReply k s = if a.kind == .store then
        .next (({ s with hostMem := mwrite s.hostMem (bits a.pa 0 50) a.bytes a.data.toNat } : State).finish a)
      else .next (s.reply a (a.extendValue (mread s.hostMem (bits a.pa 0 50) a.bytes))) := by
  simp only [execGolfyReply, ha]
  exact if_neg (by simp [hp, hl, hm])

theorem execGolfyReply_stores (hk : a.kind = .store) :
    execGolfyReply k s = .next (({ s with hostMem := mwrite s.hostMem (bits a.pa 0 50) a.bytes a.data.toNat } : State).finish a) :=
  (execGolfyReply_performs ha hp hl hm).trans (if_pos (beq_iff_eq.2 hk))

theorem execGolfyReply_reads (hk : a.kind ≠ .store) :
    execGolfyReply k s = .next (s.reply a (a.extendValue (mread s.hostMem (bits a.pa 0 50) a.bytes))) :=
  (execGolfyReply_performs ha hp hl hm).trans (if_neg (mt beq_iff_eq.1 hk))

end

variable (hb : s.plinth.booted = true)
include hb

theorem execGolfyLinkUp_sends :
    execGolfyLinkUp s = .next ((s.modPlinth fun p => { p with golfyUp := true }).postCompletions s.plinth.cplQueue).flushEvents := if_pos hb

variable (hl : s.plinth.golfyUp = true) {n : Nat}
include hl

theorem execDoorbell_stores : execDoorbell n s = .next (s.modPlinth fun p => { p with cmdTail := n }) :=
  congrArg _ (if_pos (Bool.and_eq_true_iff.2 ⟨hb, hl⟩))

theorem execCompletionHead_stores :
    execCompletionHead n s = .next ((s.modPlinth fun p => { p with cplHead := n }).postCompletions s.plinth.cplQueue) :=
  congrArg _ (if_pos (Bool.and_eq_true_iff.2 ⟨hb, hl⟩))

end

/-- Settles O52: remote writes, requests of peers, their answers, ports, and the host's link. -/
theorem linkEvents : Obligations.LinkEvents := by
  unfold Obligations.LinkEvents
  intro s d k n e r u
  refine ⟨fun x => execRemoteWriteDrain_starts, execRemoteWriteAck_frees, execUalinkRequest_repeated, ?request, execDispatcherWindowWrite_other,
    ?response, execUalinkPortDown_leaves, execUalinkPortUp_joins, ?host, rfl, execGolfyLinkUp_sends,
    fun hb hl => ⟨execDoorbell_stores hb hl, execCompletionHead_stores hb hl⟩⟩
  case request =>
    intro hseen t
    have hnew : execUalinkRequest r s = .next (t.peerRequest r) := execUalinkRequest_new hseen
    refine ⟨fun hw => ?window, fun hw => ⟨fun hbad => ?refused, fun key hadm hoff hsize hkey => ?served⟩⟩
    case window =>
      have hwrite := hnew.trans (congrArg _ (peerRequest_window hw))
      exact ⟨hwrite, (execDispatcherWindowWrite_own hw).trans hwrite, fun hadm => windowWrite_refused (takesWindow_otherwise (.inl hadm))⟩
    case refused => exact hnew.trans (congrArg _ (peerRequest_refused hw hbad))
    case served => exact hnew.trans (congrArg _ (peerRequest_served hw hadm hoff hsize hkey))
  case response =>
    intro x hx t
    have hends : execUalinkResponse u s = .next (t.peerAnswered x u).releaseUalink := execUalinkResponse_ends hx
    refine ⟨hends, fun a y z w he hk ha hg => ?_⟩
    have hanswer {v : State} (h : t.peerAnswered x u = v) : execUalinkResponse u s = .next v.releaseUalink := h ▸ hends
    exact ⟨fun h => hanswer (peerAnswered_error he hk ha hg h), fun h hp => hanswer (peerAnswered_poison he hk ha hg h hp),
      fun h hp hr => hanswer (peerAnswered_write he hk ha hg h hp hr), fun h hp hr => hanswer (peerAnswered_read he hk ha hg h hp hr)⟩
  case host =>
    exact fun a ha hp hl hm => ⟨execGolfyReply_stores ha hp hl hm, execGolfyReply_reads ha hp hl hm⟩

end Sys2Proof.Machine
end

section
/-! PROOFS. Translation of an access (spec 10 R244, R246, 11 R255): what each check of an entry answers, in the order of the checks, and what the
access then does. -/
namespace Sys2Proof.Machine

/-! ### The checks of an entry (10 R244 steps 3 to 6) -/

/-- An entry lacks the permission that an access needs (10 R244 step 5). -/
def TlbEntry.lacks (e : TlbEntry) : Need → Bool
  | .read => !e.r | .write => !e.w | .both => !(e.r && e.w) | .image => !e.x | .none => false

/-- An entry of local HBM whose key slot holds no key of the partition (10 R244 step 6, R245). -/
def State.keyless (s : State) (e : TlbEntry) (part : BitVec 4) : Prop := bits e.pbase 50 2 = 0 ∧ s.keyOf part e.kidx = none

theorem State.beyond_iff {s : State} {e : TlbEntry} {va : Nat} :
    s.beyond e va = true ↔ bits (e.pa va) 50 2 = 0 ∧ s.hbmSize ≤ e.pa va ∨ bits (e.pa va) 50 2 = 2 ∧ 0xFF00000000 ≤ bits (e.pa va) 0 40 := by
  simp only [State.beyond, Bool.or_eq_true, Bool.and_eq_true, beq_iff_eq, decide_eq_true_eq]

section
variable {s : State} {e : TlbEntry} {part : BitVec 4} {gkey : BitVec 8} {need : Need} {va : Nat}

theorem checkEntry_beyond (hb : s.beyond e va = true) : checkEntry s e part gkey need va = some ⟨5, 3, BitVec.ofNat 64 va⟩ := if_pos hb

variable (hb : ¬s.beyond e va = true)
include hb

theorem checkEntry_foreign (h0 : e.gk ≠ 0) (hg : e.gk ≠ gkey) :
    checkEntry s e part gkey need va = some ⟨7, e.gk.toNat, BitVec.ofNat 64 va⟩ := (if_neg hb).trans (if_pos ⟨h0, hg⟩)

variable (hg : e.gk = 0 ∨ e.gk = gkey)
include hg

/-- What is left to check of an entry whose frame and group key are good. -/
theorem checkEntry_admitted : checkEntry s e part gkey need va =
    if e.lacks need then some ⟨6, 5, BitVec.ofNat 64 va⟩
    else if bits e.pbase 50 2 = 0 ∧ s.keyOf part e.kidx = none then some ⟨6, 6, BitVec.ofNat 64 va⟩ else none :=
  (if_neg hb).trans (if_neg fun h => hg.elim h.1 h.2)

theorem checkEntry_lacks (hl : e.lacks need = true) : checkEntry s e part gkey need va = some ⟨6, 5, BitVec.ofNat 64 va⟩ :=
  (checkEntry_admitted hb hg).trans (if_pos hl)

variable (hl : e.lacks need = false)
include hl

theorem checkEntry_keyless (hk : s.keyless e part) : checkEntry s e part gkey need va = some ⟨6, 6, BitVec.ofNat 64 va⟩ :=
  ((checkEntry_admitted hb hg).trans (if_neg (ne_true_of_eq_false hl))).trans (if_pos hk)

theorem checkEntry_passes (hk : ¬s.keyless e part) : checkEntry s e part gkey need va = none :=
  ((checkEntry_admitted hb hg).trans (if_neg (ne_true_of_eq_false hl))).trans (if_neg hk)

end

/-! ### What an access does by its checks (10 R244, R246) -/

section
variable {s : State} {a : Access}

theorem translate_unmapped (h : 2 ^ 57 ≤ a.va ∨ (s.context a.part).valid = false) :
    s.translate a = s.faultAccess a ⟨5, 1, BitVec.ofNat 64 a.va⟩ :=
  if_pos (h.imp_right fun hv => by rw [hv]; rfl)

theorem faultAccess_reports {r : Report} (h : s.live a = true) : (s.faultAccess a r).reports = s.reports ++ [(a.agent, r)] := by
  rw [State.faultAccess, if_pos h]

variable (hva : a.va < 2 ^ 57) (hc : (s.context a.part).valid = true)
include hva hc

/-- An address in range, with a valid context, passes step 1 of 10 R244. -/
theorem not_unmapped_of_valid : ¬(2 ^ 57 ≤ a.va ∨ (!(s.context a.part).valid) = true) := by
  rw [hc]
  exact not_or.2 ⟨Nat.not_le.2 hva, Bool.false_ne_true⟩

theorem translate_waits (h : s.tlbFind a.agent a.part a.va = none) : s.translate a = s.waitWalk a := by
  rw [State.translate, if_neg (not_unmapped_of_valid hva hc), h]

variable {e : TlbEntry} (he : s.tlbFind a.agent a.part a.va = some e)
include he

theorem translate_faults {r : Report} (h : checkEntry s e a.part a.gkey a.kind.need a.va = some r) : s.translate a = s.faultAccess a r := by
  simp only [State.translate, if_neg (not_unmapped_of_valid hva hc), he, h]

theorem translate_routes (h : checkEntry s e a.part a.gkey a.kind.need a.va = none) : s.translate a = s.route a e := by
  simp only [State.translate, if_neg (not_unmapped_of_valid hva hc), he, h]

end

/-- Settles O22: each check is reached when those before it pass, and the first that fails gives the fault. -/
theorem translationChecks : Obligations.TranslationChecks := by
  unfold Obligations.TranslationChecks
  refine ⟨fun s a => ⟨translate_unmapped, fun hva hc => ⟨translate_waits hva hc, fun e he => ?entry⟩⟩, fun s a r => faultAccess_reports⟩
  have hfault {r : Report} := translate_faults hva hc he (r := r)
  refine ⟨fun hb => hfault (checkEntry_beyond (State.beyond_iff.2 hb)),
    fun hb h0 hg => hfault (checkEntry_foreign (mt State.beyond_iff.1 hb) h0 hg), fun hb hg => ?admitted⟩
  replace hb : ¬s.beyond e a.va = true := mt State.beyond_iff.1 hb
  intro lacks keyless
  have hlacks : lacks = e.lacks a.kind.need := by cases hk : a.kind <;> simp only [lacks, hk] <;> rfl
  rw [hlacks]
  exact ⟨fun hl => hfault (checkEntry_lacks hb hg hl), fun hl hk => hfault (checkEntry_keyless hb hg hl hk),
    fun hl hk => translate_routes hva hc he (checkEntry_passes hb hg hl hk)⟩

end Sys2Proof.Machine
end

section
/-! PROOFS. The bytes of a tile scratchpad (spec 10 R252, 09 R230): what a read gives, what a write and its races change and leave, and what a
strand's writes leave of the machine. -/
namespace Sys2Proof.Machine

/-! ### What every scratchpad operation leaves of its tile -/

/-- A tile that differs from `t` in nothing but its scratchpad: bytes, tags, poison and races. -/
def Tile.OnlyPad (t u : Tile) : Prop :=
  ∃ spad tag psn races, u = { t with spad := spad, spadTag := tag, spadPsn := psn, races := races }

theorem Tile.OnlyPad.refl (t : Tile) : t.OnlyPad t := ⟨_, _, _, _, rfl⟩

theorem Tile.OnlyPad.trans {t u v : Tile} (h : t.OnlyPad u) (g : u.OnlyPad v) : t.OnlyPad v := by
  obtain ⟨_, _, _, _, rfl⟩ := h
  obtain ⟨_, _, _, _, rfl⟩ := g
  exact ⟨_, _, _, _, rfl⟩

theorem Tile.OnlyPad.strands {t u : Tile} (h : t.OnlyPad u) : u.strands = t.strands := by
  obtain ⟨_, _, _, _, rfl⟩ := h
  rfl

theorem Tile.onlyPad_retag (t : Tile) (part : BitVec 4) (g : Nat) : t.OnlyPad (t.retag part g) := by
  unfold Tile.retag
  split <;> exact ⟨_, _, _, _, rfl⟩

theorem Tile.onlyPad_retagMany (part : BitVec 4) (n : Nat) : ∀ (t : Tile) (g : Nat), t.OnlyPad (t.retagMany part g n) := by
  induction n with
  | zero => exact fun t _ => .refl t
  | succ n ih => exact fun t g => (t.onlyPad_retag part g).trans (ih _ (g + 1))

theorem Tile.onlyPad_spadWrite (t : Tile) (part : BitVec 4) (a : Nat) (bs : List Byte) (psn : Bool) : t.OnlyPad (t.spadWrite part a bs psn) :=
  (Tile.onlyPad_retagMany part _ t _).trans ⟨_, _, _, _, rfl⟩

theorem Tile.onlyPad_putRaced (t : Tile) (r : Race) : t.OnlyPad (t.putRaced r) := by
  unfold Tile.putRaced
  dsimp only
  split <;> exact ⟨_, _, _, _, rfl⟩

theorem Tile.onlyPad_raceWord (was t : Tile) (w : Racer) (part : BitVec 4) (coin : Nat → Nat) (n : Nat) :
    t.OnlyPad (was.raceWord t w part coin n) := by
  unfold Tile.raceWord
  dsimp only
  split
  · split
    · exact (t.onlyPad_putRaced _).trans ⟨_, _, _, _, rfl⟩
    · exact ⟨_, _, _, _, rfl⟩
  · exact ⟨_, _, _, _, rfl⟩

theorem Tile.onlyPad_raceWrite (t : Tile) (w : Racer) (coin : Nat → Nat) (part : BitVec 4) (a : Nat) (bs : List Byte) (psn : Bool) :
    t.OnlyPad (t.raceWrite w coin part a bs psn) :=
  List.foldlRecOn _ _ (t.onlyPad_spadWrite part a bs psn) fun u hu _ _ => hu.trans (Tile.onlyPad_raceWord t u w part coin _)

theorem Tile.onlyPad_settleRaces (t : Tile) (w : Racer) : t.OnlyPad (t.settleRaces w) := ⟨_, _, _, _, rfl⟩

/-! ### Reads (10 R252) -/

/-- A read gives the bytes of the granules that carry the partition's tag, and zero for the others. -/
theorem Tile.spadBytes_getElem? (t : Tile) (part : BitVec 4) (n : Nat) : ∀ {a k : Nat}, k < n →
    (t.spadBytes part a n)[k]? = some (if tgetD t.spadTag ((a + k) / 64) 0 = part then mget t.spad (a + k) else 0) := by
  induction n with
  | zero => exact fun h => absurd h (Nat.not_lt_zero _)
  | succ n ih =>
    intro a k hk
    cases k with
    | zero => rfl
    | succ k =>
      have htail := ih (a := a + 1) (Nat.lt_of_succ_lt_succ hk)
      rwa [Nat.add_right_comm] at htail

/-! ### Granules taken for a partition (10 R252) -/

theorem zeroBytes_eq_mputs (n : Nat) : ∀ (m : Memory) (a : Nat), zeroBytes m a n = mputs m a (List.replicate n 0) := by
  induction n with
  | zero => exact fun _ _ => rfl
  | succ n ih => exact fun m a => ih _ (a + 1)

theorem mget_zeroBytes (m : Memory) (a n x : Nat) : mget (zeroBytes m a n) x = if a ≤ x ∧ x < a + n then 0 else mget m x := by
  rw [zeroBytes_eq_mputs, mget_mputs, List.length_replicate]
  refine if_congr Iff.rfl ?_ rfl
  rw [List.getD_eq_getElem?_getD, List.getElem?_replicate]
  split <;> rfl

section
variable (t : Tile) (part : BitVec 4)

theorem Tile.retag_tag (g h : Nat) : tgetD (t.retag part g).spadTag h 0 = if h = g then part else tgetD t.spadTag h 0 := by
  unfold Tile.retag
  split
  case isTrue hsame =>
    split
    case isTrue hg => rw [hg, hsame]
    case isFalse => rfl
  case isFalse =>
    dsimp only
    split
    case isTrue h0 => rw [tgetD, tget_tdel, h0]; split <;> rfl
    case isFalse => rw [tgetD, tget_tput]; split <;> rfl

theorem Tile.mget_retag (g x : Nat) :
    mget (t.retag part g).spad x = if x / 64 = g ∧ tgetD t.spadTag (x / 64) 0 ≠ part then 0 else mget t.spad x := by
  unfold Tile.retag
  split
  case isTrue hsame => rw [if_neg (by rintro ⟨rfl, hother⟩; exact hother hsame)]
  case isFalse hother =>
    dsimp only
    rw [mget_zeroBytes]
    refine if_congr ⟨fun hx => ?_, fun ⟨hx, _⟩ => by omega⟩ rfl rfl
    have hg : x / 64 = g := by omega
    exact ⟨hg, hg ▸ hother⟩

end

section
variable (part : BitVec 4) (n : Nat)

theorem Tile.retagMany_tag : ∀ (t : Tile) (g h : Nat),
    tgetD (t.retagMany part g n).spadTag h 0 = if g ≤ h ∧ h < g + n then part else tgetD t.spadTag h 0 := by
  induction n with
  | zero => exact fun t g h => (if_neg (by omega)).symm
  | succ n ih =>
    intro t g h
    rw [Tile.retagMany, ih, Tile.retag_tag]
    by_cases hg : h = g
    · rw [if_pos hg, ite_self, if_pos (by omega)]
    · rw [if_neg hg]
      exact if_congr (by omega) rfl rfl

theorem Tile.mget_retagMany : ∀ (t : Tile) (g x : Nat), mget (t.retagMany part g n).spad x =
    if (g ≤ x / 64 ∧ x / 64 < g + n) ∧ tgetD t.spadTag (x / 64) 0 ≠ part then 0 else mget t.spad x := by
  induction n with
  | zero => exact fun t g x => (if_neg (by omega)).symm
  | succ n ih =>
    intro t g x
    rw [Tile.retagMany, ih, Tile.mget_retag, Tile.retag_tag]
    by_cases hg : x / 64 = g
    · rw [if_neg fun h => by omega]
      exact if_congr (and_congr_left fun _ => by omega) rfl rfl
    · rw [if_neg hg, if_neg (c := x / 64 = g ∧ _) fun h => hg h.1]
      exact if_congr (and_congr_left fun _ => by omega) rfl rfl

end

/-! ### Writes (10 R252) -/

/-- The granules that a write retags are those that hold one of its bytes. -/
theorem touched_iff {a n g : Nat} (hn : 0 < n) : (a / 64 ≤ g ∧ g < a / 64 + ((a + n + 63) / 64 - a / 64)) ↔ (a / 64 ≤ g ∧ g ≤ (a + n - 1) / 64) := by
  omega

section
variable (t : Tile) (part : BitVec 4) (a : Nat) {bs : List Byte} (psn : Bool) (hbs : bs ≠ [])
include hbs

theorem Tile.mget_spadWrite (x : Nat) : mget (t.spadWrite part a bs psn).spad x =
    if a ≤ x ∧ x < a + bs.length then bs.getD (x - a) 0
    else if (a / 64 ≤ x / 64 ∧ x / 64 ≤ (a + bs.length - 1) / 64) ∧ tgetD t.spadTag (x / 64) 0 ≠ part then 0 else mget t.spad x := by
  have htouched := touched_iff (a := a) (g := x / 64) (List.length_pos_iff.2 hbs)
  have hretag := (Tile.mget_retagMany part ((a + bs.length + 63) / 64 - a / 64) t (a / 64) x).trans
    (if_congr (and_congr_left' htouched) rfl rfl)
  exact (mget_mputs bs _ a x).trans (if_congr Iff.rfl rfl hretag)

theorem Tile.spadWrite_tag (g : Nat) : tgetD (t.spadWrite part a bs psn).spadTag g 0 =
    if a / 64 ≤ g ∧ g ≤ (a + bs.length - 1) / 64 then part else tgetD t.spadTag g 0 :=
  (Tile.retagMany_tag part _ t _ g).trans (if_congr (touched_iff (List.length_pos_iff.2 hbs)) rfl rfl)

end

/-! ### Races (09 R230) -/

/-- Two tiles whose scratchpads hold the same bytes, tags and poison. -/
def Tile.SamePad (t u : Tile) : Prop := u.spad = t.spad ∧ u.spadTag = t.spadTag ∧ u.spadPsn = t.spadPsn

/-- A word for which no writer of the other side races stays as it was written. -/
theorem Tile.raceWord_samePad {was t : Tile} {w : Racer} (h : ∀ r ∈ was.races, r.writer.isEngine = w.isEngine) (part : BitVec 4)
    (coin : Nat → Nat) (n : Nat) : t.SamePad (was.raceWord t w part coin n) := by
  have hrival : (was.races.any fun r => !r.past && r.word == n && r.writer.isEngine != w.isEngine) = false :=
    List.any_eq_false.2 fun r hr => by simp [h r hr]
  unfold Tile.raceWord
  dsimp only
  rw [if_neg (ne_true_of_eq_false hrival)]
  exact ⟨rfl, rfl, rfl⟩

theorem Tile.raceWrite_samePad {t : Tile} {w : Racer} (h : ∀ r ∈ t.races, r.writer.isEngine = w.isEngine) (coin : Nat → Nat) (part : BitVec 4)
    (a : Nat) (bs : List Byte) (psn : Bool) : (t.spadWrite part a bs psn).SamePad (t.raceWrite w coin part a bs psn) := by
  refine List.foldlRecOn (motive := (t.spadWrite part a bs psn).SamePad) _ _ ⟨rfl, rfl, rfl⟩ fun u ⟨hspad, htag, hpsn⟩ n _ => ?_
  obtain ⟨gspad, gtag, gpsn⟩ := Tile.raceWord_samePad (t := u) h part coin n
  exact ⟨gspad.trans hspad, gtag.trans htag, gpsn.trans hpsn⟩

/-- An aligned 4-byte word of a scratchpad, lowest byte first. -/
def Tile.word (t : Tile) (n : Nat) : List Byte := (List.range 4).map fun k => mget t.spad (4 * n + k)

/-- A racing value that is put back stands in its own word and in no other. -/
theorem Tile.word_putRaced (t : Tile) (r : Race) (n : Nat) :
    (t.putRaced r).word n = if r.word = n then toBytes r.value.toNat 4 else t.word n := by
  have hspad : (t.putRaced r).spad = mputs t.spad (4 * r.word) (toBytes r.value.toNat 4) := by
    unfold Tile.putRaced
    dsimp only
    split <;> rfl
  unfold Tile.word
  rw [hspad]
  split
  case isTrue hn =>
    refine List.ext_getElem (by simp) fun k hk hk' => ?_
    rw [List.length_map, List.length_range] at hk
    rw [List.getElem_map, List.getElem_range, mget_mputs, toBytes_length, if_pos (by omega), ← hn, Nat.add_sub_cancel_left,
      List.getD_eq_getElem _ _ hk']
  case isFalse hn =>
    refine List.map_congr_left fun k hk => mget_mputs_outside ?_
    rw [toBytes_length]
    have hk4 := List.mem_range.1 hk
    omega

theorem Tile.word_foldl_putRaced (t : Tile) (l : List Race) (n : Nat) :
    (l.foldl Tile.putRaced t).word n = t.word n ∨ ∃ r ∈ l, r.word = n ∧ (l.foldl Tile.putRaced t).word n = toBytes r.value.toNat 4 := by
  refine List.foldlRecOn (motive := fun u : Tile => u.word n = t.word n ∨ ∃ r ∈ l, r.word = n ∧ u.word n = toBytes r.value.toNat 4)
    _ _ (.inl rfl) fun u hu r hr => ?_
  rw [Tile.word_putRaced]
  split
  case isTrue hn => exact .inr ⟨r, hr, hn, rfl⟩
  case isFalse => exact hu

/-- A reader takes only entries of writers of the other side whose races are not over. -/
theorem pickRaces_mem {engine : Bool} {coin : Nat → Nat} {r : Race} (l : List Race) : ∀ {i : Nat} {ws : List Nat},
    r ∈ (pickRaces engine coin i ws l).1 → r ∈ l ∧ r.past = false ∧ r.writer.isEngine ≠ engine := by
  induction l with
  | nil => exact fun h => absurd h List.not_mem_nil
  | cons q l ih =>
    intro i ws h
    have hlater {j : Nat} {vs : List Nat} (h : r ∈ (pickRaces engine coin j vs l).1) :
        r ∈ q :: l ∧ r.past = false ∧ r.writer.isEngine ≠ engine := (ih h).imp_left (List.mem_cons_of_mem q)
    unfold pickRaces at h
    split at h
    case isTrue => exact hlater h
    case isFalse hopen =>
      split at h
      case isTrue =>
        rcases List.mem_cons.1 h with rfl | h
        · simp only [Bool.or_eq_true, beq_iff_eq, not_or] at hopen
          exact ⟨List.mem_cons_self, Bool.eq_false_of_not_eq_true hopen.1.1, hopen.1.2⟩
        · exact hlater h
      case isFalse => exact hlater h

theorem Tile.word_view (t : Tile) (engine : Bool) (coin : Nat → Nat) (n : Nat) : (t.view engine coin).word n = t.word n
    ∨ ∃ r ∈ t.races, r.word = n ∧ r.past = false ∧ r.writer.isEngine ≠ engine ∧ (t.view engine coin).word n = toBytes r.value.toNat 4 := by
  refine (t.word_foldl_putRaced (pickRaces engine coin 0 [] t.races).1 n).imp_right fun ⟨r, hr, hn, hv⟩ => ?_
  obtain ⟨hmem, hpast, hside⟩ := pickRaces_mem _ hr
  exact ⟨r, hmem, hn, hpast, hside, hv⟩

theorem dropRacer_writer (w : Racer) (l : List Race) : ∀ r ∈ dropRacer w l, r.writer ≠ w := by
  induction l with
  | nil => exact fun r hr => absurd hr List.not_mem_nil
  | cons q l ih =>
    unfold dropRacer at ih ⊢
    rw [List.foldr_cons]
    split
    case isTrue => exact ih
    case isFalse hq =>
      have hq : q.writer ≠ w := mt beq_iff_eq.2 hq
      split <;> exact List.forall_mem_cons.2 ⟨hq, ih⟩

/-! ### Writes of a strand (15 R325, 18 R426) -/

section
variable (s : State) (va : Word) (bs : List Byte) (psn : Bool)

@[simp] theorem State.coined_here : s.coined.here = s.here := rfl

/-- The tile after a strand's racing write, before its races end. -/
def State.raced : Tile := s.here.raceWrite (.store s.nextId) s.coin s.here.part va.toNat bs psn

theorem State.strands_raced : (s.raced va bs psn).strands = s.here.strands := (Tile.onlyPad_raceWrite ..).strands

theorem State.here_spadPerform : (s.spadPerform va bs psn).here = (s.raced va bs psn).settleRaces (.store s.nextId) := by
  rw [State.spadPerform, State.coined_here, State.here_modHere]
  rfl

theorem State.me_spadPerform : (s.spadPerform va bs psn).me = s.me := by
  show (s.spadPerform va bs psn).here.strand s.cur.strand = s.here.strand s.cur.strand
  rw [State.here_spadPerform, Tile.strand, Tile.strand, ((s.raced va bs psn).onlyPad_settleRaces _).strands, State.strands_raced]

variable (kind : AccessKind) (slot : Nat)

/-- The state of a store before its slot rises and its access is in flight. -/
def State.racedStore : State :=
  { (s.modHere fun t => t.raceWrite (.store s.nextId) s.coin t.part va.toNat bs psn).coined with nextId := s.nextId + 1 }

theorem State.here_racedStore : (s.racedStore va bs psn).here = s.raced va bs psn := by
  show (s.modHere fun t => t.raceWrite (.store s.nextId) s.coin t.part va.toNat bs psn).here = _
  rw [State.here_modHere]
  rfl

theorem State.me_racedStore : (s.racedStore va bs psn).me = s.me := by
  show (s.racedStore va bs psn).here.strand s.cur.strand = s.here.strand s.cur.strand
  rw [State.here_racedStore, Tile.strand, Tile.strand, State.strands_raced]

theorem State.spadStore_eq : s.spadStore kind va bs psn slot =
    ((s.racedStore va bs psn).modMe fun x => x.raise slot).addAccess { s.newAccess kind va bs.length slot with phase := .scratch } := rfl

theorem State.spad_spadStore : (s.spadStore kind va bs psn slot).here.spad = (s.raced va bs psn).spad := by
  show ((s.racedStore va bs psn).modMe fun x => x.raise slot).here.spad = _
  rw [State.here_modMe, ← State.here_racedStore]
  rfl

theorem State.me_spadStore : (s.spadStore kind va bs psn slot).me = s.me.raise slot := by
  show ((s.racedStore va bs psn).modMe fun x => x.raise slot).me = _
  rw [State.me_modMe, State.me_racedStore]

end

/-- Settles O25: byte by byte through the granules that are retagged, and word by word through the entries of races. -/
theorem scratchpadBytes : Obligations.ScratchpadBytes := by
  unfold Obligations.ScratchpadBytes
  refine ⟨fun t part a n k => t.spadBytes_getElem? part n, fun t part a bs psn hbs => ?_⟩
  intro u touched
  obtain ⟨_, _, _, _, hframe⟩ : t.OnlyPad u := t.onlyPad_spadWrite part a bs psn
  refine ⟨t.mget_spadWrite part a psn hbs, t.spadWrite_tag part a psn hbs, by rw [hframe], by rw [hframe], by rw [hframe], by rw [hframe],
    by rw [hframe], by rw [hframe], fun w coin h => Tile.raceWrite_samePad h coin part a bs psn, fun engine coin n => t.word_view engine coin n,
    fun w => dropRacer_writer w t.races, fun s va => ?performed, fun s kind va slot _ => ?stored⟩
  case performed =>
    intro v
    have hhere := s.here_spadPerform va bs psn
    have hme : v.me = s.me := s.me_spadPerform va bs psn
    exact ⟨(congrArg Tile.spad hhere :), hhere ▸ dropRacer_writer _ _, congrArg _ hme, congrArg _ hme, congrArg _ hme, rfl, rfl, rfl, rfl, rfl, rfl⟩
  case stored =>
    intro v
    have hme : v.me = s.me.raise slot := s.me_spadStore va bs psn kind slot
    exact ⟨s.spad_spadStore va bs psn kind slot, congrArg _ hme, by rw [hme, Strand.raise_x], by rw [hme, Strand.raise_pc],
      List.length_append, rfl, rfl, rfl, rfl, rfl⟩

end Sys2Proof.Machine
end

section
/-! PROOFS. Traps (spec 11 R256 to R258, 05 R115, 06 R153): where a trap goes, the reports that reach a strand, and the return from a handler. -/
namespace Sys2Proof.Machine

/-! ### Taking a trap (11 R257) -/

section
variable {s : State} {d q n : Nat} (c : Report) (off : Word)

/-- An imprecise report that finds its strand in a handler waits behind the reports that wait already. -/
theorem takeTrap_pends (hi : (s.strand d q n).intrap = true) (hp : (s.strand d q n).pending.length < 4) :
    s.takeTrap d q n c true off = s.modStrand d q n fun x => { x with pending := x.pending ++ [c] } := by
  unfold State.takeTrap
  rw [if_pos (by rw [hi]; rfl), if_neg (Nat.not_le.2 hp)]

theorem takeTrap_full_list_fails (hi : (s.strand d q n).intrap = true) (hp : 4 ≤ (s.strand d q n).pending.length) :
    s.takeTrap d q n c true off = s.failAt d q n c := by
  unfold State.takeTrap
  rw [if_pos (by rw [hi]; rfl), if_pos hp]

/-- Outside a handler, with none to go to, a trap of either kind fails the task. -/
theorem takeTrap_no_handler_fails (imp : Bool) (hi : (s.strand d q n).intrap = false) (hv : (s.strand d q n).tvec = 0) :
    s.takeTrap d q n c imp off = s.failAt d q n c := by
  unfold State.takeTrap
  rw [if_neg (by rw [hi]; exact Bool.false_ne_true), if_pos (by rw [hv]; exact Bool.or_true _)]

/-- The three ways in which a trap ends the task of its strand. -/
theorem takeTrap_fails_of {imp : Bool} (h : ((s.strand d q n).intrap = true ∧ (imp = false ∨ 4 ≤ (s.strand d q n).pending.length))
      ∨ ((s.strand d q n).intrap = false ∧ (s.strand d q n).tvec = 0)) :
    s.takeTrap d q n c imp off = s.failAt d q n c := by
  rcases h with ⟨hi, hwhy⟩ | ⟨hi, hv⟩
  · cases imp with
    | false => exact takeTrap_fails s d q n c off (.inl hi)
    | true => exact takeTrap_full_list_fails c off hi (hwhy.resolve_left Bool.noConfusion)
  · exact takeTrap_no_handler_fails c off imp hi hv

/-- The end of a task names the strand, its WID and its place in the region (11 R256). -/
theorem failAt_of_task {r : Nat} (h : (s.tile d q).task = some r) :
    s.failAt d q n c = s.failTask d r c ⟨(s.strand d q n).wid, (s.tile d q).relX q, (s.tile d q).relY q, n⟩ := by
  simp only [State.failAt, h]
  rfl

theorem failAt_of_firmware (ht : (s.tile d q).task = none) (hf : (s.tile d q).firmware ≠ none) :
    s.failAt d q n c = s.modStrand d q n fun x => { x with run := .halted } := by
  simp only [State.failAt, ht]
  exact if_pos (Option.isSome_iff_ne_none.2 hf)

end

/-! ### Reports that reach their strand (11 R257, 05 R115, 06 R153) -/

section
variable {s : State} {k d q n : Nat} {c : Report}

/-- The report for a strand whose tile holds a task or firmware: a trap in RUN, a failure otherwise. -/
theorem execImpreciseTrap_strand (hk : lget s.reports k = some (.strand d q n, c))
    (held : (s.tile d q).task ≠ none ∨ (s.tile d q).firmware ≠ none) :
    let s1 := { s with reports := ldel s.reports k }
    execImpreciseTrap k s =
      if (s.strand d q n).run = .run then .next (s1.takeTrap d q n c true (s.strand d q n).pc) else .next (s1.failAt d q n c) := by
  intro s1
  have hheld : ¬((s1.tile d q).task.isNone && (s1.tile d q).firmware.isNone) = true := by
    rw [Bool.and_eq_true, Option.isNone_iff_eq_none, Option.isNone_iff_eq_none]
    exact not_and_or.2 held
  simp only [execImpreciseTrap, hk]
  exact (if_neg hheld).trans (if_congr beq_iff_eq rfl rfl)

/-- The fault that was routed to a strand of a tile that holds a task: a trap in RUN, otherwise a failure that names no strand. -/
theorem execImpreciseTrap_routed {r : Nat} (hk : lget s.reports k = some (.routed d q n, c)) (ht : (s.tile d q).task = some r) :
    let s1 := { s with reports := ldel s.reports k }
    execImpreciseTrap k s =
      if (s.strand d q n).run = .run then .next (s1.takeTrap d q n c true (s.strand d q n).pc)
      else .next (s1.failTask d r c (s.routedAt d q)) := by
  intro s1
  replace ht : (s1.tile d q).task = some r := ht
  simp only [execImpreciseTrap, hk]
  rw [ht]
  exact if_congr beq_iff_eq rfl rfl

end

/-- Settles O16: the ways of a trap, then the reports that reach a strand. -/
theorem trapSequence : Obligations.TrapSequence := by
  unfold Obligations.TrapSequence
  refine ⟨fun s d q n c imp off => ⟨takeTrap_taken s d q n c imp off, ?pends, takeTrap_fails_of c off⟩, fun s n hr => ?traps,
    fun _ _ _ _ => rfl, fun s k d q n c hk => ?strand, fun s d q n c => ⟨fun _ => failAt_of_task c, failAt_of_firmware c⟩,
    fun s k d q n r c hk ht => ?routed⟩
  case pends =>
    rintro hi rfl hp
    exact takeTrap_pends c off hi hp
  case traps =>
    intro take
    show execSvc n s = _ ∧ execTrap n s = _ ∧ execBrk n s = _
    exact ⟨issue_ready _ hr, issue_ready _ hr, issue_ready _ hr⟩
  case strand =>
    intro s1 held
    have hreach := fun h : held => execImpreciseTrap_strand hk h
    exact ⟨fun h hrun => (hreach h).trans (if_pos hrun), fun h hrun => (hreach h).trans (if_neg hrun)⟩
  case routed =>
    intro s1
    have hreach := execImpreciseTrap_routed hk ht
    exact ⟨fun hrun => hreach.trans (if_pos hrun), fun hrun => hreach.trans (if_neg hrun)⟩

/-! ### The return from a handler (11 R258) -/

/-- The offset that a WOFF field names, in bytes. -/
theorem woffWord_eq_four_mul (w : BitVec 15) : woffWord w = BitVec.ofNat 64 (4 * w.toNat) := by rw [woffWord, Nat.mul_comm]

/-- A WOFF field is read back from the word that it gives (04 R101). -/
theorem ofNat_woffWord_div_four (w : BitVec 15) : BitVec.ofNat 15 ((woffWord w).toNat / 4) = w := by
  have hw : (woffWord w).toNat = w.toNat * 4 := Nat.mod_eq_of_lt (by omega)
  rw [hw, Nat.mul_div_cancel _ (by decide), BitVec.ofNat_toNat, BitVec.setWidth_eq]

section
variable {s : State}

/-- A trap that follows at once on a change of its strand. -/
theorem takeTrap_taken_modMe {f : Strand → Strand} (c : Report) (imp : Bool) (off : Word) (hi : (f s.me).intrap = false)
    (hv : (f s.me).tvec ≠ 0) :
    (s.modMe f).takeTrap s.cur.die s.cur.site s.cur.strand c imp off = s.modMe fun x =>
      { f x with epc := BitVec.ofNat 15 (off.toNat / 4), causeCode := BitVec.ofNat 8 c.cause, causeDetail := BitVec.ofNat 8 c.detail,
                 eval := c.eval, imp := imp, intrap := true, stand := none, pc := BitVec.ofNat 64 (4 * (f x).tvec.toNat) } := by
  rw [← s.me_modMe f] at hi hv
  exact (takeTrap_taken (s.modMe f) _ _ _ c imp off hi hv).trans (s.modMe_modMe f _)

theorem trapReturn_goes (hp : s.me.pending = []) (ht : s.here.targetOk (woffWord s.me.epc) = true) :
    s.trapReturn = s.modMe fun x => { x with intrap := false, pc := woffWord s.me.epc } := by
  simp only [State.trapReturn, hp]
  exact if_pos ht

theorem trapReturn_bad_target (hp : s.me.pending = []) (ht : s.here.targetOk (woffWord s.me.epc) = false) :
    s.trapReturn = s.trapMe 2 0 (woffWord s.me.epc) := by
  simp only [State.trapReturn, hp]
  exact if_neg (ne_true_of_eq_false ht)

/-- With a report pending the strand is back in the handler at once, with the cause of the oldest report and EPC as it was. -/
theorem trapReturn_takes_oldest {r : Report} {rest : List Report} (hp : s.me.pending = r :: rest) (hv : s.me.tvec ≠ 0) :
    s.trapReturn = s.modMe fun x =>
      { x with epc := s.me.epc, causeCode := BitVec.ofNat 8 r.cause, causeDetail := BitVec.ofNat 8 r.detail, eval := r.eval, imp := true,
               intrap := true, stand := none, pending := rest, pc := BitVec.ofNat 64 (4 * x.tvec.toNat) } := by
  simp only [State.trapReturn, hp]
  rw [takeTrap_taken_modMe r true _ rfl hv, ofNat_woffWord_div_four]

end

/-- ERET has no operand field: EVAL of its ILL is the same word at each place (14 R293, R296). -/
theorem State.illOperand_eret (s : State) : s.illOperand .eret = s.trapMe 1 5 0xF6000000 := rfl

section
variable {s : State} (hr : s.me.ready [] Order.none = true)
include hr

theorem execEret_outside (hi : s.me.intrap = false) : execEret s = .next (s.trapMe 1 5 0xF6000000) :=
  (issue_ready _ hr).trans (congrArg _ ((if_neg (ne_true_of_eq_false hi)).trans s.illOperand_eret))

theorem execEret_inside (hi : s.me.intrap = true) : execEret s = .next s.trapReturn :=
  (issue_ready _ hr).trans (congrArg _ (if_pos hi))

end

/-- Settles O17: outside a handler, then inside one by its pending list and the target. -/
theorem returnFromTrap : Obligations.ReturnFromTrap := by
  unfold Obligations.ReturnFromTrap
  intro s hr
  simp only [← woffWord_eq_four_mul s.me.epc]
  refine ⟨execEret_outside hr, fun hi hp ht => (execEret_inside hr hi).trans (congrArg _ (trapReturn_goes hp ht)),
    fun hi hp ht => (execEret_inside hr hi).trans (congrArg _ (trapReturn_bad_target hp ht)), fun r rest hi hp hv => ?pending⟩
  refine ⟨s.trapReturn, execEret_inside hr hi, ?_⟩
  rw [trapReturn_takes_oldest hp hv, State.me_modMe]
  exact ⟨rfl, rfl, rfl, rfl, rfl, rfl⟩

end Sys2Proof.Machine
end

section
/-! PROOFS. Host commands (spec 12 R271 to R273): how the Plinth takes a command, whatever its opcode. -/
namespace Sys2Proof.Machine

/-! ### What the performance of a command answers (12 R273) -/

/-- The end of a performance with a status and two results. -/
def CmdEnd.of (x : State × Nat × Word × Word) : CmdEnd := .done x.1 x.2.1 x.2.2.1 x.2.2.2

theorem CmdEnd.ok_eq_of (s : State) : CmdEnd.ok s = .of (s, 0, 0, 0) := rfl
theorem CmdEnd.when_eq {ok : Bool} (h : ok = true) (s : State) (go : State → CmdEnd) : CmdEnd.when ok s go = go s := if_pos h
theorem CmdEnd.when_malformed {ok : Bool} (h : ok = false) (s : State) (go : State → CmdEnd) : CmdEnd.when ok s go = .malformed s :=
  if_neg (ne_true_of_eq_false h)

/-! ### How the Plinth takes a command (12 R271, R272) -/

section
variable {s : State} {c : Cmd} {opc : Nat} {now : Bool} {go : State → CmdEnd}

theorem State.performs_iff : s.performs c = true ↔ s.plinth.mayPerform = true ∧ s.plinth.progress = none ∧ s.plinth.queue = []
    ∧ c.seq.toNat = s.plinth.expectSeq ∧ c.reserved = 0 := by
  simp only [State.performs, Bool.and_eq_true, beq_iff_eq, List.isEmpty_iff, Option.isNone_iff_eq_none, and_assoc]

theorem command_arrives (hm : s.plinth.mayPerform = true) (hq : s.plinth.progress ≠ none ∨ s.plinth.queue = []) :
    command opc now c s go = .next (s.arriveCommand opc now c go) := by
  unfold command
  rw [if_neg (by simp [hm]), if_neg]
  rcases hq with hq | hq <;> simp [hq]

/-- A command with the expected SEQ and nothing before it. -/
theorem command_expected (hm : s.plinth.mayPerform = true) (hp : s.plinth.progress = none) (hq : s.plinth.queue = [])
    (hseq : c.seq.toNat = s.plinth.expectSeq) : command opc now c s go = .next ((s.accept c).performCommand opc c go) :=
  (command_arrives hm (.inr hq)).trans (congrArg _ (arriveCommand_expected _ _ _ _ _ (Option.isNone_iff_eq_none.2 hp) hq hseq))

theorem command_reserved_bit (hm : s.plinth.mayPerform = true) (hp : s.plinth.progress = none) (hq : s.plinth.queue = [])
    (hseq : c.seq.toNat = s.plinth.expectSeq) (hres : c.reserved ≠ 0) :
    command opc now c s go = .next ((s.accept c).complete opc c.seq.toNat 1 0 0) :=
  (command_expected hm hp hq hseq).trans (congrArg _ (if_pos hres))

theorem command_wait {t : State} (h : s.performs c = true) (hgo : go (s.accept c) = .wait t) : command opc now c s go = .next t := by
  obtain ⟨hm, hp, hq, hseq, hres⟩ := State.performs_iff.1 h
  rw [command_expected hm hp hq hseq, State.performCommand, if_neg (not_not.2 hres), hgo]

/-- Behind a command in progress the expected command waits in order. -/
theorem command_queues {g : Progress} (hm : s.plinth.mayPerform = true) (hp : s.plinth.progress = some g)
    (hseq : c.seq.toNat = s.plinth.expectSeq) :
    command opc false c s go = .next ((s.accept c).modPlinth fun p => { p with queue := p.queue ++ [(opc, c)] }) := by
  rw [command_arrives hm (.inl (by simp [hp]))]
  refine congrArg _ ((if_pos hseq).trans (if_neg ?_))
  show ¬ (s.plinth.progress.isNone && s.plinth.queue.isEmpty) = true
  simp [hp]

theorem command_unexpected (hm : s.plinth.mayPerform = true) (hq : s.plinth.queue = []) (hseq : c.seq.toNat ≠ s.plinth.expectSeq)
    (hold : s.plinth.accepted c.seq.toNat = false) :
    let t := s.modPlinth fun p => { p with cmdHead := p.cmdHead + 1, lastTs := c.ts }
    command opc now c s go = .next (t.postCompletions (t.plinth.cplQueue ++ [⟨opc, 1, c.seq.toNat, 0, 0⟩])) :=
  (command_arrives hm (.inr hq)).trans (congrArg _ ((if_neg hseq).trans (if_neg (ne_true_of_eq_false hold))))

/-- A command that is performed as it arrives completes with what its performance answers. -/
theorem commandResult_of {i : Instr} {P : State → Prop} {f : State → State × Nat × Word × Word}
    (hi : ∀ s, exec i s = command opc now c s go) (hgo : ∀ s, P s → go s = .of (f s)) : CommandResult i opc c P f :=
  fun s h hP => (hi s).trans (command_done opc now c s _ go _ _ _ h (hgo _ hP))

end

/-- A command's rule under a condition that implies the one it is stated with. -/
theorem CommandResult.of_imp {i : Instr} {opc : Nat} {c : Cmd} {P Q : State → Prop} {f : State → State × Nat × Word × Word}
    (h : CommandResult i opc c Q f) (hPQ : ∀ s, P s → Q s) : CommandResult i opc c P f := fun s hs hP => h s hs (hPQ _ hP)

/-- Settles O47: the four ways to take a command, which do not ask what it does once performed; then the reserved opcodes. That the head of the
command ring rises without a wrap is the model's reading of its index, log 57. -/
theorem hostCommandOrder : Obligations.HostCommandOrder := by
  unfold Obligations.HostCommandOrder
  refine fun s c => ⟨fun x hx => ?_, fun o => commandResult_of (fun _ => rfl) fun _ _ => rfl⟩
  have htaken : ∃ go, ∀ t, exec (x.2.2 c) t = command x.1 x.2.1 c t go := by
    fin_cases hx <;> exact ⟨_, fun _ => rfl⟩
  obtain ⟨go, htaken⟩ := htaken
  dsimp only
  rw [htaken]
  refine ⟨command_idle _ _ _ _ _, command_reserved_bit, fun g hnow => ?_, command_unexpected⟩
  rw [hnow]
  exact command_queues

end Sys2Proof.Machine
end

section
/-! PROOFS. Host commands that concern logs, maquettes, instances, tasks, page requests and pools (spec 12 R273 with 02 R28 to R30, 10 R251,
11 R264): what each does as it arrives. -/
namespace Sys2Proof.Machine

/-! ### The freeze of a task that runs alone (11 R264, R267) -/

section
variable {s : State} {d n : Nat} {r : Record} (hr : s.record d n = some r) (hrun : r.state = .running) (hend : r.endReq = .none)
include hr hrun hend

theorem beginFreeze_running : s.beginFreeze d n = s.setRecord d n { r with endReq := .freeze } := by
  simp only [State.beginFreeze, hr]
  rw [if_pos (by simp [Record.freezes, hrun]), if_pos (by simp [hend])]

/-- A task that runs with no partner is asked to freeze if its partition's pool holds the slots, and refused otherwise. -/
theorem requestFreeze_alone (hfree : r.reserved = false) (hpred : r.pred = none) (hgroup : s.freezeGroup d 144 [n] = [n]) :
    s.requestFreeze d n = if s.freezeRoom [(d, n)] then (s.setRecord d n { r with endReq := .freeze }, none) else (s, some 3) := by
  have hfreezes : r.freezes = true := by simp [Record.freezes, hrun]
  have hlive : (r.state.final || r.endReq == .done) = false := by simp [hrun, hend, TaskState.final]
  have hholds : r.state.holdsRegion = true := by simp [hrun, TaskState.holdsRegion]
  simp only [State.requestFreeze, hr, hfree, hlive, hholds, hgroup, hfreezes, hpred, Option.toList_none, List.any_nil, List.map_cons, List.map_nil,
    Bool.or_self, Bool.not_true, Bool.false_eq_true, if_false, if_true, State.over, List.foldl_cons, List.foldl_nil,
    beginFreeze_running hr hrun hend]
  cases s.freezeRoom [(d, n)] <;> rfl

end

/-! ### Page answers (10 R251, R254) -/

section
variable {c : Cmd}

/-- The request that a PANS names (12 R273). -/
def State.pageAnswered (s : State) (c : Cmd) : Option PageRequest :=
  s.answered c.arg2.toNat (bits c.arg0.toNat 0 16) (bits c.arg0.toNat 16 16)

theorem pans_unmatched : CommandResult (.pans c) 13 c (fun s => c.arg2.toNat ≤ 7 ∧ s.pageAnswered c = none)
    (fun s => (s.modDie c.arg2.toNat fun f => { f with dropAnswer := f.dropAnswer + 1 }, 0, 0, 0)) := by
  refine commandResult_of (fun _ => rfl) fun s ⟨hd, hnone⟩ => ?_
  unfold State.pageAnswered at hnone
  simp only [hnone, ite_self, if_pos (Nat.lt_succ_of_le hd)]
  rfl

/-- An answer that is well formed reaches the waiters of the request that it names, and leaves the other requests. -/
theorem pans_matched {q : PageRequest} {rest : List PageRequest} : CommandResult (.pans c) 13 c
    (fun s => c.arg2.toNat ≤ 7 ∧ s.online c.arg2.toNat = true ∧ c.arg1.toNat ≤ 1 ∧ bits c.arg0.toNat 32 32 = 0 ∧ s.pageAnswered c = some q
      ∧ (s.die c.arg2.toNat).pageReqs.erase q = rest)
    (fun s => ((s.modDie c.arg2.toNat fun f => { f with pageReqs := rest }).over q.waiters
      fun i s => s.answerWaiter c.arg2.toNat i (c.arg1 == 1), 0, 0, 0)) := by
  refine commandResult_of (fun _ => rfl) fun s ⟨hd, hon, hflag, hzero, hsome, hrest⟩ => ?_
  unfold State.pageAnswered at hsome
  have hwell : ¬ (7 < c.arg2.toNat ∨ (!s.online c.arg2.toNat) = true ∨ 1 < c.arg1.toNat ∨ bits c.arg0.toNat 32 32 ≠ 0) := by
    simp [hon, hzero, hd, hflag]
  simp only [if_neg hwell, hsome, State.modDie, hrest]
  rfl

theorem pageAnswered_nil {s : State} (h : (s.die c.arg2.toNat).pageReqs = []) : s.pageAnswered c = none := by
  simp only [State.pageAnswered, State.answered, h, List.find?_nil]

/-- With one request outstanding, an answer is for it or for none. -/
theorem pageAnswered_single {s : State} {q : PageRequest} (h : (s.die c.arg2.toNat).pageReqs = [q]) :
    s.pageAnswered c = if q.id = bits c.arg0.toNat 0 16 ∧ q.cgen = bits c.arg0.toNat 16 16 ∧ (s.context q.part).cgen = bits c.arg0.toNat 16 16
      ∧ (s.context q.part).valid = true then some q else none := by
  simp only [State.pageAnswered, State.answered, h, List.find?_singleton, Bool.and_eq_true, beq_iff_eq, and_assoc]

end

/-- Settles O48: each command under each of its conditions. -/
theorem hostCommandsOfTasks : Obligations.HostCommandsOfTasks := by
  unfold Obligations.HostCommandsOfTasks
  intro c
  refine ⟨?nop, ?inventory, ?noNode, ?log, ⟨?badMaquette, ?maquette⟩, ?noMaquette, ?instantiate, ?noReserve, ?dieGone, ?reserve, ?killNone,
    ?kill, ?freezeEnds, ?freezeWaits, ?request, ?freezeNone, ?weight, ?badWeight, ?noRequest, ?answer, ?otherRequest, ?slots, ?blocks⟩
  case nop => exact commandResult_of (fun _ => rfl) fun _ _ => rfl
  case inventory => exact commandResult_of (fun _ => rfl) fun s h => CmdEnd.when_eq (decide_eq_true h) s _
  case noNode => exact commandResult_of (fun _ => rfl) fun s h => CmdEnd.when_malformed (decide_eq_false (Nat.not_le.2 h)) s _
  case log =>
    refine commandResult_of (fun _ => rfl) fun s h => CmdEnd.when_eq ?_ s _
    rw [Bool.and_eq_true, decide_eq_true_eq, decide_eq_true_eq]
    split <;> omega
  case badMaquette =>
    refine commandResult_of (fun _ => rfl) fun s ⟨hd, hlen, hserve, hbad⟩ => ?_
    simp only [if_neg (not_or.2 ⟨Nat.not_lt.2 hd, Nat.not_lt.2 hlen⟩), hserve, hbad]
    rfl
  case maquette =>
    refine commandResult_of (fun _ => rfl) fun s ⟨hd, hlen, hserve, hgood, hroom⟩ => ?_
    simp only [if_neg (not_or.2 ⟨Nat.not_lt.2 hd, Nat.not_lt.2 hlen⟩), hserve, hgood, if_neg (Nat.not_lt.2 hroom)]
    rcases s.pickFrom _ with _ | ⟨n, t⟩ <;> rfl
  case noMaquette =>
    refine commandResult_of (fun _ => rfl) fun s ⟨hnew, hm⟩ => ?_
    simp only [if_neg (not_and_of_not_left _ (not_not.2 hnew)), hm]
    rfl
  case instantiate =>
    refine fun m => commandResult_of (fun _ => rfl) fun s ⟨hnew, hm, hpart⟩ => ?_
    simp only [hnew, hm, hpart, ne_eq, not_true_eq_false, false_and, if_false, if_true, apply_ite CmdEnd.of]
    rfl
  case noReserve =>
    refine commandResult_of (fun _ => rfl) fun s hm => ?_
    simp only [hm]
    rfl
  case dieGone =>
    refine fun m => commandResult_of (fun _ => rfl) fun s ⟨hm, hgone⟩ => ?_
    simp only [hm]
    exact if_pos hgone
  case reserve =>
    refine fun m => commandResult_of (fun _ => rfl) fun s ⟨hm, hall⟩ => ?_
    simp only [hm]
    rw [if_neg (by simpa using hall)]
    rcases s.reserve _ m with _ | ⟨n, runs, t⟩ <;> rfl
  case killNone => exact commandResult_of (fun _ => rfl) fun s h => by simp only [h]; rfl
  case kill => exact fun x => commandResult_of (fun _ => rfl) fun s h => by simp only [h]; rfl
  case freezeEnds =>
    refine fun t st => commandResult_of (fun _ => rfl) fun s ⟨hd, hon, hr⟩ => ?_
    simp only [hon, hr]
    exact if_neg (by simpa using hd)
  case freezeWaits =>
    refine fun s t h hd hon hr => command_wait h ?_
    simp only [hon, hr]
    exact if_neg (by simpa using hd)
  case request =>
    refine fun s d rec r hr hfree hrun hpred hend hgroup => ?_
    have hasked := requestFreeze_alone hr hrun hend hfree hpred hgroup
    exact ⟨fun h => hasked.trans (if_pos h), fun h => hasked.trans (if_neg (ne_true_of_eq_false h))⟩
  case freezeNone => exact commandResult_of (fun _ => rfl) fun s h => if_pos (h.imp_right fun hon => by simp [hon])
  case weight => exact commandResult_of (fun _ => rfl) fun s h => CmdEnd.when_eq (by simpa using h) s _
  case badWeight =>
    refine commandResult_of (fun _ => rfl) fun s h => CmdEnd.when_malformed ?_ s _
    simp only [Bool.and_eq_false_iff, decide_eq_false_iff_not]
    omega
  case noRequest => exact pans_unmatched.of_imp fun s ⟨hd, hq⟩ => ⟨hd, pageAnswered_nil hq⟩
  case answer =>
    refine fun q => pans_matched.of_imp fun s ⟨hd, hon, hflag, hzero, hq, hid, hcgen, hctx, hvalid⟩ => ⟨hd, hon, hflag, hzero, ?_, ?_⟩
    · exact (pageAnswered_single hq).trans (if_pos ⟨hid, hcgen, hctx.trans hcgen, hvalid⟩)
    · rw [hq, List.erase_cons_head]
  case otherRequest =>
    refine fun q => pans_unmatched.of_imp fun s ⟨hd, hq, hother⟩ => ⟨hd, (pageAnswered_single hq).trans (if_neg ?_)⟩
    rintro ⟨hid, hcgen, hctx, hvalid⟩
    simp [hid, hcgen, hctx, hvalid] at hother
  case slots =>
    refine commandResult_of (fun _ => rfl) fun s ⟨hkey, ha, hsize, hpool⟩ => ?_
    have hargs : ¬ ((s.keyOf c.part c.arg2.toNat).isNone = true ∨ bits c.arg0.toNat 50 14 ≠ 0
        ∨ s.hbmSize < c.arg0.toNat + c.arg1.toNat * slotBytes) := by
      simp [Option.isSome_iff_ne_none.1 hkey, ha, hsize]
    refine (if_neg hargs).trans ((CmdEnd.when_eq ?_ s _).trans ?_)
    · simp only [hpool, List.all_nil, List.all_eq_true, implies_true]
    · simp only [hpool, List.nil_append, List.map_map]
      rfl
  case blocks =>
    refine commandResult_of (fun _ => rfl) fun s ⟨hi, hlo, hhi, hlog, hbase, hadd, hroom⟩ => (if_neg ?_).trans (if_pos hadd)
    simp [hlog, hbase, hadd, hi, hlo, hhi, hroom]

end Sys2Proof.Machine
end

section
/-! PROOFS. Host commands that administer the device (spec 12 R273, 13 R283 with 10 R239, R245 to R252, 11 R269, 12 R277, R278): what each does as it
arrives. -/
namespace Sys2Proof.Machine

/-- Settles O49: each command under each of its conditions. The kinds and the bytes of a Weniz log entry are the model's choice, log 30, and the head
of the command ring rises without a wrap by its reading of the index, log 57. -/
theorem hostCommandsOfTheDevice : Obligations.HostCommandsOfTheDevice := by
  unfold Obligations.HostCommandsOfTheDevice
  intro c
  refine ⟨⟨?context, ?badContext⟩, ?key, ?badKey, ?invalidate, ?takeTiles, ?giveTile, ?noNode, ?cut, ?offline, ?power, ?identity, ?identityBusy,
    ?admission, ?notAdmitted, ?dismiss, ?counters, ?noBundle, ?bundles, ?publicKey, ?sensors, ?wenizLog, ?stage, ?commit, ?accounts⟩
  case context =>
    refine commandResult_of (fun _ => rfl) fun s ⟨hzero, hbit, hroot⟩ => CmdEnd.when_eq ?_ s _
    simpa [hzero, hbit, or_iff_not_imp_left] using hroot
  case badContext =>
    refine commandResult_of (fun _ => rfl) fun s h => CmdEnd.when_malformed ?_ s _
    rcases h with h | h <;> simp [h]
  case key =>
    refine commandResult_of (fun _ => rfl) fun s ⟨hslot, harg⟩ => (if_neg (by simp [hslot, harg])).trans ?_
    simp only [wrappedKeyBytes]
    cases Config.unwrapKey (s.hostBytes c.arg2 128) <;> rfl
  case badKey => exact commandResult_of (fun _ => rfl) fun s h => if_pos h
  case invalidate => exact commandResult_of (fun _ => rfl) fun s h => CmdEnd.when_eq (by simpa using h) s _
  case takeTiles =>
    refine commandResult_of (fun _ => rfl) fun s ⟨hle, hlt, hgo⟩ => (if_neg (by omega)).trans (if_neg fun h => ?_)
    simp [h] at hgo
  case giveTile =>
    refine commandResult_of (fun _ => rfl) fun s ⟨heq, hlt, hgo, hhold⟩ => (if_neg ?_).trans ((if_pos hgo).trans ?_)
    · simp [hgo, heq, hlt]
    · have hone : (List.range (c.arg1.toNat + 1 - c.arg0.toNat)).map (c.arg0.toNat + ·) = [c.arg0.toNat] := by
        simp [heq]
      simp only [hone]
      exact CmdEnd.when_eq (by simp [hhold]) s _
  case noNode => exact commandResult_of (fun _ => rfl) fun s h => if_pos h
  case cut =>
    refine commandResult_of (fun _ => rfl) fun s ⟨hnode, hcut⟩ => (if_neg (Nat.not_lt.2 hnode)).trans (if_pos ?_)
    simp [hcut]
  case offline =>
    refine commandResult_of (fun _ => rfl) fun s ⟨hnode, hwhole, hstate⟩ => (if_neg (by omega)).trans ((if_neg (by simp [hwhole])).trans
      ((if_neg (by omega)).trans ((if_pos hnode).trans ?_)))
    cases s.dieBusy c.arg0.toNat <;> rfl
  case power => exact commandResult_of (fun _ => rfl) fun _ _ => rfl
  case identity =>
    refine commandResult_of (fun _ => rfl) fun s ⟨hid, hset, hinsts⟩ => (if_neg (Nat.not_lt.2 hid)).trans (if_neg ?_)
    simp [hset, hinsts]
  case identityBusy =>
    refine commandResult_of (fun _ => rfl) fun s ⟨hid, hbusy⟩ => (if_neg (Nat.not_lt.2 hid)).trans (if_pos ?_)
    rcases hbusy with h | h <;> simp [h]
  case admission => exact commandResult_of (fun _ => rfl) fun s h => CmdEnd.when_eq (by simpa using h) s _
  case notAdmitted => exact commandResult_of (fun _ => rfl) fun s h => if_pos (by rw [h, Bool.not_false])
  case dismiss =>
    refine commandResult_of (fun _ => rfl) fun s h => ?_
    simp only [h, Bool.not_true, Bool.false_eq_true, if_false, CmdEnd.ok_eq_of]
  case counters => exact commandResult_of (fun _ => rfl) fun s h => CmdEnd.when_eq (decide_eq_true h) s _
  case noBundle => exact commandResult_of (fun _ => rfl) fun s h => if_pos (by simp [h])
  case bundles => exact commandResult_of (fun _ => rfl) fun s h => if_neg (by simp [h])
  case publicKey => exact commandResult_of (fun _ => rfl) fun _ _ => rfl
  case sensors => exact commandResult_of (fun _ => rfl) fun _ _ => rfl
  case wenizLog => exact commandResult_of (fun _ => rfl) fun _ _ => rfl
  case stage =>
    refine commandResult_of (fun _ => rfl) fun s _ => ?_
    cases Config.verifyImage (s.hostBytes c.arg0 c.arg1.toNat) with
    | none => rfl
    | some v =>
      simp only [apply_ite CmdEnd.of]
      rfl
  case commit =>
    refine fun b => commandResult_of (fun _ => rfl) fun s ⟨hbank, hstaged⟩ => ?_
    simp only [hbank]
    exact CmdEnd.when_eq hstaged s _
  case accounts => exact commandResult_of (fun _ => rfl) fun _ _ => rfl

end Sys2Proof.Machine
end

section
/-! PROOFS. The control processor's encoding (spec 14 R291 to R297): an encoded instruction decodes to itself, and a word that decodes is the encoding
of what it decodes to. -/
namespace Sys2Proof
open Laws.Encoding

/-! ### Fields of a word -/

/-- A check that passes (14 R293). -/
theorem check_eq_ok {c : Prop} [Decidable c] {e : DecodeFail} {x : Dec} {i : Instr} :
    (if c then .error e else x) = .ok i ↔ ¬c ∧ x = .ok i := by
  split <;> simp [*]

theorem fin_ofNat_eq_iff {n x : Nat} [NeZero n] {k : Fin n} : Fin.ofNat n x = k ↔ x % n = k.val := by
  rw [Fin.ext_iff, Fin.val_ofNat]

theorem bitVec_ofNat_eq_iff {n x : Nat} {v : BitVec n} : BitVec.ofNat n x = v ↔ x % 2 ^ n = v.toNat := by
  rw [← BitVec.toNat_inj, BitVec.toNat_ofNat]

theorem regOf_val (w lo : Nat) : (regOf w lo).val = bits w lo 5 := by rw [regOf, Fin.val_ofNat]; rfl

theorem regOf_eq_iff {w lo : Nat} {r : Reg} : regOf w lo = r ↔ bits w lo 5 = r.val := by rw [Fin.ext_iff, regOf_val]

/-- The fields that the decoders read as numbers. -/
theorem number_fields (w : Nat) :
    w / 2 % 2 ^ 7 = bits w 1 7 ∧ w / 64 % 2 ^ 6 = bits w 6 6 ∧ w / 64 % 2 ^ 9 = bits w 6 9 ∧ w / 64 % 4 = bits w 6 2 ∧ w / 64 % 8 = bits w 6 3
      ∧ w / 64 % 64 = bits w 6 6 ∧ w / 256 % 128 = bits w 8 7 ∧ w / 512 % 64 = bits w 9 6 ∧ w / 1024 % 8 = bits w 10 3
      ∧ w / 32768 % 8 = bits w 15 3 ∧ w / 1048576 % 8 = bits w 20 3 ∧ w / 4194304 % 8 = bits w 22 3 :=
  ⟨rfl, rfl, rfl, rfl, rfl, rfl, rfl, rfl, rfl, rfl, rfl, rfl⟩

theorem flagOf_eq_iff {w lo : Nat} {b : Bool} : flagOf w lo = b ↔ bits w lo 1 = flagCode b := by
  rw [← flagCode_flagOf, flagCode_injective.eq_iff]

theorem orderOf_code (w : Nat) : (orderOf w).code = bits w 0 6 := by
  simp only [orderOf, Order.code, Fin.val_ofNat, bits]
  omega

theorem Order.code_injective : Function.Injective Order.code := by
  rintro ⟨s, t⟩ ⟨s', t'⟩ h
  simp only [Order.code] at h
  simp only [Order.mk.injEq, Fin.ext_iff]
  omega

theorem orderOf_eq_iff {w : Nat} {o : Order} : orderOf w = o ↔ bits w 0 6 = o.code := by
  rw [← orderOf_code, Order.code_injective.eq_iff]

/-! ### Codes (14 R295, R297): the code of a value is the one code that gives it -/

theorem Ord.ofCode_eq_some {n : Nat} {x : Ord} : Ord.ofCode n = some x ↔ n = x.code := by
  refine ⟨fun h => ?_, by rintro rfl; cases x <;> rfl⟩
  unfold Ord.ofCode at h
  split at h <;> cases h <;> rfl
theorem Scp.ofCode_eq_some {n : Nat} {x : Scp} : Scp.ofCode n = some x ↔ n = x.code := by
  refine ⟨fun h => ?_, by rintro rfl; cases x <;> rfl⟩
  unfold Scp.ofCode at h
  split at h <;> cases h <;> rfl
theorem LoadSize.ofCode_eq_some {n : Nat} {x : LoadSize} : LoadSize.ofCode n = some x ↔ n = x.code := by
  refine ⟨fun h => ?_, by rintro rfl; cases x <;> rfl⟩
  unfold LoadSize.ofCode at h
  split at h <;> cases h <;> rfl
theorem Size.ofCode_eq_some {n : Nat} {x : Size} : Size.ofCode n = some x ↔ n = x.code := by
  refine ⟨fun h => ?_, by rintro rfl; cases x <;> rfl⟩
  unfold Size.ofCode at h
  split at h <;> cases h <;> rfl
theorem AtomicOp.ofCode_eq_some {n : Nat} {x : AtomicOp} : AtomicOp.ofCode n = some x ↔ n = x.code := by
  refine ⟨fun h => ?_, by rintro rfl; cases x <;> rfl⟩
  unfold AtomicOp.ofCode at h
  split at h <;> cases h <;> rfl
theorem Cond.ofCode_eq_some {n : Nat} {x : Cond} : Cond.ofCode n = some x ↔ n = x.code := by
  refine ⟨fun h => ?_, by rintro rfl; cases x <;> rfl⟩
  unfold Cond.ofCode at h
  split at h <;> cases h <;> rfl
theorem PredOp.ofCode_eq_some {n : Nat} {x : PredOp} : PredOp.ofCode n = some x ↔ n = x.code := by
  refine ⟨fun h => ?_, by rintro rfl; cases x <;> rfl⟩
  unfold PredOp.ofCode at h
  split at h <;> cases h <;> rfl
theorem HState.ofCode_eq_some {n : Nat} {x : HState} : HState.ofCode n = some x ↔ n = x.code := by
  refine ⟨fun h => ?_, by rintro rfl; cases x <;> rfl⟩
  unfold HState.ofCode at h
  split at h <;> cases h <;> rfl
theorem SysReg.ofCode_eq_some {n : Nat} {x : SysReg} : SysReg.ofCode n = some x ↔ n = x.code := by
  refine ⟨fun h => ?_, by rintro rfl; cases x <;> rfl⟩
  unfold SysReg.ofCode at h
  split at h <;> cases h <;> rfl

theorem Ord.ofCode_code (x : Ord) : Ord.ofCode x.code = some x := Ord.ofCode_eq_some.2 rfl
theorem Scp.ofCode_code (x : Scp) : Scp.ofCode x.code = some x := Scp.ofCode_eq_some.2 rfl
theorem LoadSize.ofCode_code (x : LoadSize) : LoadSize.ofCode x.code = some x := LoadSize.ofCode_eq_some.2 rfl
theorem Size.ofCode_code (x : Size) : Size.ofCode x.code = some x := Size.ofCode_eq_some.2 rfl
theorem AtomicOp.ofCode_code (x : AtomicOp) : AtomicOp.ofCode x.code = some x := AtomicOp.ofCode_eq_some.2 rfl
theorem Cond.ofCode_code (x : Cond) : Cond.ofCode x.code = some x := Cond.ofCode_eq_some.2 rfl
theorem PredOp.ofCode_code (x : PredOp) : PredOp.ofCode x.code = some x := PredOp.ofCode_eq_some.2 rfl
theorem HState.ofCode_code (x : HState) : HState.ofCode x.code = some x := HState.ofCode_eq_some.2 rfl
theorem SysReg.ofCode_code (x : SysReg) : SysReg.ofCode x.code = some x := SysReg.ofCode_eq_some.2 rfl

/-! ### Encoded instructions decode -/

/-- The decoder of an opcode (14 R294). -/
def decodeOp (op w w2 : Nat) : Dec :=
  match op / 16 with
  | 0 => decodeRow0 op w | 1 => decodeRow1 op w | 2 => decodeRow2 op w w2 | 3 => decodeRow3 op w
  | 4 => decodeRow4 op w | 5 => decodeRow5 op w | 6 => decodeRow6 op w | _ => decodeRow7 op w

/-- With the word named, no step of a proof computes with its digits. -/
theorem decode_encode_of {i : Instr} {w2 : Nat} (h : ∀ w, encode i = w → decode w w2 = .ok i) : decode (encode i) w2 = .ok i := h _ rfl

/-- The opcode of a word is the part that its operands do not reach. -/
theorem decode_eq_decodeOp {c r w w2 : Nat} (h : c + r = w) (hc : c % 33554432 = 0) (hr : r < 33554432) :
    decode w w2 = decodeOp (c / 33554432 % 128) w w2 := by
  have : bits w 25 7 = c / 33554432 % 128 := by simp only [bits]; omega
  rw [← this]
  rfl

/-- Rows whose operands are registers. -/
theorem decode_encode_registers (a b d : Reg) (w2 : Nat) :
    ∀ j ∈ [Instr.add d a b, .sub d a b, .mul d a b, .and d a b, .or d a b,
    .xor d a b, .shl d a b, .shr d a b, .sra d a b, .clz d a, .ctz d a, .popc d a, .enrd d a], decode (encode j) w2 = .ok j := by
  simp only [List.forall_mem_cons]
  refine ⟨?_, ?_, ?_, ?_, ?_, ?_, ?_, ?_, ?_, ?_, ?_, ?_, ?_, List.forall_mem_nil _⟩
  all_goals
    apply decode_encode_of
    intro w hw
    delta encode at hw
    simp only [Nat.add_assoc] at hw
    rw [decode_eq_decodeOp hw rfl (by omega)]
    simp only [decodeOp, Nat.reduceDiv, Nat.reduceMod, decodeRow0, decodeRow1, decodeRow2, decodeAdd, decodeSub, decodeMul, decodeAnd, decodeOr,
      decodeXor, decodeShl, decodeShr, decodeSra, decodeClz, decodeCtz, decodePopc, decodeEnrd, check_eq_ok, Except.ok.injEq, Instr.add.injEq,
      Instr.sub.injEq, Instr.mul.injEq, Instr.and.injEq, Instr.or.injEq, Instr.xor.injEq, Instr.shl.injEq, Instr.shr.injEq, Instr.sra.injEq,
      Instr.clz.injEq, Instr.ctz.injEq, Instr.popc.injEq, Instr.enrd.injEq]
    simp only [bits, regOf, fin_ofNat_eq_iff]
    and_intros <;> omega

/-- Rows whose operands are registers, of strands, branches and tasks. -/
theorem decode_encode_registers_control (a b d : Reg) (w2 : Nat) :
    ∀ j ∈ [Instr.callr a, .jmpr a, .strgo a b, .strhlt a, .wake a,
    .ginst d a b, .tstat d a, .tlbi a b], decode (encode j) w2 = .ok j := by
  simp only [List.forall_mem_cons]
  refine ⟨?_, ?_, ?_, ?_, ?_, ?_, ?_, ?_, List.forall_mem_nil _⟩
  all_goals
    apply decode_encode_of
    intro w hw
    delta encode at hw
    simp only [Nat.add_assoc] at hw
    rw [decode_eq_decodeOp hw rfl (by omega)]
    simp only [decodeOp, Nat.reduceDiv, Nat.reduceMod, decodeRow2, decodeRow5, decodeRow7, decodeCallr, decodeJmpr, decodeStrgo, decodeStrhlt,
      decodeWake, decodeGinst, decodeTstat, decodeTlbi, check_eq_ok, Except.ok.injEq, Instr.callr.injEq, Instr.jmpr.injEq, Instr.strgo.injEq,
      Instr.strhlt.injEq, Instr.wake.injEq, Instr.ginst.injEq, Instr.tstat.injEq, Instr.tlbi.injEq]
    simp only [bits, regOf, fin_ofNat_eq_iff]
    and_intros <;> omega

/-- Rows with an immediate, a shift amount, a field or a predicate. -/
theorem decode_encode_numbers (a b d : Reg) (i : BitVec 15) (n : Fin 64) (p : Fin 8) (m : Fin 6) (w2 : Nat) :
    ∀ j ∈ [Instr.addi d a i,
    .andi d a i, .ori d a i, .xori d a i, .shli d a n, .shri d a n, .srai d a n, .sel d a b p, .lis d i, .widf d m],
      decode (encode j) w2 = .ok j := by
  simp only [List.forall_mem_cons]
  refine ⟨?_, ?_, ?_, ?_, ?_, ?_, ?_, ?_, ?_, ?_, List.forall_mem_nil _⟩
  all_goals
    apply decode_encode_of
    intro w hw
    delta encode at hw
    simp only [Nat.add_assoc] at hw
    rw [decode_eq_decodeOp hw rfl (by omega)]
    simp only [decodeOp, Nat.reduceDiv, Nat.reduceMod, decodeRow1, decodeRow2, decodeAddi, decodeAndi, decodeOri, decodeXori, decodeShli,
      decodeShri, decodeSrai, decodeSel, decodeLis, decodeWidf, check_eq_ok, Except.ok.injEq, Instr.addi.injEq, Instr.andi.injEq,
      Instr.ori.injEq, Instr.xori.injEq, Instr.shli.injEq, Instr.shri.injEq, Instr.srai.injEq, Instr.sel.injEq, Instr.lis.injEq,
      Instr.widf.injEq, bitVec_ofNat_eq_iff]
    simp only [bits, regOf, fin_ofNat_eq_iff]
    and_intros <;> omega

/-- Rows with a branch target, a mask or a number of a trap. -/
theorem decode_encode_masks (t : BitVec 21) (k : BitVec 8) (m : BitVec 7) (w2 : Nat) :
    ∀ j ∈ [Instr.b t, .call t, .waitk k, .sbwait m,
    .svc k, .trap k, .brk k], decode (encode j) w2 = .ok j := by
  simp only [List.forall_mem_cons]
  refine ⟨?_, ?_, ?_, ?_, ?_, ?_, ?_, List.forall_mem_nil _⟩
  all_goals
    apply decode_encode_of
    intro w hw
    delta encode at hw
    simp only [] at hw
    rw [decode_eq_decodeOp hw rfl (by omega)]
    simp only [decodeOp, Nat.reduceDiv, Nat.reduceMod, decodeRow2, decodeRow4, decodeRow7, decodeB, decodeCall, decodeWaitk, decodeSbwait,
      decodeSvc, decodeTrap, decodeBrk, check_eq_ok, Except.ok.injEq, Instr.b.injEq, Instr.call.injEq, Instr.waitk.injEq, Instr.sbwait.injEq,
      Instr.svc.injEq, Instr.trap.injEq, Instr.brk.injEq, bitVec_ofNat_eq_iff]
    simp only [bits]
    and_intros <;> omega

/-- Rows with a flag. -/
theorem decode_encode_flags (a b d : Reg) (u : Bool) (p : Fin 8) (t : BitVec 21) (w2 : Nat) :
    ∀ j ∈ [Instr.mulh d a b u, .div d a b u,
    .rem d a b u, .min d a b u, .max d a b u, .bc p u t], decode (encode j) w2 = .ok j := by
  have := code_lt_bool u
  simp only [List.forall_mem_cons]
  refine ⟨?_, ?_, ?_, ?_, ?_, ?_, List.forall_mem_nil _⟩
  all_goals
    apply decode_encode_of
    intro w hw
    delta encode at hw
    simp only [Nat.add_assoc] at hw
    rw [decode_eq_decodeOp hw rfl (by omega)]
    simp only [decodeOp, Nat.reduceDiv, Nat.reduceMod, decodeRow0, decodeRow2, decodeMulh, decodeDiv, decodeRem, decodeMin, decodeMax, decodeBc,
      check_eq_ok, Except.ok.injEq, Instr.mulh.injEq, Instr.div.injEq, Instr.rem.injEq, Instr.min.injEq, Instr.max.injEq, Instr.bc.injEq,
      flagOf_eq_iff, bitVec_ofNat_eq_iff]
    simp only [bits, regOf, fin_ofNat_eq_iff]
    and_intros <;> omega

/-- Rows with an order field, of the memory tile and messages. -/
theorem decode_encode_window (a b d : Reg) (o : Order) (w2 : Nat) :
    ∀ j ∈ [Instr.tlook d a b o, .tins d a b o, .tevict d a b o, .bari a b o,
    .bara d a o, .barw a b o, .tsb d a b o, .lrel a o, .send a b o, .xlt d a o], decode (encode j) w2 = .ok j := by
  have := code_lt_order o
  simp only [List.forall_mem_cons]
  refine ⟨?_, ?_, ?_, ?_, ?_, ?_, ?_, ?_, ?_, ?_, List.forall_mem_nil _⟩
  all_goals
    apply decode_encode_of
    intro w hw
    delta encode at hw
    simp only [Nat.add_assoc] at hw
    rw [decode_eq_decodeOp hw rfl (by omega)]
    simp only [decodeOp, Nat.reduceDiv, Nat.reduceMod, decodeRow4, decodeRow7, decodeTlook, decodeTins, decodeTevict, decodeBari, decodeBara,
      decodeBarw, decodeTsb, decodeLrel, decodeSend, decodeXlt, check_eq_ok, Except.ok.injEq, Instr.tlook.injEq, Instr.tins.injEq,
      Instr.tevict.injEq, Instr.bari.injEq, Instr.bara.injEq, Instr.barw.injEq, Instr.tsb.injEq, Instr.lrel.injEq, Instr.send.injEq,
      Instr.xlt.injEq, orderOf_eq_iff]
    simp only [bits, regOf, fin_ofNat_eq_iff]
    and_intros <;> omega

/-- Rows with an order field, of engines. -/
theorem decode_encode_engine (a b d : Reg) (o : Order) (h : Fin 128) (q : Fin 64) (e : Fin 8) (w2 : Nat) :
    ∀ j ∈ [Instr.halloc d a b o,
    .hfree h o, .hstat d h o, .cpy a o, .cpyt a q o, .cpyq a q o, .cpyc a o, .scfg a e o, .swin a e o, .sgo e o, .shalt e o, .sstat d e o],
      decode (encode j) w2 = .ok j := by
  have := code_lt_order o
  simp only [List.forall_mem_cons]
  refine ⟨?_, ?_, ?_, ?_, ?_, ?_, ?_, ?_, ?_, ?_, ?_, ?_, List.forall_mem_nil _⟩
  all_goals
    apply decode_encode_of
    intro w hw
    delta encode at hw
    simp only [Nat.add_assoc] at hw
    rw [decode_eq_decodeOp hw rfl (by omega)]
    simp only [decodeOp, Nat.reduceDiv, Nat.reduceMod, decodeRow5, decodeRow6, decodeHalloc, decodeHfree, decodeHstat, decodeCpy, decodeCpyt,
      decodeCpyq, decodeCpyc, decodeScfg, decodeSwin, decodeSgo, decodeShalt, decodeSstat, check_eq_ok, Except.ok.injEq, Instr.halloc.injEq,
      Instr.hfree.injEq, Instr.hstat.injEq, Instr.cpy.injEq, Instr.cpyt.injEq, Instr.cpyq.injEq, Instr.cpyc.injEq, Instr.scfg.injEq,
      Instr.swin.injEq, Instr.sgo.injEq, Instr.shalt.injEq, Instr.sstat.injEq, orderOf_eq_iff]
    simp only [bits, regOf, fin_ofNat_eq_iff]
    and_intros <;> omega

/-- Rows with an order field, of the grid, the island and tasks. -/
theorem decode_encode_grid (a b d : Reg) (o : Order) (n : Fin 4) (w2 : Nat) :
    ∀ j ∈ [Instr.gcommit o, .gsend a b n o, .gconst a b o,
    .gstat d b o, .mxcfg a o, .mxldb a o, .mxrot o, .mxzero a o, .mxchk d o, .tsig a o], decode (encode j) w2 = .ok j := by
  have := code_lt_order o
  simp only [List.forall_mem_cons]
  refine ⟨?_, ?_, ?_, ?_, ?_, ?_, ?_, ?_, ?_, ?_, List.forall_mem_nil _⟩
  all_goals
    apply decode_encode_of
    intro w hw
    delta encode at hw
    simp only [Nat.add_assoc] at hw
    rw [decode_eq_decodeOp hw rfl (by omega)]
    simp only [decodeOp, Nat.reduceDiv, Nat.reduceMod, decodeRow6, decodeRow7, decodeGcommit, decodeGsend, decodeGconst, decodeGstat,
      decodeMxcfg, decodeMxldb, decodeMxrot, decodeMxzero, decodeMxchk, decodeTsig, check_eq_ok, Except.ok.injEq, Instr.gcommit.injEq,
      Instr.gsend.injEq, Instr.gconst.injEq, Instr.gstat.injEq, Instr.mxcfg.injEq, Instr.mxldb.injEq, Instr.mxrot.injEq, Instr.mxzero.injEq,
      Instr.mxchk.injEq, Instr.tsig.injEq, orderOf_eq_iff]
    simp only [bits, regOf, fin_ofNat_eq_iff]
    and_intros <;> omega

/-- Rows with an order field and a flag or an offset. -/
theorem decode_encode_order_flags (a b d : Reg) (o : Order) (u : Bool) (n : Fin 4) (e : BitVec 9) (w2 : Nat) :
    ∀ j ∈ [Instr.pref a e o,
    .cflush a e o, .cinv a e o, .eqput d a b u o, .grecv d u n o, .mxrd a b u o], decode (encode j) w2 = .ok j := by
  have := code_lt_order o
  have := code_lt_bool u
  simp only [List.forall_mem_cons]
  refine ⟨?_, ?_, ?_, ?_, ?_, ?_, List.forall_mem_nil _⟩
  all_goals
    apply decode_encode_of
    intro w hw
    delta encode at hw
    simp only [Nat.add_assoc] at hw
    rw [decode_eq_decodeOp hw rfl (by omega)]
    simp only [decodeOp, Nat.reduceDiv, Nat.reduceMod, decodeRow3, decodeRow4, decodeRow6, decodeRow7, decodePref, decodeCflush, decodeCinv,
      decodeEqput, decodeGrecv, decodeMxrd, check_eq_ok, Except.ok.injEq, Instr.pref.injEq, Instr.cflush.injEq, Instr.cinv.injEq,
      Instr.eqput.injEq, Instr.grecv.injEq, Instr.mxrd.injEq, orderOf_eq_iff, flagOf_eq_iff, bitVec_ofNat_eq_iff]
    simp only [bits, regOf, fin_ofNat_eq_iff]
    and_intros <;> omega

/-! ### Rows with a coded field (14 R295) -/

theorem decode_encode_plain_loads (d a : Reg) (z : LoadSize) (e : BitVec 6) (o : Order) (w2 : Nat) :
    ∀ j ∈ [Instr.ldl d a z e o,
    .ldg d a z e o], decode (encode j) w2 = .ok j := by
  have := code_lt_order o
  have := code_lt_loadsize z
  simp only [List.forall_mem_cons]
  refine ⟨?_, ?_, List.forall_mem_nil _⟩
  all_goals
    apply decode_encode_of
    intro w hw
    delta encode at hw
    simp only [Nat.add_assoc] at hw
    rw [decode_eq_decodeOp hw rfl (by omega)]
    have hz : bits w 12 3 = z.code := by simp only [bits]; omega
    simp only [decodeOp, Nat.reduceDiv, Nat.reduceMod, decodeRow3]
    simp only [decodeLdg, decodeLdl, hz, LoadSize.ofCode_code, orderOf_eq_iff, bitVec_ofNat_eq_iff, Except.ok.injEq,
      Instr.ldg.injEq, Instr.ldl.injEq, regOf_eq_iff]
    simp only [bits, true_and]
    and_intros <;> omega

theorem decode_encode_plain_stores (d a : Reg) (z : Size) (e : BitVec 6) (o : Order) (w2 : Nat) :
    ∀ j ∈ [Instr.stl d a z e o, .stg d a z e o], decode (encode j) w2 = .ok j := by
  have := code_lt_order o
  have := code_lt_size z
  simp only [List.forall_mem_cons]
  refine ⟨?_, ?_, List.forall_mem_nil _⟩
  all_goals
    apply decode_encode_of
    intro w hw
    delta encode at hw
    simp only [Nat.add_assoc] at hw
    rw [decode_eq_decodeOp hw rfl (by omega)]
    have hz : bits w 12 2 = z.code := by simp only [bits]; omega
    simp only [decodeOp, Nat.reduceDiv, Nat.reduceMod, decodeRow3]
    simp only [decodeStg, decodeStl, hz, Size.ofCode_code, orderOf_eq_iff, bitVec_ofNat_eq_iff, check_eq_ok, Except.ok.injEq, Instr.stg.injEq,
      Instr.stl.injEq, regOf_eq_iff]
    simp only [bits, true_and]
    and_intros <;> omega

theorem decode_encode_lda (d a : Reg) (q : Ord) (c : Scp) (z : Size) (o : Order) (w2 : Nat) (h : q.okLoad = true) :
    decode (encode (Instr.lda d a q c z o)) w2 = .ok (Instr.lda d a q c z o) := by
  have := code_lt_order o
  have := code_lt_ord q
  have := code_lt_scp c
  have := code_lt_size z
  apply decode_encode_of
  intro w hw
  delta encode at hw
  simp only [Nat.add_assoc] at hw
  rw [decode_eq_decodeOp hw rfl (by omega)]
  have hq : bits w 12 3 = q.code := by simp only [bits]; omega
  have hc : bits w 10 2 = c.code := by simp only [bits]; omega
  have hz : bits w 8 2 = z.code := by simp only [bits]; omega
  simp only [decodeOp, Nat.reduceDiv, Nat.reduceMod, decodeRow3]
  simp only [decodeLda, hq, hc, hz, Ord.ofCode_code, Scp.ofCode_code, Size.ofCode_code, h, Bool.not_true, Bool.false_eq_true, if_false,
    orderOf_eq_iff, check_eq_ok, Except.ok.injEq, Instr.lda.injEq, regOf_eq_iff]
  simp only [bits, true_and]
  and_intros <;> omega

theorem decode_encode_strl (d a : Reg) (q : Ord) (c : Scp) (z : Size) (o : Order) (w2 : Nat) (h : q.okStore = true) :
    decode (encode (Instr.strl d a q c z o)) w2 = .ok (Instr.strl d a q c z o) := by
  have := code_lt_order o
  have := code_lt_ord q
  have := code_lt_scp c
  have := code_lt_size z
  apply decode_encode_of
  intro w hw
  delta encode at hw
  simp only [Nat.add_assoc] at hw
  rw [decode_eq_decodeOp hw rfl (by omega)]
  have hq : bits w 12 3 = q.code := by simp only [bits]; omega
  have hc : bits w 10 2 = c.code := by simp only [bits]; omega
  have hz : bits w 8 2 = z.code := by simp only [bits]; omega
  simp only [decodeOp, Nat.reduceDiv, Nat.reduceMod, decodeRow3]
  simp only [decodeStrl, hq, hc, hz, Ord.ofCode_code, Scp.ofCode_code, Size.ofCode_code, h, Bool.not_true, Bool.false_eq_true, if_false,
    orderOf_eq_iff, check_eq_ok, Except.ok.injEq, Instr.strl.injEq, regOf_eq_iff]
  simp only [bits, true_and]
  and_intros <;> omega

theorem decode_encode_amo (d a : Reg) (q : Ord) (c : Scp) (u : Bool) (f : AtomicOp) (o : Order) (w2 : Nat) :
    decode (encode (Instr.amo d a q c u f o)) w2 = .ok (Instr.amo d a q c u f o) := by
  have := code_lt_order o
  have := code_lt_ord q
  have := code_lt_scp c
  have := code_lt_bool u
  have := code_lt_atomicop f
  apply decode_encode_of
  intro w hw
  delta encode at hw
  simp only [Nat.add_assoc] at hw
  rw [decode_eq_decodeOp hw rfl (by omega)]
  have hq : bits w 12 3 = q.code := by simp only [bits]; omega
  have hc : bits w 10 2 = c.code := by simp only [bits]; omega
  have hf : bits w 6 3 = f.code := by simp only [bits]; omega
  simp only [decodeOp, Nat.reduceDiv, Nat.reduceMod, decodeRow3]
  simp only [decodeAmo, hq, hc, hf, Ord.ofCode_code, Scp.ofCode_code, AtomicOp.ofCode_code, flagOf_eq_iff, orderOf_eq_iff,
    Except.ok.injEq, Instr.amo.injEq, regOf_eq_iff]
  simp only [bits, true_and]
  and_intros <;> omega

theorem decode_encode_amol (d a : Reg) (q : Ord) (c : Scp) (u : Bool) (f : AtomicOp) (o : Order) (w2 : Nat) (h : q.okLocal c = true) :
    decode (encode (Instr.amol d a q c u f o)) w2 = .ok (Instr.amol d a q c u f o) := by
  have := code_lt_order o
  have := code_lt_ord q
  have := code_lt_scp c
  have := code_lt_bool u
  have := code_lt_atomicop f
  apply decode_encode_of
  intro w hw
  delta encode at hw
  simp only [Nat.add_assoc] at hw
  rw [decode_eq_decodeOp hw rfl (by omega)]
  have hq : bits w 12 3 = q.code := by simp only [bits]; omega
  have hc : bits w 10 2 = c.code := by simp only [bits]; omega
  have hf : bits w 6 3 = f.code := by simp only [bits]; omega
  simp only [decodeOp, Nat.reduceDiv, Nat.reduceMod, decodeRow3]
  simp only [decodeAmol, hq, hc, hf, Ord.ofCode_code, Scp.ofCode_code, AtomicOp.ofCode_code, h, Bool.not_true, Bool.false_eq_true, if_false,
    flagOf_eq_iff, orderOf_eq_iff, Except.ok.injEq, Instr.amol.injEq, regOf_eq_iff]
  simp only [bits, true_and]
  and_intros <;> omega

theorem decode_encode_cas (d a : Reg) (q : Ord) (c : Scp) (u : Bool) (o : Order) (w2 : Nat) (h : d.val ≠ 31) :
    decode (encode (Instr.cas d a q c u o)) w2 = .ok (Instr.cas d a q c u o) := by
  have := code_lt_order o
  have := code_lt_ord q
  have := code_lt_scp c
  have := code_lt_bool u
  apply decode_encode_of
  intro w hw
  delta encode at hw
  simp only [Nat.add_assoc] at hw
  rw [decode_eq_decodeOp hw rfl (by omega)]
  have hq : bits w 12 3 = q.code := by simp only [bits]; omega
  have hc : bits w 10 2 = c.code := by simp only [bits]; omega
  simp only [decodeOp, Nat.reduceDiv, Nat.reduceMod, decodeRow3]
  simp only [decodeCas, hq, hc, Ord.ofCode_code, Scp.ofCode_code, flagOf_eq_iff, orderOf_eq_iff, check_eq_ok, Except.ok.injEq, Instr.cas.injEq,
    regOf_eq_iff]
  simp only [bits, true_and]
  and_intros <;> omega

theorem decode_encode_fence (q : Ord) (c : Scp) (o : Order) (w2 : Nat) (h : q.okFence = true) :
    decode (encode (Instr.fence q c o)) w2 = .ok (Instr.fence q c o) := by
  have := code_lt_order o
  have := code_lt_ord q
  have := code_lt_scp c
  apply decode_encode_of
  intro w hw
  delta encode at hw
  simp only [Nat.add_assoc] at hw
  rw [decode_eq_decodeOp hw rfl (by omega)]
  have hq : bits w 12 3 = q.code := by simp only [bits]; omega
  have hc : bits w 10 2 = c.code := by simp only [bits]; omega
  simp only [decodeOp, Nat.reduceDiv, Nat.reduceMod, decodeRow3]
  simp only [decodeFence, hq, hc, Ord.ofCode_code, Scp.ofCode_code, h, Bool.not_true, Bool.false_eq_true, if_false, orderOf_eq_iff, check_eq_ok,
    Except.ok.injEq, Instr.fence.injEq]
  simp only [bits, true_and]
  and_intros <;> omega

theorem decode_encode_cmpi (p : Fin 8) (a : Reg) (c : Cond) (u : Bool) (i : BitVec 11) (w2 : Nat) :
    decode (encode (Instr.cmpi p a c u i)) w2 = .ok (Instr.cmpi p a c u i) := by
  have := code_lt_cond c
  have := code_lt_bool u
  apply decode_encode_of
  intro w hw
  delta encode at hw
  simp only [Nat.add_assoc] at hw
  rw [decode_eq_decodeOp hw rfl (by omega)]
  have hc : bits w 12 3 = c.code := by simp only [bits]; omega
  simp only [decodeOp, Nat.reduceDiv, Nat.reduceMod, decodeRow1]
  simp only [decodeCmpi, hc, Cond.ofCode_code, flagOf_eq_iff, bitVec_ofNat_eq_iff, check_eq_ok, Except.ok.injEq, Instr.cmpi.injEq, regOf_eq_iff]
  simp only [bits, fin_ofNat_eq_iff, true_and]
  and_intros <;> omega

theorem decode_encode_cmp (p : Fin 8) (a b : Reg) (c : Cond) (u : Bool) (w2 : Nat) :
    decode (encode (Instr.cmp p a b c u)) w2 = .ok (Instr.cmp p a b c u) := by
  have := code_lt_cond c
  have := code_lt_bool u
  apply decode_encode_of
  intro w hw
  delta encode at hw
  simp only [Nat.add_assoc] at hw
  rw [decode_eq_decodeOp hw rfl (by omega)]
  have hc : bits w 7 3 = c.code := by simp only [bits]; omega
  simp only [decodeOp, Nat.reduceDiv, Nat.reduceMod, decodeRow1]
  simp only [decodeCmp, hc, Cond.ofCode_code, flagOf_eq_iff, check_eq_ok, Except.ok.injEq, Instr.cmp.injEq, regOf_eq_iff]
  simp only [bits, fin_ofNat_eq_iff, true_and]
  and_intros <;> omega

theorem decode_encode_sext (d a : Reg) (z : Size) (w2 : Nat) (h : z ≠ .d) : decode (encode (Instr.sext d a z)) w2 = .ok (Instr.sext d a z) := by
  have := code_lt_size z
  apply decode_encode_of
  intro w hw
  delta encode at hw
  simp only [Nat.add_assoc] at hw
  rw [decode_eq_decodeOp hw rfl (by omega)]
  have hz : bits w 6 2 = z.code := by simp only [bits]; omega
  simp only [decodeOp, Nat.reduceDiv, Nat.reduceMod, decodeRow1]
  simp only [decodeSext, hz, Size.ofCode_code, h, if_false, check_eq_ok, Except.ok.injEq, Instr.sext.injEq, regOf_eq_iff]
  simp only [bits, and_true]
  and_intros <;> omega

theorem decode_encode_plog (d a b : Fin 8) (q : PredOp) (w2 : Nat) (h : ¬(q = .not ∧ b.val ≠ 0)) :
    decode (encode (Instr.plog d a b q)) w2 = .ok (Instr.plog d a b q) := by
  have := code_lt_predop q
  apply decode_encode_of
  intro w hw
  delta encode at hw
  simp only [Nat.add_assoc] at hw
  rw [decode_eq_decodeOp hw rfl (by omega)]
  have hq : bits w 6 4 = q.code := by simp only [bits]; omega
  have hb : bits w 10 3 = b.val := by simp only [bits]; omega
  simp only [decodeOp, Nat.reduceDiv, Nat.reduceMod, decodeRow2]
  simp only [decodePlog, hq, hb, PredOp.ofCode_code, h, check_eq_ok, Except.ok.injEq, Instr.plog.injEq]
  simp only [bits, fin_ofNat_eq_iff, true_and, and_true, not_false_eq_true]
  and_intros <;> omega

theorem decode_encode_handle_states (h : Fin 128) (t : HState) (o : Order) (w2 : Nat) :
    ∀ j ∈ [Instr.hset h t o, .hwait h t o], decode (encode j) w2 = .ok j := by
  have := code_lt_order o
  have := code_lt_hstate t
  simp only [List.forall_mem_cons]
  refine ⟨?_, ?_, List.forall_mem_nil _⟩
  all_goals
    apply decode_encode_of
    intro w hw
    delta encode at hw
    simp only [Nat.add_assoc] at hw
    rw [decode_eq_decodeOp hw rfl (by omega)]
    have ht : bits w 6 2 = t.code := by simp only [bits]; omega
    simp only [decodeOp, Nat.reduceDiv, Nat.reduceMod, decodeRow5]
    simp only [decodeHset, decodeHwait, ht, HState.ofCode_code, orderOf_eq_iff, check_eq_ok, Except.ok.injEq, Instr.hset.injEq,
      Instr.hwait.injEq]
    simp only [bits, fin_ofNat_eq_iff, true_and]
    and_intros <;> omega

theorem decode_encode_system_registers (d : Reg) (r : SysReg) (w2 : Nat) :
    ∀ j ∈ [Instr.srd d r, .swr d r], decode (encode j) w2 = .ok j := by
  have := code_lt_sysreg r
  simp only [List.forall_mem_cons]
  refine ⟨?_, ?_, List.forall_mem_nil _⟩
  all_goals
    apply decode_encode_of
    intro w hw
    delta encode at hw
    simp only [Nat.add_assoc] at hw
    rw [decode_eq_decodeOp hw rfl (by omega)]
    have hr : bits w 0 15 = r.code := by simp only [bits]; omega
    simp only [decodeOp, Nat.reduceDiv, Nat.reduceMod, decodeRow7]
    simp only [decodeSrd, decodeSwr, hr, SysReg.ofCode_code, check_eq_ok, Except.ok.injEq, Instr.srd.injEq, Instr.swr.injEq, regOf_eq_iff]
    simp only [bits, and_true]
    and_intros <;> omega

theorem decode_encode_bit_fields (d a : Reg) (u : Bool) (p l : Fin 64) (w2 : Nat) (h : p.val + (l.val + 1) ≤ 64) :
    ∀ j ∈ [
    Instr.bfx d a u p l, .bfi d a p l], decode (encode j) w2 = .ok j := by
  have := code_lt_bool u
  simp only [List.forall_mem_cons]
  refine ⟨?_, ?_, List.forall_mem_nil _⟩
  all_goals
    apply decode_encode_of
    intro w hw
    delta encode at hw
    simp only [Nat.add_assoc] at hw
    rw [decode_eq_decodeOp hw rfl (by omega)]
    simp only [decodeOp, Nat.reduceDiv, Nat.reduceMod, decodeRow1]
    simp only [decodeBfi, decodeBfx, flagOf_eq_iff, check_eq_ok, Except.ok.injEq, Instr.bfi.injEq, Instr.bfx.injEq, regOf_eq_iff]
    simp only [bits, fin_ofNat_eq_iff]
    and_intros <;> omega

theorem decode_encode_tfail (c : BitVec 8) (w2 : Nat) (h0 : c.toNat ≠ 0) (h : c.toNat ≤ 0x13) :
    decode (encode (Instr.tfail c)) w2 = .ok (Instr.tfail c) := by
  apply decode_encode_of
  intro w hw
  delta encode at hw
  simp only [] at hw
  rw [decode_eq_decodeOp hw rfl (by omega)]
  simp only [decodeOp, Nat.reduceDiv, Nat.reduceMod, decodeRow7]
  simp only [decodeTfail, bitVec_ofNat_eq_iff, check_eq_ok, Except.ok.injEq, Instr.tfail.injEq]
  simp only [bits]
  and_intros <;> omega

theorem decode_encode_eqget (d a b : Reg) (k : Bool) (o : Order) (w2 : Nat) (h : ¬(d.val = b.val ∧ d.val ≠ 0)) :
    decode (encode (Instr.eqget d a b k o)) w2 = .ok (Instr.eqget d a b k o) := by
  have := code_lt_order o
  have := code_lt_bool k
  apply decode_encode_of
  intro w hw
  delta encode at hw
  simp only [Nat.add_assoc] at hw
  rw [decode_eq_decodeOp hw rfl (by omega)]
  have hd : bits w 20 5 = d.val := by simp only [bits]; omega
  have hb : bits w 10 5 = b.val := by simp only [bits]; omega
  simp only [decodeOp, Nat.reduceDiv, Nat.reduceMod, decodeRow4]
  simp only [decodeEqget, hd, hb, h, flagOf_eq_iff, orderOf_eq_iff, check_eq_ok, Except.ok.injEq, Instr.eqget.injEq, regOf_eq_iff]
  simp only [bits, true_and, or_false]
  and_intros <;> omega

theorem decode_encode_mov (d a : Reg) (w2 : Nat) : decode (encode (Instr.mov d a)) w2 = .ok (Instr.mov d a) := by
  apply decode_encode_of
  intro w hw
  delta encode at hw
  simp only [Nat.add_assoc] at hw
  rw [decode_eq_decodeOp hw rfl (by omega)]
  have h9 : bits w 9 1 = 0 := by simp only [bits]; omega
  simp only [decodeOp, Nat.reduceDiv, Nat.reduceMod, decodeRow2]
  simp only [decodeMov, h9, decodeMovForms, zero_ne_one, if_false, check_eq_ok, Except.ok.injEq, Instr.mov.injEq, regOf_eq_iff]
  simp only [bits]
  and_intros <;> omega

theorem decode_encode_movChannel (d : Reg) (k : Fin 8) (w2 : Nat) : decode (encode (Instr.movChannel d k)) w2 = .ok (Instr.movChannel d k) := by
  apply decode_encode_of
  intro w hw
  delta encode at hw
  simp only [Nat.add_assoc] at hw
  rw [decode_eq_decodeOp hw rfl (by omega)]
  have h9 : bits w 9 1 = 1 := by simp only [bits]; omega
  simp only [decodeOp, Nat.reduceDiv, Nat.reduceMod, decodeRow2]
  simp only [decodeMovChannel, h9, decodeMovForms, if_true, check_eq_ok, Except.ok.injEq, Instr.movChannel.injEq, regOf_eq_iff]
  simp only [bits, fin_ofNat_eq_iff]
  and_intros <;> omega

theorem decode_encode_pmovToRegister (d : Reg) (w2 : Nat) : decode (encode (Instr.pmovToRegister d)) w2 = .ok (Instr.pmovToRegister d) := by
  apply decode_encode_of
  intro w hw
  delta encode at hw
  simp only [] at hw
  rw [decode_eq_decodeOp hw rfl (by omega)]
  have h6 : bits w 6 1 = 0 := by simp only [bits]; omega
  simp only [decodeOp, Nat.reduceDiv, Nat.reduceMod, decodeRow2]
  simp only [decodePmovToRegister, h6, decodePmovForms, zero_ne_one, if_false, check_eq_ok, Except.ok.injEq, Instr.pmovToRegister.injEq,
    regOf_eq_iff]
  simp only [bits]
  and_intros <;> omega

theorem decode_encode_pmovToPredicates (a : Reg) (w2 : Nat) : decode (encode (Instr.pmovToPredicates a)) w2 = .ok (Instr.pmovToPredicates a) := by
  apply decode_encode_of
  intro w hw
  delta encode at hw
  simp only [Nat.add_assoc] at hw
  rw [decode_eq_decodeOp hw rfl (by omega)]
  have h6 : bits w 6 1 = 1 := by simp only [bits]; omega
  simp only [decodeOp, Nat.reduceDiv, Nat.reduceMod, decodeRow2]
  simp only [decodePmovToPredicates, h6, decodePmovForms, if_true, check_eq_ok, Except.ok.injEq, Instr.pmovToPredicates.injEq, regOf_eq_iff]
  simp only [bits]
  and_intros <;> omega

theorem decode_encode_all_tiles (a : Reg) (o : Order) (w2 : Nat) :
    ∀ j ∈ [Instr.gload a .all o, .gsplice a .all o, .grun .all o,
    .gfrz .all o, .gdrain .all o], decode (encode j) w2 = .ok j := by
  have := code_lt_order o
  simp only [List.forall_mem_cons]
  refine ⟨?_, ?_, ?_, ?_, ?_, List.forall_mem_nil _⟩
  all_goals
    apply decode_encode_of
    intro w hw
    delta encode at hw
    simp only [Nat.add_assoc, TileSel.code] at hw
    rw [decode_eq_decodeOp hw rfl (by omega)]
    have h6 : bits w 6 1 = 1 := by simp only [bits]; omega
    have h10 : bits w 10 5 = 0 := by simp only [bits]; omega
    simp only [decodeOp, Nat.reduceDiv, Nat.reduceMod, decodeRow6]
    simp only [decodeGdrain, decodeGfrz, decodeGload, decodeGrun, decodeGsplice, h6, h10, orderOf_eq_iff, if_true, check_eq_ok, Except.ok.injEq,
      Instr.gdrain.injEq, Instr.gfrz.injEq, Instr.gload.injEq, Instr.grun.injEq, Instr.gsplice.injEq, regOf_eq_iff]
    simp only [bits, true_and]
    and_intros <;> omega

theorem decode_encode_one_tile (a b : Reg) (o : Order) (w2 : Nat) :
    ∀ j ∈ [Instr.gload a (.one b) o, .gsplice a (.one b) o,
    .grun (.one b) o, .gfrz (.one b) o, .gdrain (.one b) o], decode (encode j) w2 = .ok j := by
  have := code_lt_order o
  simp only [List.forall_mem_cons]
  refine ⟨?_, ?_, ?_, ?_, ?_, List.forall_mem_nil _⟩
  all_goals
    apply decode_encode_of
    intro w hw
    delta encode at hw
    simp only [Nat.add_assoc, TileSel.code] at hw
    rw [decode_eq_decodeOp hw rfl (by omega)]
    have h6 : bits w 6 1 = 0 := by simp only [bits]; omega
    simp only [decodeOp, Nat.reduceDiv, Nat.reduceMod, decodeRow6]
    simp only [decodeGdrain, decodeGfrz, decodeGload, decodeGrun, decodeGsplice, h6, orderOf_eq_iff, zero_ne_one, if_false, false_and,
      TileSel.one.injEq, check_eq_ok, Except.ok.injEq, Instr.gdrain.injEq, Instr.gfrz.injEq, Instr.gload.injEq, Instr.grun.injEq,
      Instr.gsplice.injEq, regOf_eq_iff]
    simp only [bits, or_false]
    and_intros <;> omega

theorem decode_encode_li (d : Reg) (v : BitVec 52) (w2 : Nat) (h : w2 = v.toNat % 2 ^ 32) :
    decode (encode (Instr.li d v)) w2 = .ok (Instr.li d v) := by
  apply decode_encode_of
  intro w hw
  delta encode at hw
  simp only [Nat.add_assoc] at hw
  rw [decode_eq_decodeOp hw rfl (by omega)]
  simp only [decodeOp, Nat.reduceDiv, Nat.reduceMod, decodeRow2]
  simp only [decodeLi, bitVec_ofNat_eq_iff, Except.ok.injEq, Instr.li.injEq, regOf_eq_iff]
  simp only [bits]
  and_intros <;> omega

/-- Rows that are their opcode alone. -/
theorem decode_encode_bare (w2 : Nat) : ∀ j ∈ [Instr.nop, .ret, .yield, .sleep, .tdone, .eret, .halt], decode (encode j) w2 = .ok j := by
  simp only [List.forall_mem_cons]
  exact ⟨rfl, rfl, rfl, rfl, rfl, rfl, rfl, List.forall_mem_nil _⟩

/-- Settles O54: each control-processor row by the group of its operands; no other row has a word. -/
theorem encodedInstructionsDecode : Obligations.EncodedInstructionsDecode := by
  unfold Obligations.EncodedInstructionsDecode
  intro i hwf hne
  cases i
  case nop | ret | yield | sleep | tdone | eret | halt => exact decode_encode_bare _ _ (by simp only [List.mem_cons, true_or, or_true])
  case add d a b | sub d a b | mul d a b | and d a b | or d a b | xor d a b | shl d a b | shr d a b | sra d a b =>
    exact decode_encode_registers a b d _ _ (by simp only [List.mem_cons, true_or, or_true])
  case clz d a | ctz d a | popc d a | enrd d a => exact decode_encode_registers a 0 d _ _ (by simp only [List.mem_cons, true_or, or_true])
  case callr a | jmpr a | strhlt a | wake a => exact decode_encode_registers_control a 0 0 _ _ (by simp only [List.mem_cons, true_or, or_true])
  case strgo a b | tlbi a b => exact decode_encode_registers_control a b 0 _ _ (by simp only [List.mem_cons, true_or, or_true])
  case ginst d a b => exact decode_encode_registers_control a b d _ _ (by simp only [List.mem_cons, true_or, or_true])
  case tstat d a => exact decode_encode_registers_control a 0 d _ _ (by simp only [List.mem_cons, true_or, or_true])
  case addi d a i | andi d a i | ori d a i | xori d a i =>
    exact decode_encode_numbers a 0 d i 0 0 0 _ _ (by simp only [List.mem_cons, true_or, or_true])
  case shli d a n | shri d a n | srai d a n => exact decode_encode_numbers a 0 d 0 n 0 0 _ _ (by simp only [List.mem_cons, true_or, or_true])
  case sel d a b p => exact decode_encode_numbers a b d 0 0 p 0 _ _ (by simp only [List.mem_cons, true_or, or_true])
  case lis d i => exact decode_encode_numbers 0 0 d i 0 0 0 _ _ (by simp only [List.mem_cons, true_or, or_true])
  case widf d m => exact decode_encode_numbers 0 0 d 0 0 0 m _ _ (by simp only [List.mem_cons, true_or, or_true])
  case b t | call t => exact decode_encode_masks t 0 0 _ _ (by simp only [List.mem_cons, true_or, or_true])
  case waitk k | svc k | trap k | brk k => exact decode_encode_masks 0 k 0 _ _ (by simp only [List.mem_cons, true_or, or_true])
  case sbwait m => exact decode_encode_masks 0 0 m _ _ (by simp only [List.mem_cons, true_or, or_true])
  case mulh d a b u | div d a b u | rem d a b u | min d a b u | max d a b u =>
    exact decode_encode_flags a b d u 0 0 _ _ (by simp only [List.mem_cons, true_or, or_true])
  case bc p u t => exact decode_encode_flags 0 0 0 u p t _ _ (by simp only [List.mem_cons, true_or, or_true])
  case tlook d a b o | tins d a b o | tevict d a b o | tsb d a b o =>
    exact decode_encode_window a b d o _ _ (by simp only [List.mem_cons, true_or, or_true])
  case bari a b o | barw a b o | send a b o => exact decode_encode_window a b 0 o _ _ (by simp only [List.mem_cons, true_or, or_true])
  case bara d a o | xlt d a o => exact decode_encode_window a 0 d o _ _ (by simp only [List.mem_cons, true_or, or_true])
  case lrel a o => exact decode_encode_window a 0 0 o _ _ (by simp only [List.mem_cons, true_or, or_true])
  case halloc d a b o => exact decode_encode_engine a b d o 0 0 0 _ _ (by simp only [List.mem_cons, true_or])
  case hfree h o => exact decode_encode_engine 0 0 0 o h 0 0 _ _ (by simp only [List.mem_cons, true_or, or_true])
  case hstat d h o => exact decode_encode_engine 0 0 d o h 0 0 _ _ (by simp only [List.mem_cons, true_or, or_true])
  case cpy a o | cpyc a o => exact decode_encode_engine a 0 0 o 0 0 0 _ _ (by simp only [List.mem_cons, true_or, or_true])
  case cpyt a q o | cpyq a q o => exact decode_encode_engine a 0 0 o 0 q 0 _ _ (by simp only [List.mem_cons, true_or, or_true])
  case scfg a e o | swin a e o => exact decode_encode_engine a 0 0 o 0 0 e _ _ (by simp only [List.mem_cons, true_or, or_true])
  case sgo e o | shalt e o => exact decode_encode_engine 0 0 0 o 0 0 e _ _ (by simp only [List.mem_cons, true_or, or_true])
  case sstat d e o => exact decode_encode_engine 0 0 d o 0 0 e _ _ (by simp only [List.mem_cons, true_or, or_true])
  case gcommit o | mxrot o => exact decode_encode_grid 0 0 0 o 0 _ _ (by simp only [List.mem_cons, true_or, or_true])
  case gsend a b n o => exact decode_encode_grid a b 0 o n _ _ (by simp only [List.mem_cons, true_or, or_true])
  case gconst a b o => exact decode_encode_grid a b 0 o 0 _ _ (by simp only [List.mem_cons, true_or, or_true])
  case gstat d b o => exact decode_encode_grid 0 b d o 0 _ _ (by simp only [List.mem_cons, true_or, or_true])
  case mxcfg a o | mxldb a o | mxzero a o | tsig a o => exact decode_encode_grid a 0 0 o 0 _ _ (by simp only [List.mem_cons, true_or, or_true])
  case mxchk d o => exact decode_encode_grid 0 0 d o 0 _ _ (by simp only [List.mem_cons, true_or, or_true])
  case pref a e o | cflush a e o | cinv a e o =>
    exact decode_encode_order_flags a 0 0 o false 0 e _ _ (by simp only [List.mem_cons, true_or, or_true])
  case eqput d a b u o => exact decode_encode_order_flags a b d o u 0 0 _ _ (by simp only [List.mem_cons, true_or, or_true])
  case grecv d u n o => exact decode_encode_order_flags 0 0 d o u n 0 _ _ (by simp only [List.mem_cons, true_or, or_true])
  case mxrd a b u o => exact decode_encode_order_flags a b 0 o u 0 0 _ _ (by simp only [List.mem_cons, true_or, or_true])
  case ldl d a z e o | ldg d a z e o => exact decode_encode_plain_loads d a z e o _ _ (by simp only [List.mem_cons, true_or, or_true])
  case stl d a z e o | stg d a z e o => exact decode_encode_plain_stores d a z e o _ _ (by simp only [List.mem_cons, true_or, or_true])
  case lda d a q c z o => exact decode_encode_lda d a q c z o _ hwf
  case strl d a q c z o => exact decode_encode_strl d a q c z o _ hwf
  case amo d a q c u f o => exact decode_encode_amo d a q c u f o _
  case amol d a q c u f o => exact decode_encode_amol d a q c u f o _ hwf
  case cas d a q c u o => exact decode_encode_cas d a q c u o _ fun h => bne_iff_ne.1 hwf (Fin.ext h)
  case fence q c o => exact decode_encode_fence q c o _ hwf
  case cmpi p a c u i => exact decode_encode_cmpi p a c u i _
  case cmp p a b c u => exact decode_encode_cmp p a b c u _
  case sext d a z => exact decode_encode_sext d a z _ (bne_iff_ne.1 hwf)
  case plog d a b q =>
    refine decode_encode_plog d a b q _ fun ⟨hq, hb⟩ => ?_
    rcases Bool.or_eq_true_iff.1 hwf with h | h
    · exact bne_iff_ne.1 h hq
    · exact hb (congrArg Fin.val (beq_iff_eq.1 h))
  case hset h t o | hwait h t o => exact decode_encode_handle_states h t o _ _ (by simp only [List.mem_cons, true_or, or_true])
  case srd d r | swr d r => exact decode_encode_system_registers d r _ _ (by simp only [List.mem_cons, true_or, or_true])
  case bfx d a u p l => exact decode_encode_bit_fields d a u p l _ (of_decide_eq_true hwf) _ (by simp only [List.mem_cons, true_or])
  case bfi d a p l => exact decode_encode_bit_fields d a false p l _ (of_decide_eq_true hwf) _ (by simp only [List.mem_cons, true_or, or_true])
  case tfail c =>
    obtain ⟨h0, hle⟩ := Bool.and_eq_true_iff.1 hwf
    exact decode_encode_tfail c _ (fun h => bne_iff_ne.1 h0 (BitVec.eq_of_toNat_eq h)) (of_decide_eq_true hle)
  case eqget d a b k o =>
    refine decode_encode_eqget d a b k o _ fun ⟨hdb, hd⟩ => ?_
    rcases Bool.or_eq_true_iff.1 hwf with h | h
    · exact bne_iff_ne.1 h (Fin.ext hdb)
    · exact hd (congrArg Fin.val (beq_iff_eq.1 h))
  case mov d a => exact decode_encode_mov d a _
  case movChannel d k => exact decode_encode_movChannel d k _
  case pmovToRegister d => exact decode_encode_pmovToRegister d _
  case pmovToPredicates a => exact decode_encode_pmovToPredicates a _
  case li d v => exact decode_encode_li d v _ rfl
  case gload a t o | gsplice a t o =>
    cases t with
    | all => exact decode_encode_all_tiles a o _ _ (by simp only [List.mem_cons, true_or, or_true])
    | one b => exact decode_encode_one_tile a b o _ _ (by simp only [List.mem_cons, true_or, or_true])
  case grun t o | gfrz t o | gdrain t o =>
    cases t with
    | all => exact decode_encode_all_tiles 0 o _ _ (by simp only [List.mem_cons, true_or, or_true])
    | one b => exact decode_encode_one_tile 0 b o _ _ (by simp only [List.mem_cons, true_or, or_true])
  all_goals exact absurd rfl hne

/-! ### What decodes is encoded -/

/-- The sum of the fields of `w` below `top` whose lowest bits are listed. -/
def fieldSum (w : Nat) : Nat → List Nat → Nat
  | top, [] => w % 2 ^ top
  | top, lo :: los => bits w lo (top - lo) * 2 ^ lo + fieldSum w lo los

/-- A word is the sum of the fields of any layout. -/
theorem fieldSum_eq (w : Nat) : ∀ (top : Nat) (los : List Nat), (top :: los).Pairwise (· > ·) → fieldSum w top los = w % 2 ^ top
  | _, [], _ => rfl
  | top, lo :: los, h => by
    obtain ⟨hlt, htail⟩ := List.pairwise_cons.1 h
    have hlo : lo < top := hlt lo List.mem_cons_self
    rw [fieldSum, fieldSum_eq w lo los htail, mod_eq_bits_add w lo (top - lo) top (by omega)]

/-- A suffix that passes its check (14 R217). -/
theorem suffix_ok {b : Bool} (h : ¬(!b) = true) : b = true := by simpa using h

theorem eq_fieldSum {w : Nat} (hw : w < 2 ^ 32) (los : List Nat) (h : (32 :: los).Pairwise (· > ·)) : w = fieldSum w 32 los :=
  (Nat.mod_eq_of_lt hw).symm.trans (fieldSum_eq w 32 los h).symm

theorem encode_of_decodeSext {w : Nat} {i : Instr} (hw : w < 2 ^ 32) (hop : bits w 25 7 = 31) (h : decodeSext w = .ok i) :
    encode i = w ∧ wellFormed i = true := by
  have hl := eq_fieldSum hw [25, 20, 15, 8, 6, 0] (by decide)
  unfold decodeSext at h
  repeat' split at h
  all_goals cases h
  rename_i hz _
  refine ⟨?_, bne_iff_ne.2 hz⟩
  delta encode
  simp only [fieldSum, Nat.reduceSub] at hl
  simp only [Size.ofCode_eq_some, regOf_val, bits_zero_eq_mod] at *

  omega

theorem encode_of_decodePlog {w : Nat} {i : Instr} (hw : w < 2 ^ 32) (hop : bits w 25 7 = 36) (h : decodePlog w = .ok i) :
    encode i = w ∧ wellFormed i = true := by
  have hl := eq_fieldSum hw [25, 23, 20, 18, 15, 13, 10, 6, 0] (by decide)
  unfold decodePlog at h
  repeat' split at h
  all_goals cases h
  rename_i q _ hq _
  have hwf : (q != .not || Fin.ofNat 8 (w / 1024) == 0) = true := by
    simp only [Bool.or_eq_true, bne_iff_ne, beq_iff_eq, fin_ofNat_eq_iff]
    exact or_iff_not_imp_left.2 fun hn => not_not.1 fun hb => hq ⟨not_not.1 hn, hb⟩
  refine ⟨?_, hwf⟩
  delta encode
  simp only [fieldSum, Nat.reduceSub] at hl
  simp only [PredOp.ofCode_eq_some, Fin.val_ofNat, number_fields,
    bits_zero_eq_mod] at *
  omega

theorem encode_of_decodeLda {w : Nat} {i : Instr} (hw : w < 2 ^ 32) (hop : bits w 25 7 = 52) (h : decodeLda w = .ok i) :
    encode i = w ∧ wellFormed i = true := by
  have hl := eq_fieldSum hw [25, 20, 15, 12, 10, 8, 6, 0] (by decide)
  unfold decodeLda at h
  repeat' split at h
  all_goals cases h
  rename_i hq
  refine ⟨?_, suffix_ok hq⟩
  delta encode
  simp only [fieldSum, Nat.reduceSub] at hl
  simp only [Ord.ofCode_eq_some, Scp.ofCode_eq_some, Size.ofCode_eq_some, regOf_val,
    orderOf_code, bits_zero_eq_mod] at *
  omega

theorem encode_of_decodeStrl {w : Nat} {i : Instr} (hw : w < 2 ^ 32) (hop : bits w 25 7 = 53) (h : decodeStrl w = .ok i) :
    encode i = w ∧ wellFormed i = true := by
  have hl := eq_fieldSum hw [25, 20, 15, 12, 10, 8, 6, 0] (by decide)
  unfold decodeStrl at h
  repeat' split at h
  all_goals cases h
  rename_i hq
  refine ⟨?_, suffix_ok hq⟩
  delta encode
  simp only [fieldSum, Nat.reduceSub] at hl
  simp only [Ord.ofCode_eq_some, Scp.ofCode_eq_some, Size.ofCode_eq_some, regOf_val,
    orderOf_code, bits_zero_eq_mod] at *
  omega

theorem encode_of_decodeAmol {w : Nat} {i : Instr} (hw : w < 2 ^ 32) (hop : bits w 25 7 = 56) (h : decodeAmol w = .ok i) :
    encode i = w ∧ wellFormed i = true := by
  have hl := eq_fieldSum hw [25, 20, 15, 12, 10, 9, 6, 0] (by decide)
  unfold decodeAmol at h
  repeat' split at h
  all_goals cases h
  rename_i hq
  refine ⟨?_, suffix_ok hq⟩
  delta encode
  simp only [fieldSum, Nat.reduceSub] at hl
  simp only [Ord.ofCode_eq_some, Scp.ofCode_eq_some, AtomicOp.ofCode_eq_some, regOf_val, flagCode_flagOf,
    orderOf_code, bits_zero_eq_mod] at *
  omega

theorem encode_of_decodeCas {w : Nat} {i : Instr} (hw : w < 2 ^ 32) (hop : bits w 25 7 = 55) (h : decodeCas w = .ok i) :
    encode i = w ∧ wellFormed i = true := by
  have hl := eq_fieldSum hw [25, 20, 15, 12, 10, 9, 6, 0] (by decide)
  unfold decodeCas at h
  repeat' split at h
  all_goals cases h
  rename_i hc _ _ _ _ _ _
  refine ⟨?_, bne_iff_ne.2 (mt regOf_eq_iff.1 (not_or.1 hc).2)⟩
  delta encode
  simp only [fieldSum, Nat.reduceSub] at hl
  simp only [Ord.ofCode_eq_some, Scp.ofCode_eq_some, regOf_val, flagCode_flagOf, orderOf_code,
    bits_zero_eq_mod] at *
  omega

theorem encode_of_decodeFence {w : Nat} {i : Instr} (hw : w < 2 ^ 32) (hop : bits w 25 7 = 57) (h : decodeFence w = .ok i) :
    encode i = w ∧ wellFormed i = true := by
  have hl := eq_fieldSum hw [25, 15, 12, 10, 6, 0] (by decide)
  unfold decodeFence at h
  repeat' split at h
  all_goals cases h
  rename_i hq
  refine ⟨?_, suffix_ok hq⟩
  delta encode
  simp only [fieldSum, Nat.reduceSub] at hl
  simp only [Ord.ofCode_eq_some, Scp.ofCode_eq_some, orderOf_code,
    bits_zero_eq_mod] at *
  omega

theorem encode_of_decodeBfx {w : Nat} {i : Instr} (hw : w < 2 ^ 32) (hop : bits w 25 7 = 29) (h : decodeBfx w = .ok i) :
    encode i = w ∧ wellFormed i = true := by
  have hl := eq_fieldSum hw [25, 20, 15, 13, 12, 6, 0] (by decide)
  unfold decodeBfx at h
  repeat' split at h
  all_goals cases h
  rename_i hc
  have hwf : fieldOk (Fin.ofNat 64 (w / 64)) (Fin.ofNat 64 (w / 1)) = true := by
    simp only [fieldOk, Fin.val_ofNat, decide_eq_true_eq]
    simp only [bits] at hc
    omega
  refine ⟨?_, hwf⟩
  delta encode
  simp only [fieldSum, Nat.reduceSub] at hl
  simp only [regOf_val, Fin.val_ofNat, flagCode_flagOf, number_fields, bits_zero_eq_mod, Nat.div_one] at *
  omega

theorem encode_of_decodeBfi {w : Nat} {i : Instr} (hw : w < 2 ^ 32) (hop : bits w 25 7 = 30) (h : decodeBfi w = .ok i) :
    encode i = w ∧ wellFormed i = true := by
  have hl := eq_fieldSum hw [25, 20, 15, 12, 6, 0] (by decide)
  unfold decodeBfi at h
  repeat' split at h
  all_goals cases h
  rename_i hc
  have hwf : fieldOk (Fin.ofNat 64 (w / 64)) (Fin.ofNat 64 (w / 1)) = true := by
    simp only [fieldOk, Fin.val_ofNat, decide_eq_true_eq]
    simp only [bits] at hc
    omega
  refine ⟨?_, hwf⟩
  delta encode
  simp only [fieldSum, Nat.reduceSub] at hl
  simp only [regOf_val, Fin.val_ofNat, number_fields, bits_zero_eq_mod, Nat.div_one] at *
  omega

theorem encode_of_decodeEqget {w : Nat} {i : Instr} (hw : w < 2 ^ 32) (hop : bits w 25 7 = 73) (h : decodeEqget w = .ok i) :
    encode i = w ∧ wellFormed i = true := by
  have hl := eq_fieldSum hw [25, 20, 15, 10, 7, 6, 0] (by decide)
  unfold decodeEqget at h
  repeat' split at h
  all_goals cases h
  rename_i hc
  have hwf : (regOf w 20 != regOf w 10 || regOf w 20 == 0) = true := by
    simp only [Bool.or_eq_true, bne_iff_ne, beq_iff_eq, ne_eq, regOf_eq_iff, regOf_val]
    omega
  refine ⟨?_, hwf⟩
  delta encode
  simp only [fieldSum, Nat.reduceSub] at hl
  simp only [regOf_val, flagCode_flagOf, orderOf_code, bits_zero_eq_mod] at *
  omega

theorem encode_of_decodeTfail {w : Nat} {i : Instr} (hw : w < 2 ^ 32) (hop : bits w 25 7 = 118) (h : decodeTfail w = .ok i) :
    encode i = w ∧ wellFormed i = true := by
  have hl := eq_fieldSum hw [25, 8, 0] (by decide)
  unfold decodeTfail at h
  repeat' split at h
  all_goals cases h
  rename_i hc
  have hwf : (BitVec.ofNat 8 (w / 1) != 0 && decide ((BitVec.ofNat 8 (w / 1)).toNat ≤ 0x13)) = true := by
    simp only [Bool.and_eq_true, bne_iff_ne, ne_eq, bitVec_ofNat_eq_iff, decide_eq_true_eq, BitVec.toNat_ofNat]
    simp only [bits] at hc
    exact ⟨fun h0 => hc (.inr (.inl h0)), by omega⟩
  refine ⟨?_, hwf⟩
  delta encode
  simp only [fieldSum, Nat.reduceSub] at hl
  simp only [BitVec.toNat_ofNat, bits_zero_eq_mod, Nat.div_one] at *
  omega

theorem encode_of_decodeMov {w : Nat} {i : Instr} (hw : w < 2 ^ 32) (hop : bits w 25 7 = 32) (h : decodeMov w = .ok i) :
    encode i = w ∧ wellFormed i = true := by
  have hl := eq_fieldSum hw [25, 20, 15, 6, 0] (by decide)
  unfold decodeMov at h
  repeat' split at h
  all_goals cases h
  refine ⟨?_, rfl⟩
  delta encode
  simp only [fieldSum, Nat.reduceSub] at hl
  simp only [regOf_val, bits_zero_eq_mod] at *
  omega

theorem encode_of_decodeMovChannel {w : Nat} {i : Instr} (hw : w < 2 ^ 32) (hop : bits w 25 7 = 32) (h : decodeMovChannel w = .ok i) :
    encode i = w ∧ wellFormed i = true := by
  have hl := eq_fieldSum hw [25, 20, 18, 15, 6, 0] (by decide)
  unfold decodeMovChannel at h
  repeat' split at h
  all_goals cases h
  refine ⟨?_, rfl⟩
  delta encode
  simp only [fieldSum, Nat.reduceSub] at hl
  simp only [regOf_val, Fin.val_ofNat, number_fields, bits_zero_eq_mod] at *
  omega

theorem encode_of_decodePmovToRegister {w : Nat} {i : Instr} (hw : w < 2 ^ 32) (hop : bits w 25 7 = 37) (h : decodePmovToRegister w = .ok i) :
    encode i = w ∧ wellFormed i = true := by
  have hl := eq_fieldSum hw [25, 20, 6, 0] (by decide)
  unfold decodePmovToRegister at h
  repeat' split at h
  all_goals cases h
  refine ⟨?_, rfl⟩
  delta encode
  simp only [fieldSum, Nat.reduceSub] at hl
  simp only [regOf_val, bits_zero_eq_mod] at *
  omega

theorem encode_of_decodePmovToPredicates {w : Nat} {i : Instr} (hw : w < 2 ^ 32) (hop : bits w 25 7 = 37) (h : decodePmovToPredicates w = .ok i) :
    encode i = w ∧ wellFormed i = true := by
  have hl := eq_fieldSum hw [25, 20, 15, 6, 0] (by decide)
  unfold decodePmovToPredicates at h
  repeat' split at h
  all_goals cases h
  refine ⟨?_, rfl⟩
  delta encode
  simp only [fieldSum, Nat.reduceSub] at hl
  simp only [regOf_val, bits_zero_eq_mod] at *
  omega

theorem encode_of_decodeMovForms {w : Nat} {i : Instr} (hw : w < 2 ^ 32) (hop : bits w 25 7 = 32) (h : decodeMovForms w = .ok i) :
    encode i = w ∧ wellFormed i = true := by
  unfold decodeMovForms at h
  split at h
  · exact encode_of_decodeMovChannel hw hop h
  · exact encode_of_decodeMov hw hop h

theorem encode_of_decodePmovForms {w : Nat} {i : Instr} (hw : w < 2 ^ 32) (hop : bits w 25 7 = 37) (h : decodePmovForms w = .ok i) :
    encode i = w ∧ wellFormed i = true := by
  unfold decodePmovForms at h
  split at h
  · exact encode_of_decodePmovToPredicates hw hop h
  · exact encode_of_decodePmovToRegister hw hop h

theorem encode_of_decodeLi {w w2 : Nat} {i : Instr} (hw : w < 2 ^ 32) (hop : bits w 25 7 = 34) (h : decodeLi w w2 = .ok i) :
    encode i = w ∧ wellFormed i = true := by
  have hl := eq_fieldSum hw [25, 20, 0] (by decide)
  cases h
  refine ⟨?_, rfl⟩
  delta encode
  simp only [fieldSum, Nat.reduceSub, bits_zero_eq_mod] at hl
  simp only [regOf_val, BitVec.toNat_ofNat]
  omega

theorem encode_of_decodeRow0 {w : Nat} {i : Instr} (hw : w < 2 ^ 32) (h : decodeRow0 (bits w 25 7) w = .ok i) :
    encode i = w ∧ wellFormed i = true := by
  unfold decodeRow0 at h
  split at h
  case h_16 => cases h
  case' h_1 hop => have hl := eq_fieldSum hw [25, 6, 0] (by decide)
  case' h_2 hop | h_3 hop | h_4 hop | h_8 hop | h_9 hop | h_10 hop | h_11 hop | h_12 hop | h_13 hop =>
    have hl := eq_fieldSum hw [25, 20, 15, 10, 6, 0] (by decide)
  case' h_5 hop | h_6 hop | h_7 hop | h_14 hop | h_15 hop => have hl := eq_fieldSum hw [25, 20, 15, 10, 7, 6, 0] (by decide)
  all_goals
    simp only [decodeNop, decodeAdd, decodeSub, decodeMul, decodeMulh, decodeDiv, decodeRem, decodeAnd, decodeOr, decodeXor, decodeShl,
      decodeShr, decodeSra, decodeMin, decodeMax] at h
    repeat' split at h
    all_goals cases h
    all_goals
      refine ⟨?_, rfl⟩
      delta encode
      simp only [fieldSum, Nat.reduceSub] at hl
      simp only [regOf_val, flagCode_flagOf, bits_zero_eq_mod] at *
      omega

theorem encode_of_decodeRow1 {w : Nat} {i : Instr} (hw : w < 2 ^ 32) (h : decodeRow1 (bits w 25 7) w = .ok i) :
    encode i = w ∧ wellFormed i = true := by
  unfold decodeRow1 at h
  split at h
  case h_14 hop => exact encode_of_decodeBfx hw hop h
  case h_15 hop => exact encode_of_decodeBfi hw hop h
  case h_16 hop => exact encode_of_decodeSext hw hop h
  case h_17 => cases h
  case' h_1 hop | h_2 hop | h_3 hop | h_4 hop => have hl := eq_fieldSum hw [25, 20, 15, 0] (by decide)
  case' h_5 hop | h_6 hop | h_7 hop | h_11 hop | h_12 hop | h_13 hop => have hl := eq_fieldSum hw [25, 20, 15, 6, 0] (by decide)
  case' h_8 hop => have hl := eq_fieldSum hw [25, 23, 20, 15, 12, 11, 0] (by decide)
  case' h_9 hop => have hl := eq_fieldSum hw [25, 23, 20, 15, 10, 7, 6, 0] (by decide)
  case' h_10 hop => have hl := eq_fieldSum hw [25, 20, 15, 10, 9, 6, 0] (by decide)
  all_goals
    simp only [decodeAddi, decodeAndi, decodeOri, decodeXori, decodeShli, decodeShri, decodeSrai, decodeCmpi, decodeCmp, decodeSel, decodeClz,
      decodeCtz, decodePopc] at h
    repeat' split at h
    all_goals cases h
    all_goals
      refine ⟨?_, rfl⟩
      delta encode
      simp only [fieldSum, Nat.reduceSub] at hl
      simp only [Cond.ofCode_eq_some, regOf_val, Fin.val_ofNat, BitVec.toNat_ofNat, flagCode_flagOf, number_fields,
        bits_zero_eq_mod, Nat.div_one] at *
      omega

theorem encode_of_decodeRow2 {w w2 : Nat} {i : Instr} (hw : w < 2 ^ 32) (h : decodeRow2 (bits w 25 7) w w2 = .ok i) :
    encode i = w ∧ wellFormed i = true := by
  unfold decodeRow2 at h
  split at h
  case h_1 hop => exact encode_of_decodeMovForms hw hop h
  case h_3 hop => exact encode_of_decodeLi hw hop h
  case h_5 hop => exact encode_of_decodePlog hw hop h
  case h_6 hop => exact encode_of_decodePmovForms hw hop h
  case h_14 => cases h
  case' h_2 hop | h_4 hop => have hl := eq_fieldSum hw [25, 20, 15, 0] (by decide)
  case' h_7 hop | h_11 hop | h_13 hop => have hl := eq_fieldSum hw [25, 20, 15, 6, 0] (by decide)
  case' h_8 hop | h_10 hop => have hl := eq_fieldSum hw [25, 21, 0] (by decide)
  case' h_9 hop => have hl := eq_fieldSum hw [25, 22, 21, 0] (by decide)
  case' h_12 hop => have hl := eq_fieldSum hw [25, 6, 0] (by decide)
  all_goals
    simp only [decodeLis, decodeWidf, decodeEnrd, decodeB, decodeBc, decodeCall, decodeCallr, decodeRet, decodeJmpr] at h
    repeat' split at h
    all_goals cases h
    all_goals
      refine ⟨?_, rfl⟩
      delta encode
      simp only [fieldSum, Nat.reduceSub] at hl
      simp only [regOf_val, Fin.val_ofNat, BitVec.toNat_ofNat, flagCode_flagOf, number_fields, bits_zero_eq_mod, Nat.div_one] at *
      omega

theorem encode_of_decodeRow3 {w : Nat} {i : Instr} (hw : w < 2 ^ 32) (h : decodeRow3 (bits w 25 7) w = .ok i) :
    encode i = w ∧ wellFormed i = true := by
  unfold decodeRow3 at h
  split at h
  case h_5 hop => exact encode_of_decodeLda hw hop h
  case h_6 hop => exact encode_of_decodeStrl hw hop h
  case h_8 hop => exact encode_of_decodeCas hw hop h
  case h_9 hop => exact encode_of_decodeAmol hw hop h
  case h_10 hop => exact encode_of_decodeFence hw hop h
  case h_14 => cases h
  case' h_1 hop | h_3 hop => have hl := eq_fieldSum hw [25, 20, 15, 12, 6, 0] (by decide)
  case' h_2 hop | h_4 hop => have hl := eq_fieldSum hw [25, 20, 15, 14, 12, 6, 0] (by decide)
  case' h_7 hop => have hl := eq_fieldSum hw [25, 20, 15, 12, 10, 9, 6, 0] (by decide)
  case' h_11 hop | h_12 hop | h_13 hop => have hl := eq_fieldSum hw [25, 20, 15, 6, 0] (by decide)
  all_goals
    simp only [decodeLdl, decodeStl, decodeLdg, decodeStg, decodeAmo, decodePref, decodeCflush, decodeCinv] at h
    repeat' split at h
    all_goals cases h
    all_goals
      refine ⟨?_, rfl⟩
      delta encode
      simp only [fieldSum, Nat.reduceSub] at hl
      simp only [Ord.ofCode_eq_some, Scp.ofCode_eq_some, LoadSize.ofCode_eq_some, Size.ofCode_eq_some, AtomicOp.ofCode_eq_some, regOf_val,
        BitVec.toNat_ofNat, flagCode_flagOf, orderOf_code, number_fields, bits_zero_eq_mod] at *
      omega

theorem encode_of_decodeRow4 {w : Nat} {i : Instr} (hw : w < 2 ^ 32) (h : decodeRow4 (bits w 25 7) w = .ok i) :
    encode i = w ∧ wellFormed i = true := by
  unfold decodeRow4 at h
  split at h
  case h_10 hop => exact encode_of_decodeEqget hw hop h
  case h_15 => cases h
  case' h_1 hop | h_2 hop | h_3 hop | h_4 hop | h_6 hop | h_7 hop | h_11 hop => have hl := eq_fieldSum hw [25, 20, 15, 10, 6, 0] (by decide)
  case' h_5 hop | h_8 hop => have hl := eq_fieldSum hw [25, 20, 15, 6, 0] (by decide)
  case' h_9 hop => have hl := eq_fieldSum hw [25, 20, 15, 10, 7, 6, 0] (by decide)
  case' h_12 hop => have hl := eq_fieldSum hw [25, 8, 0] (by decide)
  case' h_13 hop => have hl := eq_fieldSum hw [25, 8, 1, 0] (by decide)
  case' h_14 hop => have hl := eq_fieldSum hw [25, 0] (by decide)
  all_goals
    simp only [decodeTlook, decodeTins, decodeTevict, decodeBari, decodeBara, decodeBarw, decodeTsb, decodeLrel, decodeEqput, decodeSend,
      decodeWaitk, decodeSbwait, decodeYield] at h
    repeat' split at h
    all_goals cases h
    all_goals
      refine ⟨?_, rfl⟩
      delta encode
      simp only [fieldSum, Nat.reduceSub] at hl
      simp only [regOf_val, BitVec.toNat_ofNat, flagCode_flagOf, orderOf_code, number_fields, bits_zero_eq_mod, Nat.div_one] at *
      omega

theorem encode_of_decodeRow5 {w : Nat} {i : Instr} (hw : w < 2 ^ 32) (h : decodeRow5 (bits w 25 7) w = .ok i) :
    encode i = w ∧ wellFormed i = true := by
  unfold decodeRow5 at h
  split at h
  case h_17 => cases h
  case' h_1 hop | h_5 hop => have hl := eq_fieldSum hw [25, 20, 15, 10, 6, 0] (by decide)
  case' h_2 hop | h_4 hop | h_10 hop | h_13 hop => have hl := eq_fieldSum hw [25, 20, 15, 6, 0] (by decide)
  case' h_3 hop => have hl := eq_fieldSum hw [25, 6, 0] (by decide)
  case' h_6 hop | h_7 hop | h_8 hop => have hl := eq_fieldSum hw [25, 15, 8, 6, 0] (by decide)
  case' h_9 hop => have hl := eq_fieldSum hw [25, 20, 15, 8, 6, 0] (by decide)
  case' h_11 hop | h_12 hop => have hl := eq_fieldSum hw [25, 20, 15, 9, 6, 0] (by decide)
  case' h_14 hop | h_15 hop => have hl := eq_fieldSum hw [25, 20, 15, 13, 10, 6, 0] (by decide)
  case' h_16 hop => have hl := eq_fieldSum hw [25, 13, 10, 6, 0] (by decide)
  all_goals
    simp only [decodeStrgo, decodeStrhlt, decodeSleep, decodeWake, decodeHalloc, decodeHfree, decodeHset, decodeHwait, decodeHstat, decodeCpy,
      decodeCpyt, decodeCpyq, decodeCpyc, decodeScfg, decodeSwin, decodeSgo] at h
    repeat' split at h
    all_goals cases h
    all_goals
      refine ⟨?_, rfl⟩
      delta encode
      simp only [fieldSum, Nat.reduceSub] at hl
      simp only [HState.ofCode_eq_some, regOf_val, Fin.val_ofNat, orderOf_code, number_fields,
        bits_zero_eq_mod] at *
      omega

theorem encode_of_decodeRow6 {w : Nat} {i : Instr} (hw : w < 2 ^ 32) (h : decodeRow6 (bits w 25 7) w = .ok i) :
    encode i = w ∧ wellFormed i = true := by
  unfold decodeRow6 at h
  split at h
  case h_17 => cases h
  case' h_1 hop => have hl := eq_fieldSum hw [25, 13, 10, 6, 0] (by decide)
  case' h_2 hop => have hl := eq_fieldSum hw [25, 20, 13, 10, 6, 0] (by decide)
  case' h_3 hop | h_5 hop => have hl := eq_fieldSum hw [25, 20, 15, 10, 7, 6, 0] (by decide)
  case' h_4 hop | h_15 hop => have hl := eq_fieldSum hw [25, 6, 0] (by decide)
  case' h_6 hop | h_7 hop | h_8 hop => have hl := eq_fieldSum hw [25, 15, 10, 7, 6, 0] (by decide)
  case' h_9 hop => have hl := eq_fieldSum hw [25, 20, 15, 10, 8, 6, 0] (by decide)
  case' h_10 hop => have hl := eq_fieldSum hw [25, 20, 9, 8, 6, 0] (by decide)
  case' h_11 hop | h_12 hop => have hl := eq_fieldSum hw [25, 20, 15, 10, 6, 0] (by decide)
  case' h_13 hop | h_14 hop | h_16 hop => have hl := eq_fieldSum hw [25, 20, 15, 6, 0] (by decide)
  all_goals
    simp only [decodeShalt, decodeSstat, decodeGload, decodeGcommit, decodeGsplice, decodeGrun, decodeGfrz, decodeGdrain, decodeGsend,
      decodeGrecv, decodeGconst, decodeGstat, decodeMxcfg, decodeMxldb, decodeMxrot, decodeMxzero] at h
    have h61 := bits_lt w 6 1
    repeat' split at h
    all_goals cases h
    all_goals
      refine ⟨?_, rfl⟩
      delta encode
      simp only [fieldSum, Nat.reduceSub] at hl
      simp only [TileSel.code, regOf_val, Fin.val_ofNat, flagCode_flagOf, orderOf_code, number_fields, bits_zero_eq_mod] at *

      omega

theorem encode_of_decodeRow7 {w : Nat} {i : Instr} (hw : w < 2 ^ 32) (h : decodeRow7 (bits w 25 7) w = .ok i) :
    encode i = w ∧ wellFormed i = true := by
  unfold decodeRow7 at h
  split at h
  case h_7 hop => exact encode_of_decodeTfail hw hop h
  case h_17 => cases h
  case' h_1 hop => have hl := eq_fieldSum hw [25, 20, 15, 10, 7, 6, 0] (by decide)
  case' h_2 hop => have hl := eq_fieldSum hw [25, 20, 6, 0] (by decide)
  case' h_3 hop | h_15 hop => have hl := eq_fieldSum hw [25, 6, 0] (by decide)
  case' h_4 hop | h_6 hop | h_8 hop => have hl := eq_fieldSum hw [25, 20, 15, 6, 0] (by decide)
  case' h_5 hop | h_9 hop => have hl := eq_fieldSum hw [25, 20, 15, 10, 6, 0] (by decide)
  case' h_10 hop | h_11 hop | h_16 hop => have hl := eq_fieldSum hw [25, 8, 0] (by decide)
  case' h_12 hop => have hl := eq_fieldSum hw [25, 0] (by decide)
  case' h_13 hop | h_14 hop => have hl := eq_fieldSum hw [25, 20, 15, 0] (by decide)
  all_goals
    simp only [decodeMxrd, decodeMxchk, decodeTdone, decodeTsig, decodeGinst, decodeTstat, decodeXlt, decodeTlbi, decodeSvc, decodeTrap,
      decodeEret, decodeSrd, decodeSwr, decodeHalt, decodeBrk] at h
    repeat' split at h
    all_goals cases h
    all_goals
      refine ⟨?_, rfl⟩
      delta encode
      simp only [fieldSum, Nat.reduceSub] at hl
      simp only [SysReg.ofCode_eq_some, regOf_val, BitVec.toNat_ofNat, flagCode_flagOf, orderOf_code,
        bits_zero_eq_mod, Nat.div_one] at *
      omega

theorem encode_of_decode {w w2 : Nat} {i : Instr} (hw : w < 2 ^ 32) (h : decode w w2 = .ok i) : encode i = w ∧ wellFormed i = true := by
  unfold decode at h
  dsimp only at h
  split at h
  · exact encode_of_decodeRow0 hw h
  · exact encode_of_decodeRow1 hw h
  · exact encode_of_decodeRow2 hw h
  · exact encode_of_decodeRow3 hw h
  · exact encode_of_decodeRow4 hw h
  · exact encode_of_decodeRow5 hw h
  · exact encode_of_decodeRow6 hw h
  · exact encode_of_decodeRow7 hw h

/-- An instruction of two words is LI. -/
theorem eq_li_of_length {i : Instr} (h : i.length = 8) : ∃ d v, i = .li d v := by
  unfold Instr.length at h
  split at h
  · exact ⟨_, _, rfl⟩
  · cases h

/-- Settles O55: row by row of the opcode table, then the second word, which only LI takes. -/
theorem everyWordHasOneMeaning : Obligations.EveryWordHasOneMeaning := by
  unfold Obligations.EveryWordHasOneMeaning
  intro w w2 i hw hw2 h
  obtain ⟨he, hwf⟩ := encode_of_decode hw h
  refine ⟨he, hwf, fun hlen => ?_⟩
  obtain ⟨d, v, rfl⟩ := eq_li_of_length hlen
  have hsum : 1140850688 + d.val * 1048576 + v.toNat / 2 ^ 32 = w := he
  have hop : bits w 25 7 = 34 := by
    simp only [bits]
    omega
  have hli : decode w w2 = decodeLi w w2 := by
    simp only [decode, hop, Nat.reduceDiv, decodeRow2]
  obtain ⟨-, rfl⟩ := Instr.li.inj (Except.ok.inj (hli.symm.trans h))
  show (BitVec.ofNat 52 (w % 2 ^ 20 * 2 ^ 32 + w2 % 2 ^ 32)).toNat % 2 ^ 32 = w2
  rw [BitVec.toNat_ofNat]
  omega

/-- Settles O58: each word through the decoder of its opcode. -/
theorem specWordsDecode : Obligations.SpecWordsDecode := by
  unfold Obligations.SpecWordsDecode
  exact ⟨rfl, rfl, rfl, rfl, rfl, rfl, rfl, rfl, rfl, rfl⟩

end Sys2Proof
end

section
/-! PROOFS. The register instructions (spec 04 R84; 14 R292, R296; 15 R321, R323, R336, R342, R343, R352; 17 R380 to R404; 18 R417 to R443): each is its
issue, and the value it writes is the operation of the operands. -/
namespace Sys2Proof.Machine

/-! ### Issue of a register instruction -/

theorem modMe_congr {s : State} {f g : Strand → Strand} (h : f s.me = g s.me) : s.modMe f = s.modMe g := by
  have h' : f (s.here.strand s.cur.strand) = g (s.here.strand s.cur.strand) := h
  unfold State.modMe State.modStrand State.modTile
  exact congrArg (s.setTile s.cur.die s.cur.site) (congrArg (s.here.setStrand s.cur.strand) h')

/-- An instruction that writes `g` of its strand to a register has a register result of which every property of that value holds. -/
theorem regResult_of {i : Instr} {regs : List Reg} {d : Reg} {P : State → Word → Prop} (g : State → Strand → Word)
    (hexec : ∀ s, exec i s = issueAlu s regs fun t => t.wr d (g s t)) (hP : ∀ s, P s (g s s.me)) : RegResult i regs d P := fun s hi =>
  ⟨g s s.me, hP s, by
    rw [hexec, issueAlu_ready _ hi]
    exact congrArg _ (modMe_congr (by rw [Strand.wr_pc]))⟩

/-- An instruction that writes `g` of its strand to a predicate. -/
theorem predResult_of {i : Instr} {regs : List Reg} {p : Fin 8} {P : State → Bool → Prop} (g : Strand → Bool)
    (hexec : ∀ s, exec i s = issueAlu s regs fun t => { t with p := predSet t.p p.val (g t) }) (hP : ∀ s, P s (g s.me)) :
    PredResult i regs p P := fun s hi =>
  ⟨g s.me, hP s, by
    rw [hexec, issueAlu_ready _ hi]
    exact congrArg _ (modMe_congr rfl)⟩

/-! ### Arithmetic -/

theorem toInt_bounds (a : Word) : -2 ^ 63 ≤ a.toInt ∧ a.toInt < 2 ^ 63 := ⟨a.le_toInt, a.toInt_lt⟩

theorem toInt_ofInt_of_bounds {x : Int} (h : -2 ^ 63 ≤ x ∧ x < 2 ^ 63) : (BitVec.ofInt 64 x).toInt = x := by
  rw [BitVec.toInt_ofInt]
  exact Int.bmod_eq_of_le (by norm_num; omega) (by norm_num; omega)

/-- The high half of a product of two 64-bit integers is one. -/
theorem mul_high_bounds (a b : Word) : -2 ^ 63 ≤ a.toInt * b.toInt / 2 ^ 64 ∧ a.toInt * b.toInt / 2 ^ 64 < 2 ^ 63 := by
  obtain ⟨hal, hau⟩ := toInt_bounds a
  obtain ⟨hbl, hbu⟩ := toInt_bounds b
  have hmul : |a.toInt * b.toInt| ≤ 2 ^ 63 * 2 ^ 63 := by
    rw [abs_mul]
    exact mul_le_mul (abs_le.2 ⟨hal, hau.le⟩) (abs_le.2 ⟨hbl, hbu.le⟩) (abs_nonneg _) (by norm_num)
  obtain ⟨hl, hu⟩ := abs_le.1 hmul
  constructor <;> omega

theorem mulHigh_spec (u : Bool) (a b : Word) :
    if u then (mulHigh u a b).toNat = a.toNat * b.toNat / 2 ^ 64 else (mulHigh u a b).toInt = a.toInt * b.toInt / 2 ^ 64 := by
  cases u with
  | true =>
    have h : a.toNat * b.toNat < 2 ^ 64 * 2 ^ 64 := Nat.mul_lt_mul'' a.isLt b.isLt
    simp only [mulHigh, if_true, BitVec.toNat_ofNat]
    omega
  | false => exact toInt_ofInt_of_bounds (mul_high_bounds a b)

/-- The dividend and divisor whose quotient does not fit are the least integer and -1. -/
theorem sdiv_exact {a b : Word} (h : ¬(a.toInt = -2 ^ 63 ∧ b.toInt = -1)) : a ≠ BitVec.intMin 64 ∨ b ≠ -1#64 := by
  rw [ne_eq, ne_eq, ← not_and_or]
  rintro ⟨rfl, rfl⟩
  exact h ⟨rfl, rfl⟩

theorem divWord_spec (u : Bool) (a b : Word) :
    if b = 0 then divWord u a b = 0xFFFFFFFFFFFFFFFF
    else if u then (divWord u a b).toNat = a.toNat / b.toNat
    else if a.toInt = -2 ^ 63 ∧ b.toInt = -1 then (divWord u a b).toInt = -2 ^ 63
    else (divWord u a b).toInt = a.toInt.tdiv b.toInt := by
  unfold divWord
  split
  · rfl
  · cases u with
    | true => exact BitVec.toNat_udiv
    | false =>
      simp only [Bool.false_eq_true, if_false]
      split
      · next h =>
        obtain rfl : a = BitVec.intMin 64 := BitVec.toInt_inj.1 h.1
        obtain rfl : b = -1#64 := BitVec.toInt_inj.1 h.2
        rw [BitVec.intMin_sdiv_neg_one]
        exact h.1
      · next h => exact BitVec.toInt_sdiv_of_ne_or_ne a b (sdiv_exact h)

theorem remWord_spec (u : Bool) (a b : Word) :
    if b = 0 then remWord u a b = a
    else if u then (remWord u a b).toNat = a.toNat % b.toNat
    else (remWord u a b).toInt = a.toInt.tmod b.toInt := by
  unfold remWord
  split
  · rfl
  · cases u with
    | true => exact BitVec.toNat_umod
    | false => exact BitVec.toInt_srem a b

theorem minWord_spec (u : Bool) (a b : Word) :
    if u then (minWord u a b).toNat = min a.toNat b.toNat else (minWord u a b).toInt = min a.toInt b.toInt := by
  cases u <;> simp only [minWord, condHolds, if_true, Bool.false_eq_true, if_false, BitVec.ult_eq_decide, BitVec.slt_eq_decide, decide_eq_true_eq] <;>
    split <;> omega

theorem maxWord_spec (u : Bool) (a b : Word) :
    if u then (maxWord u a b).toNat = max a.toNat b.toNat else (maxWord u a b).toInt = max a.toInt b.toInt := by
  cases u <;> simp only [maxWord, condHolds, if_true, Bool.false_eq_true, if_false, BitVec.ult_eq_decide, BitVec.slt_eq_decide, decide_eq_true_eq] <;>
    split <;> omega

/-- Settles O2: the value of each operation over the integers. -/
theorem integerArithmeticResults : Obligations.IntegerArithmeticResults := by
  unfold Obligations.IntegerArithmeticResults
  intro d a b u
  refine ⟨fun s hi => issueAlu_ready _ hi, regResult_of (fun _ t => t.rd a + t.rd b) (fun _ => rfl) fun s => BitVec.toNat_add _ _,
    regResult_of (fun _ t => t.rd a - t.rd b) (fun _ => rfl) fun s => ?sub,
    regResult_of (fun _ t => t.rd a * t.rd b) (fun _ => rfl) fun s => BitVec.toNat_mul _ _,
    regResult_of (fun _ t => mulHigh u (t.rd a) (t.rd b)) (fun _ => rfl) fun s => mulHigh_spec _ _ _,
    regResult_of (fun _ t => divWord u (t.rd a) (t.rd b)) (fun _ => rfl) fun s => divWord_spec _ _ _,
    regResult_of (fun _ t => remWord u (t.rd a) (t.rd b)) (fun _ => rfl) fun s => remWord_spec _ _ _,
    regResult_of (fun _ t => minWord u (t.rd a) (t.rd b)) (fun _ => rfl) fun s => minWord_spec _ _ _,
    regResult_of (fun _ t => maxWord u (t.rd a) (t.rd b)) (fun _ => rfl) fun s => maxWord_spec _ _ _⟩
  case sub =>
    rw [BitVec.toNat_sub]
    omega

/-! ### Logic and shifts -/

theorem shiftRight_bits (a : Word) (n k : Nat) : (a >>> n).getLsbD k = a.getLsbD (k + n) := by
  rw [BitVec.getLsbD_ushiftRight, Nat.add_comm]

theorem shiftLeft_bits (a : Word) (n : Nat) {k : Nat} (hk : k < 64) : (a <<< n).getLsbD k = (decide (n ≤ k) && a.getLsbD (k - n)) := by
  rw [BitVec.getLsbD_shiftLeft]
  simp only [hk, decide_true, Bool.true_and, ← Nat.not_lt, decide_not]

/-- An arithmetic shift repeats bit 63. -/
theorem sshiftRight_bits (a : Word) (n : Nat) {k : Nat} (hk : k < 64) : (a.sshiftRight n).getLsbD k = a.getLsbD (min (k + n) 63) := by
  rw [BitVec.getLsbD_sshiftRight, Nat.add_comm n k]
  simp only [Nat.not_le.2 hk, decide_false, Bool.not_false, Bool.true_and]
  split
  · next h => rw [Nat.min_eq_left (by omega)]
  · next h => rw [Nat.min_eq_right (by omega), BitVec.msb_eq_getLsbD_last]

theorem zx_bits {n : Nat} (i : BitVec n) {k : Nat} (hk : k < 64) : (zx i).getLsbD k = i.getLsbD k := by
  show (i.setWidth 64).getLsbD k = _
  rw [BitVec.getLsbD_setWidth, decide_eq_true hk, Bool.true_and]

theorem sx_eq_ofInt {n : Nat} (i : BitVec n) (hn : n ≤ 64) : sx i = BitVec.ofInt 64 i.toInt := by
  rw [sx, ← BitVec.toInt_signExtend_of_le hn, BitVec.ofInt_toInt]

/-- Settles O3: the bits of each result. -/
theorem logicAndShiftResults : Obligations.LogicAndShiftResults := by
  unfold Obligations.LogicAndShiftResults
  intro d a b imm n
  refine ⟨regResult_of (fun _ t => t.rd a &&& t.rd b) (fun _ => rfl) fun s k _ => BitVec.getLsbD_and,
    regResult_of (fun _ t => t.rd a ||| t.rd b) (fun _ => rfl) fun s k _ => BitVec.getLsbD_or,
    regResult_of (fun _ t => t.rd a ^^^ t.rd b) (fun _ => rfl) fun s k _ => BitVec.getLsbD_xor,
    regResult_of (fun _ t => t.rd a + sx imm) (fun _ => rfl) fun s => by rw [sx_eq_ofInt imm (by decide)],
    regResult_of (fun _ t => t.rd a &&& zx imm) (fun _ => rfl) fun s k hk => by rw [BitVec.getLsbD_and, zx_bits imm hk],
    regResult_of (fun _ t => t.rd a ||| zx imm) (fun _ => rfl) fun s k hk => by rw [BitVec.getLsbD_or, zx_bits imm hk],
    regResult_of (fun _ t => t.rd a ^^^ zx imm) (fun _ => rfl) fun s k hk => by rw [BitVec.getLsbD_xor, zx_bits imm hk],
    regResult_of (fun _ t => t.rd a <<< ((t.rd b).toNat % 64)) (fun _ => rfl) fun s k hk => shiftLeft_bits _ _ hk,
    regResult_of (fun _ t => t.rd a >>> ((t.rd b).toNat % 64)) (fun _ => rfl) fun s k _ => shiftRight_bits _ _ _,
    regResult_of (fun _ t => (t.rd a).sshiftRight ((t.rd b).toNat % 64)) (fun _ => rfl) fun s k hk => sshiftRight_bits _ _ hk,
    regResult_of (fun _ t => t.rd a <<< n.val) (fun _ => rfl) fun s k hk => shiftLeft_bits _ _ hk,
    regResult_of (fun _ t => t.rd a >>> n.val) (fun _ => rfl) fun s k _ => shiftRight_bits _ _ _,
    regResult_of (fun _ t => (t.rd a).sshiftRight n.val) (fun _ => rfl) fun s k hk => sshiftRight_bits _ _ hk⟩

/-! ### Bit counts and bit fields: encodings (15 R336, R342; 17 R404; 18 R419) -/

/-- The words of a row with two registers are those of format A with nothing else. -/
theorem two_registers_iff {w op : Nat} {i : Instr} {mk : Reg → Reg → Instr} (hw : w < 2 ^ 32) (hop : bits w 25 7 = op) :
    ((if bits w 6 9 ≠ 0 then .error .reserved else if bits w 0 6 ≠ 0 then .error .orderField else .ok (mk (regOf w 20) (regOf w 15)) : Dec) = .ok i)
      ↔ ∃ d a : Reg, w = formatA op d.val a.val 0 0 0 ∧ i = mk d a := by
  have hl := eq_fieldSum hw [25, 20, 15, 6, 0] (by decide)
  simp only [fieldSum, Nat.reduceSub] at hl
  simp only [check_eq_ok, Except.ok.injEq, ne_eq, not_not]
  constructor
  · rintro ⟨hreserved, horder, rfl⟩
    refine ⟨regOf w 20, regOf w 15, ?_, rfl⟩
    rw [hop, hreserved, horder, pow_zero, Nat.mod_one] at hl
    rw [regOf_val, regOf_val, formatA]
    linarith
  · rintro ⟨d, a, hw, rfl⟩
    simp only [formatA] at hw
    have hd : regOf w 20 = d := regOf_eq_iff.2 (by simp only [bits]; omega)
    have ha : regOf w 15 = a := regOf_eq_iff.2 (by simp only [bits]; omega)
    exact ⟨by simp only [bits]; omega, by simp only [bits]; omega, by rw [hd, ha]⟩

/-- The position and the length of a bit field as the decoder reads them. -/
theorem fin64_field (w lo : Nat) : Fin.ofNat 64 (w / 2 ^ lo) = Fin.ofNat 64 (bits w lo 6) := by
  rw [fin_ofNat_eq_iff, Fin.val_ofNat, bits, show 2 ^ 6 = 64 from rfl, Nat.mod_mod]

theorem decodeBfx_eq (w : Nat) :
    decodeBfx w = if bits w 13 2 = 0 ∧ bits w 6 6 + (bits w 0 6 + 1) ≤ 64 then
        .ok (.bfx (regOf w 20) (regOf w 15) (flagOf w 12) (Fin.ofNat 64 (bits w 6 6)) (Fin.ofNat 64 (bits w 0 6)))
      else .error .reserved := by
  rw [decodeBfx, ← fin64_field, ← fin64_field, ← ite_not]
  exact if_congr (by omega) rfl rfl

theorem decodeBfi_eq (w : Nat) :
    decodeBfi w = if bits w 12 3 = 0 ∧ bits w 6 6 + (bits w 0 6 + 1) ≤ 64 then
        .ok (.bfi (regOf w 20) (regOf w 15) (Fin.ofNat 64 (bits w 6 6)) (Fin.ofNat 64 (bits w 0 6)))
      else .error .reserved := by
  rw [decodeBfi, ← fin64_field, ← fin64_field, ← ite_not]
  exact if_congr (by omega) rfl rfl

theorem encode_sext (d a : Reg) (z : Size) : encode (.sext d a z) = formatA 0x1F d.val a.val 0 z.code 0 := by
  show 1040187392 + d.val * 1048576 + a.val * 32768 + z.code * 64 = _
  unfold formatA
  omega

/-- SEXT has no form for a doubleword (18 R419). -/
theorem decode_sext_d (d a : Reg) : decode (formatA 0x1F d.val a.val 0 3 0) 0 = .error .reserved := by
  obtain ⟨w, hw⟩ : ∃ w, w = formatA 0x1F d.val a.val 0 3 0 := ⟨_, rfl⟩
  rw [← hw]
  simp only [formatA] at hw
  have hop : bits w 25 7 = 31 := by simp only [bits]; omega
  have hreserved : bits w 8 7 = 0 := by simp only [bits]; omega
  have hz : bits w 6 2 = Size.d.code := by simp only [bits, Size.code]; omega
  simp only [decode, hop, Nat.reduceDiv, decodeRow1, decodeSext, hreserved, hz, Size.ofCode_code, ne_eq, not_true_eq_false, if_false, if_true]

/-! ### Bit counts (15 R342, 17 R404) -/

theorem clzWord_spec (a : Word) :
    if a = 0 then clzWord a = 64
    else (clzWord a).toNat < 64 ∧ a.getLsbD (63 - (clzWord a).toNat) = true ∧ ∀ k, 63 - (clzWord a).toNat < k → a.getLsbD k = false := by
  unfold clzWord
  split
  · rfl
  · next h =>
    have h0 : a.toNat ≠ 0 := fun h0 => h (BitVec.eq_of_toNat_eq h0)
    have hlog : a.toNat.log2 < 64 := (Nat.log2_lt h0).2 a.isLt
    have hv : (BitVec.ofNat 64 (63 - a.toNat.log2)).toNat = 63 - a.toNat.log2 := by
      rw [BitVec.toNat_ofNat, Nat.mod_eq_of_lt (by omega)]
    rw [hv, show 63 - (63 - a.toNat.log2) = a.toNat.log2 by omega]
    refine ⟨by omega, ?_, fun k hk => ?_⟩
    · rw [← BitVec.testBit_toNat, Nat.testBit_log2 h0]
    · rw [← BitVec.testBit_toNat]
      exact Nat.testBit_lt_two_pow ((Nat.log2_lt h0).1 hk)

/-- The scan for trailing zeros ends at the first 1, or where its fuel does. -/
theorem trailing_spec (a : Word) (n : Nat) : ∀ i, i ≤ trailing a i n ∧ trailing a i n ≤ i + n
    ∧ (∀ k, i ≤ k → k < trailing a i n → a.getLsbD k = false) ∧ (trailing a i n < i + n → a.getLsbD (trailing a i n) = true) := by
  induction n with
  | zero => exact fun i => ⟨Nat.le_refl _, Nat.le_refl _, fun k h1 h2 => absurd h2 (Nat.not_lt.2 h1), fun h => absurd h (Nat.lt_irrefl _)⟩
  | succ n ih =>
    intro i
    unfold trailing
    split
    · next hi => exact ⟨Nat.le_refl _, by omega, fun k h1 h2 => absurd h2 (Nat.not_lt.2 h1), fun _ => hi⟩
    · next hi =>
      obtain ⟨hge, hle, hzeros, hone⟩ := ih (i + 1)
      refine ⟨by omega, by omega, fun k h1 h2 => ?_, fun h => hone (by omega)⟩
      rcases Nat.eq_or_lt_of_le h1 with rfl | h1
      · exact Bool.not_eq_true _ ▸ hi
      · exact hzeros k h1 h2

theorem ctzWord_spec (a : Word) :
    if a = 0 then ctzWord a = 64
    else (ctzWord a).toNat < 64 ∧ a.getLsbD (ctzWord a).toNat = true ∧ ∀ k < (ctzWord a).toNat, a.getLsbD k = false := by
  obtain ⟨-, hle, hzeros, hone⟩ := trailing_spec a 64 0
  have hv : (ctzWord a).toNat = trailing a 0 64 := by
    rw [ctzWord, BitVec.toNat_ofNat, Nat.mod_eq_of_lt (by omega)]
  split
  · next h =>
    refine BitVec.eq_of_toNat_eq (hv.trans (Nat.le_antisymm hle (Nat.not_lt.1 fun hlt => ?_)))
    subst h
    simpa using hone hlt
  · next h =>
    have hlt : trailing a 0 64 < 64 := Nat.lt_of_le_of_ne hle fun heq =>
      h (BitVec.eq_of_getLsbD_eq fun k hk => (hzeros k (Nat.zero_le _) (by omega)).trans BitVec.getLsbD_zero.symm)
    rw [hv]
    exact ⟨hlt, hone hlt, fun k hk => hzeros k (Nat.zero_le _) hk⟩

theorem length_filter_eq_sum (p : Nat → Bool) (l : List Nat) : (l.filter p).length = (l.map fun k => (p k).toNat).sum := by
  induction l with
  | nil => rfl
  | cons x l ih => cases h : p x <;> simp [h, ih, Nat.add_comm]

theorem popWord_spec (a : Word) : (popWord a).toNat = ((List.range 64).map fun k => (a.getLsbD k).toNat).sum := by
  have hle : ((List.range 64).filter fun k => a.getLsbD k).length ≤ 64 := List.length_filter_le _ _ |>.trans (List.length_range).le
  rw [popWord, BitVec.toNat_ofNat, Nat.mod_eq_of_lt (by omega), length_filter_eq_sum]

/-- Settles O4: the words of each row, then the counts. -/
theorem bitCountResults : Obligations.BitCountResults := by
  unfold Obligations.BitCountResults
  refine ⟨fun w w2 hw i => ⟨fun hop => ?_, fun hop => ?_, fun hop => ?_⟩, fun d a =>
    ⟨regResult_of (fun _ t => clzWord (t.rd a)) (fun _ => rfl) fun s => clzWord_spec _,
      regResult_of (fun _ t => ctzWord (t.rd a)) (fun _ => rfl) fun s => ctzWord_spec _,
      regResult_of (fun _ t => popWord (t.rd a)) (fun _ => rfl) fun s => popWord_spec _⟩⟩
  all_goals
    simp only [decode, hop, Nat.reduceDiv, decodeRow1, decodeClz, decodeCtz, decodePopc]
    exact two_registers_iff hw hop

/-! ### Bit fields (15 R336, 18 R419) -/

theorem lowMask_bits (n : Nat) {k : Nat} (hk : k < 64) : (lowMask n).getLsbD k = decide (k < n) := by
  rw [lowMask, BitVec.getLsbD_ofNat, Nat.testBit_two_pow_sub_one, decide_eq_true hk, Bool.true_and]

theorem extractField_bits (x : Bool) (a : Word) (p l : Nat) (hl : l < 64) {k : Nat} (hk : k < 64) :
    (extractField x a p (l + 1)).getLsbD k = if k ≤ l then a.getLsbD (p + k) else x && a.getLsbD (p + l) := by
  have hfield : ∀ j < 64, ((a >>> p) &&& lowMask (l + 1)).getLsbD j = (a.getLsbD (p + j) && decide (j ≤ l)) := fun j hj => by
    rw [BitVec.getLsbD_and, lowMask_bits _ hj, BitVec.getLsbD_ushiftRight, decide_eq_decide.2 Nat.lt_succ_iff]
  have hsign : ((a >>> p) &&& lowMask (l + 1)).getLsbD l = a.getLsbD (p + l) := by
    rw [hfield l hl, decide_eq_true (Nat.le_refl l), Bool.and_true]
  simp only [extractField, Nat.add_sub_cancel, hsign]
  have hfill : (~~~lowMask (l + 1)).getLsbD k = decide (l < k) := by
    rw [BitVec.getLsbD_not, lowMask_bits _ hk, decide_eq_true hk, Bool.true_and, ← decide_not, decide_eq_decide]
    omega
  split
  · next h =>
    rw [BitVec.getLsbD_or, hfield k hk, hfill]
    by_cases hkl : k ≤ l
    · simp only [if_pos hkl, decide_eq_true hkl, decide_eq_false (Nat.not_lt.2 hkl), Bool.and_true, Bool.or_false]
    · simp only [if_neg hkl, decide_eq_true (Nat.not_le.1 hkl), Bool.or_true, h]
  · next h =>
    rw [hfield k hk]
    by_cases hkl : k ≤ l
    · simp only [if_pos hkl, decide_eq_true hkl, Bool.and_true]
    · simp only [if_neg hkl, decide_eq_false hkl, Bool.and_false, Bool.not_eq_true _ ▸ h]

theorem insertField_bits (d a : Word) (p l : Nat) (hpl : p + (l + 1) ≤ 64) {k : Nat} (hk : k < 64) :
    (insertField d a p (l + 1)).getLsbD k = if p ≤ k ∧ k ≤ p + l then a.getLsbD (k - p) else d.getLsbD k := by
  have hmask : (lowMask (l + 1) <<< p).getLsbD k = decide (p ≤ k ∧ k ≤ p + l) := by
    rw [shiftLeft_bits _ _ hk, lowMask_bits _ (by omega), ← Bool.decide_and, decide_eq_decide]
    omega
  have hfield : ((a &&& lowMask (l + 1)) <<< p).getLsbD k = (decide (p ≤ k ∧ k ≤ p + l) && a.getLsbD (k - p)) := by
    rw [shiftLeft_bits _ _ hk, BitVec.getLsbD_and, lowMask_bits _ (by omega), Bool.and_comm (a.getLsbD _), ← Bool.and_assoc, ← Bool.decide_and]
    exact congrArg (· && _) (decide_eq_decide.2 (by omega))
  rw [insertField, BitVec.getLsbD_or, BitVec.getLsbD_and, BitVec.getLsbD_not, hmask, hfield]
  split <;> simp [*]

/-- A sign-extended field of whole bytes is the sign extension of its bits. -/
theorem extend_signed (n v : Nat) (hn : 0 < n) : extend true n v = (BitVec.ofNat (8 * n) v).signExtend 64 := by
  have hpow : 2 ^ (8 * n) = 2 * 2 ^ (8 * n - 1) := by rw [← pow_succ', show 8 * n - 1 + 1 = 8 * n by omega]
  rw [BitVec.signExtend, BitVec.toInt_eq_toNat_cond, BitVec.toNat_ofNat]
  unfold extend
  by_cases h : 2 ^ (8 * n - 1) ≤ v % 2 ^ (8 * n)
  · rw [if_pos (by simpa using h), if_neg (by omega)]
  · rw [if_neg (by simpa using h), if_pos (by omega), BitVec.ofInt_natCast]

theorem signExtendWord_bits (a : Word) (z : Size) {k : Nat} (hk : k < 64) :
    (signExtendWord a z).getLsbD k = a.getLsbD (min k (8 * z.bytes - 1)) := by
  have hz : 0 < z.bytes ∧ z.bytes ≤ 8 := by cases z <;> decide
  rw [signExtendWord, extend_signed _ _ hz.1, BitVec.getLsbD_signExtend, decide_eq_true hk, Bool.true_and, BitVec.msb_eq_getLsbD_last]
  simp only [BitVec.getLsbD_ofNat, BitVec.testBit_toNat]
  split
  · next h => rw [decide_eq_true h, Bool.true_and, Nat.min_eq_left (by omega)]
  · next h => rw [decide_eq_true (by omega), Bool.true_and, Nat.min_eq_right (by omega)]

/-- Settles O5: the words of the three rows, then the bits of the results. -/
theorem bitFieldResults : Obligations.BitFieldResults := by
  unfold Obligations.BitFieldResults
  refine ⟨fun w w2 _ => ⟨fun hop => ?_, fun hop => ?_⟩, rfl, fun d a z hz => ?_, decode_sext_d, fun d a x p l z hpl hz =>
    ⟨regResult_of (fun _ t => extractField x (t.rd a) p.val (l.val + 1)) (fun _ => rfl) fun s k hk => extractField_bits x _ _ _ l.isLt hk,
      regResult_of (fun _ t => insertField (t.rd d) (t.rd a) p.val (l.val + 1)) (fun _ => rfl) fun s k hk => insertField_bits _ _ _ _ hpl hk,
      regResult_of (fun _ t => signExtendWord (t.rd a) z) (fun _ => rfl) fun s k hk => signExtendWord_bits _ _ hk⟩⟩
  · simp only [decode, hop, Nat.reduceDiv, decodeRow1]
    exact decodeBfx_eq w
  · simp only [decode, hop, Nat.reduceDiv, decodeRow1]
    exact decodeBfi_eq w
  · rw [← encode_sext]
    exact decode_encode_sext d a z 0 hz

/-! ### Predicates and comparisons (04 R84; 15 R343; 17 R402; 18 R417) -/

theorem predSet_bits {p : BitVec 8} {n : Nat} (v : Bool) (h0 : n ≠ 0) {m : Nat} (hm : m < 8) :
    (predSet p n v).getLsbD m = if m = n then v else p.getLsbD m := by
  have hone : (1#8 <<< n).getLsbD m = decide (m = n) := by
    rw [BitVec.getLsbD_shiftLeft, BitVec.getLsbD_one, decide_eq_true hm]
    simp only [Bool.true_and, ← decide_not, ← Bool.decide_and, decide_eq_decide]
    omega
  rw [predSet, if_neg h0]
  cases v
  · rw [if_neg (by decide), BitVec.getLsbD_and, BitVec.getLsbD_not, hone, decide_eq_true hm]
    by_cases h : m = n <;> simp [h]
  · rw [if_pos rfl, BitVec.getLsbD_or, hone]
    by_cases h : m = n <;> simp [h]

theorem predGet_predSet (p : BitVec 8) (v : Bool) (m n : Fin 8) (h0 : n ≠ 0) :
    predGet (predSet p n.val v) m.val = if m = n then v else predGet p m.val := by
  have hn : n.val ≠ 0 := fun h => h0 (Fin.ext h)
  rw [predGet, predSet_bits v hn m.isLt]
  by_cases h : m = n
  · rw [if_pos (congrArg _ h), if_pos h, h, beq_false_of_ne hn, Bool.false_or]
  · rw [if_neg fun hv => h (Fin.ext hv), if_neg h, predGet]

/-- Each condition compares the integers that the words hold, signed or unsigned. -/
theorem condHolds_signed (c : Cond) (a b : Word) :
    condHolds c false a b = match c with
      | .eq => decide (a.toInt = b.toInt) | .ne => decide (a.toInt ≠ b.toInt) | .lt => decide (a.toInt < b.toInt)
      | .le => decide (a.toInt ≤ b.toInt) | .gt => decide (b.toInt < a.toInt) | .ge => decide (b.toInt ≤ a.toInt) := by
  have heq : (a == b) = decide (a.toInt = b.toInt) := by rw [beq_eq_decide, decide_eq_decide, BitVec.toInt_inj]
  cases c <;> simp only [condHolds, bne, heq, Bool.false_eq_true, if_false, BitVec.slt_eq_decide, ← decide_not, ← Bool.decide_or, decide_eq_decide] <;>
    omega

theorem condHolds_unsigned (c : Cond) (a b : Word) :
    condHolds c true a b = match c with
      | .eq => decide ((a.toNat : Int) = b.toNat) | .ne => decide ((a.toNat : Int) ≠ b.toNat) | .lt => decide ((a.toNat : Int) < b.toNat)
      | .le => decide ((a.toNat : Int) ≤ b.toNat) | .gt => decide ((b.toNat : Int) < a.toNat) | .ge => decide ((b.toNat : Int) ≤ a.toNat) := by
  have heq : (a == b) = decide (a.toNat = b.toNat) := by rw [beq_eq_decide, decide_eq_decide, BitVec.toNat_inj]
  cases c <;> simp only [condHolds, bne, heq, if_true, BitVec.ult_eq_decide, ← decide_not, ← Bool.decide_or, decide_eq_decide] <;> omega

theorem sx_toInt {n : Nat} (i : BitVec n) (hn : n ≤ 64) : (sx i).toInt = i.toInt := BitVec.toInt_signExtend_of_le hn

theorem zx_toNat {n : Nat} (i : BitVec n) (hn : n ≤ 64) : (zx i).toNat = i.toNat := by
  show (i.setWidth 64).toNat = _
  rw [BitVec.toNat_setWidth_of_le hn]

/-- Settles O6: reading what was written, the two comparisons, SEL and PLOG. -/
theorem compareSelectResults : Obligations.CompareSelectResults := by
  unfold Obligations.CompareSelectResults
  refine ⟨fun p => ⟨rfl, fun v => ⟨rfl, fun m n h0 hmn => ?_⟩⟩, fun p q d a b imm m n => ⟨fun c => ?_, fun c => ?_, fun c => ?_, fun c => ?_,
    regResult_of (fun _ t => if predGet t.p q.val then t.rd a else t.rd b) (fun _ => rfl) fun s => rfl, fun f => ?_⟩⟩
  · rw [predGet_predSet p v n n h0, predGet_predSet p v m n h0, if_pos rfl, if_neg hmn]
    exact ⟨rfl, rfl⟩
  · refine predResult_of (fun t => condHolds c false (t.rd a) (t.rd b)) (fun _ => rfl) fun s => ?_
    exact (condHolds_signed c _ _).trans (by cases c <;> rfl)
  · refine predResult_of (fun t => condHolds c true (t.rd a) (t.rd b)) (fun _ => rfl) fun s => ?_
    exact (condHolds_unsigned c _ _).trans (by cases c <;> rfl)
  · refine predResult_of (fun t => condHolds c false (t.rd a) (sx imm)) (fun _ => rfl) fun s => ?_
    refine (condHolds_signed c _ _).trans ?_
    cases c <;> simp only [sx_toInt imm (show 11 ≤ 64 by decide)]
  · refine predResult_of (fun t => condHolds c true (t.rd a) (zx imm)) (fun _ => rfl) fun s => ?_
    refine (condHolds_unsigned c _ _).trans ?_
    cases c <;> simp only [zx_toNat imm (show 11 ≤ 64 by decide)]
  · refine predResult_of (fun t => predOp f (predGet t.p m.val) (predGet t.p n.val)) (fun _ => rfl) fun s => ?_
    cases f <;> simp only [predOp, Bool.bne_eq_xor]

/-! ### Moves (16 R376; 17 R384, R403; 18 R440) -/

/-- A field of WID fits a word. -/
theorem widField_lt (widw n : Nat) (wid : Word) : widField widw wid.toNat n < 2 ^ 64 :=
  Nat.lt_of_le_of_lt ((Nat.mod_le _ _).trans (Nat.div_le_self _ _)) wid.isLt

/-- PMOV reads the predicates with p0 true. -/
theorem predByte_bits (p : BitVec 8) (k : Nat) : (predByte p).getLsbD k = predGet p k := by
  rw [predByte, predGet, BitVec.getLsbD_or, Bool.or_comm, show (1 : BitVec 8) = 1#8 from rfl, BitVec.getLsbD_one, beq_eq_decide]
  simp

/-- Settles O7. -/
theorem moveResults : Obligations.MoveResults := by
  unfold Obligations.MoveResults
  intro d a imm v n
  refine ⟨regResult_of (fun _ t => t.rd a) (fun _ => rfl) fun s => rfl, regResult_of (fun _ _ => sx imm) (fun _ => rfl) fun s => sx_toInt imm (by decide),
    fun s hi => ?li, regResult_of (fun s t => BitVec.ofNat 64 (widField s.here.widw.toNat t.wid.toNat n.val)) (fun _ => rfl) fun s => ?widf,
    regResult_of (fun _ t => zx (predByte t.p)) (fun _ => rfl) fun s => ⟨?_, fun k hk => ?_⟩, fun s hi => ?preds⟩
  case li =>
    rw [← sx_eq_ofInt v (by decide)]
    exact issue_ready (fun s => s.modMe fun t => { t.wr d (liValue v) with pc := t.pc + 8 }) hi
  case widf => exact (BitVec.toNat_ofNat _ _).trans (Nat.mod_eq_of_lt (widField_lt _ _ _))
  · rw [zx_toNat _ (by decide)]
    exact (predByte s.me.p).isLt
  · rw [zx_bits _ (by omega), predByte_bits]
  case preds =>
    refine (issueAlu_ready _ hi).trans (congrArg _ (modMe_congr ?_))
    show _ = _
    rw [BitVec.ofNat_toNat]

/-! ### ENRD (13 R290): which account it reads. That the account is read at the issue is the model's choice, log 101 -/

theorem encode_enrd (d a : Reg) : encode (.enrd d a) = formatA 0x26 d.val a.val 0 0 0 := by
  show 1275068416 + d.val * 1048576 + a.val * 32768 = _
  unfold formatA
  omega

/-- Settles O8: the form of a compute strand, then that of an armature strand. -/
theorem enrdReadsAnAccount : Obligations.EnrdReadsAnAccount := by
  unfold Obligations.EnrdReadsAnAccount
  intro d a s hi
  have hexec := issue_ready (s := s) (o := Order.none) (fun s =>
    if s.me.prv then
      if (s.me.rd a).toNat ≤ 16 then s.modMe fun t => (t.wr d (BitVec.ofNat 64 (s.accountOf (s.me.rd a).toNat).energy)).next
      else s.illOperand (.enrd d a)
    else if a ≠ 0 then s.trapMe 1 2 (BitVec.ofNat 64 (encode (.enrd d a)))
    else s.modMe fun t => (t.wr d (BitVec.ofNat 64 (s.accountOf s.here.part.toNat).energy)).next) hi
  refine ⟨fun hp ha => hexec.trans ?_, fun hp ha => hexec.trans ?_, fun hp ha => hexec.trans ?_, fun hp ha => hexec.trans ?_⟩
  · simp only [hp, ha, Strand.wr_next, Bool.false_eq_true, if_false, ne_eq, not_true_eq_false]
    rfl
  · simp only [hp, ha, Strand.wr_next, if_true]
    rfl
  · simp only [hp, if_true, if_neg (Nat.not_le.2 ha), State.illOperand, encode_enrd]
  · simp only [hp, Bool.false_eq_true, if_false, if_pos ha, encode_enrd]

end Sys2Proof.Machine
end

section
/-! PROOFS. Accesses issue (spec 08 R192, R195; 15 R324, R328 to R339; 16 R355, R373 to R377; 18 R426 to R435): the instructions of global memory and
of the memory tile differ in the access that they start. -/
namespace Sys2Proof.Machine

/-! ### Accesses to global memory -/

theorem plainAddress_eq (base : Word) (e : BitVec 6) (z : Size) :
    plainAddress base e z = base + BitVec.ofInt 64 (e.toInt * z.bytes) := by
  rw [plainAddress, sx_eq_ofInt e (by decide), BitVec.ofInt_mul, BitVec.ofInt_natCast]

theorem size_two_pow_log (z : Size) : 2 ^ z.log = z.bytes := by cases z <;> rfl

theorem two_pow_logn (wide : Bool) : 2 ^ (if wide then 3 else 2) = if wide then 8 else 4 := by cases wide <;> rfl

/-- An instruction that issues as `startAccess` starts its access. -/
theorem starts_of {s : State} {i : Instr} {x : Access} {logn : Nat} {regs : List Reg} {o : Order} (hi : s.readyMem regs o = true)
    (hexec : exec i s = if s.readyMem regs o = true then .next (s.startAccess x logn) else .next s) : s.Starts i x logn := by
  rw [if_pos hi] at hexec
  exact ⟨fun hm => hexec.trans (congrArg _ (startAccess_misaligned s x logn hm)),
    fun hm hw => hexec.trans (congrArg _ (startAccess_memory s x logn hm hw)),
    fun hm hw hf => hexec.trans (congrArg _ (startAccess_window s x logn hm hw hf)),
    fun r hm hw hf => hexec.trans (congrArg _ (startAccess_fault s x logn r hm hw hf))⟩

theorem execStg_stalled {s : State} {d a : Reg} {e : BitVec 6} {z : Size} {o : Order} (hfull : s.storesFull = true)
    (hw : inWindow (plainAddress (s.me.rd a) e z).toNat = false) : exec (.stg d a z e o) s = .next s :=
  if_pos (by rw [hfull, hw]; rfl)

theorem execStg_room {s : State} {d a : Reg} {e : BitVec 6} {z : Size} {o : Order}
    (h : s.storesFull = false ∨ inWindow (plainAddress (s.me.rd a) e z).toNat = true) :
    exec (.stg d a z e o) s = if s.readyMem [d, a] o = true then
      .next (s.startAccess { s.newAccess .store (plainAddress (s.me.rd a) e z) z.bytes o.set.val with data := s.me.rd d } z.log) else .next s :=
  if_neg (by rcases h with h | h <;> simp [h])

/-- Settles O20: each instruction starts its access; a plain store has no room while the buffer is full. -/
theorem globalAccessesIssue : Obligations.GlobalAccessesIssue := by
  unfold Obligations.GlobalAccessesIssue
  intro s d a e q c wide f z l o
  simp only [← plainAddress_eq, ← size_two_pow_log z, ← two_pow_logn]
  refine ⟨fun hi => ⟨starts_of hi rfl, fun h => ?stg, starts_of hi rfl, starts_of hi rfl,
    starts_of hi rfl⟩, fun hi => starts_of hi rfl, fun hfull hw => ?stalled⟩
  case stg =>
    rw [size_two_pow_log, ← plainAddress_eq] at h ⊢
    exact starts_of hi (execStg_room h)
  case stalled =>
    rw [size_two_pow_log, ← plainAddress_eq] at hw
    exact execStg_stalled hfull hw

/-! ### Operations of the memory tile -/

/-- An instruction that issues as `startWindow` starts its operation. -/
theorem startsWindow_of {s : State} {i : Instr} {bad : Word} {ok : Bool} {x : Access} {op logn : Nat} {regs : List Reg} {o : Order}
    (hi : s.readyMem regs o = true)
    (h : exec i s = if s.readyMem regs o = true then .next (s.startWindow bad ok x op logn) else .next s) :
    s.StartsWindow i bad ok x op logn := by
  rw [if_pos hi] at h
  unfold State.startWindow at h
  refine ⟨fun hw => ?outside, fun r hw hf => ?fault, fun hw hf hm => ?misaligned, fun hw hf hm hok => ?operand, fun hw hf hm hok => ?launched⟩
  case outside => simp only [h, hw, Bool.not_false, if_true]
  case fault => simp only [h, hw, hf, Bool.not_true, Bool.false_eq_true, if_false]
  case misaligned => simp only [h, hw, hf, hm, Bool.not_true, Bool.false_eq_true, if_false, ne_eq, not_false_eq_true, if_true]
  case operand => simp only [h, hw, hf, hm, hok, Bool.not_true, Bool.not_false, Bool.false_eq_true, if_false, ne_eq, not_true_eq_false, if_true]
  case launched => simp only [h, hw, hf, hm, hok, Bool.not_true, Bool.false_eq_true, if_false, ne_eq, not_true_eq_false]

/-- The upper bits of a word are zero where the word is below their place. -/
theorem upper_bits_zero (v : Word) {lo n : Nat} (h : lo + n = 64) : (bits v.toNat lo n == 0) = decide (v.toNat / 2 ^ lo = 0) := by
  have hv : v.toNat / 2 ^ lo < 2 ^ n := Nat.div_lt_of_lt_mul (by rw [← Nat.pow_add, h]; exact v.isLt)
  rw [bits, Nat.mod_eq_of_lt hv]
  rfl

/-- Settles O27: each instruction starts its operation; the operand check is that of the upper bits or of the count. -/
theorem windowOperationsIssue : Obligations.WindowOperationsIssue := by
  unfold Obligations.WindowOperationsIssue
  intro s d a b k o
  simp only [Bool.decide_and, ← upper_bits_zero (s.me.rd b) (show 47 + 17 = 64 from rfl), ← upper_bits_zero (s.me.rd b) (show 63 + 1 = 64 from rfl),
    ← upper_bits_zero (s.me.rd b) (show 16 + 48 = 64 from rfl)]
  exact ⟨fun hi => ⟨startsWindow_of hi rfl, startsWindow_of hi rfl, startsWindow_of hi rfl,
      startsWindow_of hi rfl, startsWindow_of hi rfl, startsWindow_of hi rfl⟩,
    fun hi => ⟨startsWindow_of hi rfl, startsWindow_of hi rfl⟩,
    fun hi => startsWindow_of hi rfl, fun hi => startsWindow_of hi rfl⟩

end Sys2Proof.Machine
end

section
/-! PROOFS. Island commands issue (spec 17 R387 to R396). -/
namespace Sys2Proof.Machine

/-- Sending a command raises its slot, marks its destination, passes the instruction and lets the command join the island's. -/
theorem putIsland_eq (s : State) (c : IslandCmd) :
    s.putIsland c = (s.modMe fun t => { (t.raise c.slot).mark c.dst with pc := t.pc + 4 }).modHere fun t =>
      { t with island := { t.island with cmds := t.island.cmds ++ [c] } } := by
  rw [State.putIsland, modMe_congr (g := fun t => { (t.raise c.slot).mark c.dst with pc := t.pc + 4 })]
  simp only [Strand.next, Strand.mark_pc, Strand.raise_pc]

section
variable {s : State} {a b d : Reg} {st : Bool} {o : Order} {c : Word}

theorem execMxcfg_issues (hi : s.me.ready [a] o = true) :
    execMxcfg a o s = .next (if mxConfigBad (s.queueTaken (mxPe (s.me.rd a)) (mxQueue (s.me.rd a))) (s.me.rd a) then s.illOperand (.mxcfg a o)
      else s.putIsland (s.islandCmd 0 o (s.me.rd a) 0)) := if_pos hi

theorem execMxzero_issues (hi : s.me.ready [a] o = true) :
    execMxzero a o s = .next (if rowRangeBad true (s.me.rd a) then s.illOperand (.mxzero a o)
      else s.putIsland (s.islandCmd 3 o (s.me.rd a) 0)) := if_pos hi

theorem execMxldb_unconfigured (hi : s.readyMem [a] o = true) (hc : s.here.island.judged = none) :
    execMxldb a o s = .next (s.illOperand (.mxldb a o)) := by
  simp only [execMxldb, issueMem_ready _ hi, hc]

theorem execMxldb_configured (hi : s.readyMem [a] o = true) (hc : s.here.island.judged = some c) :
    execMxldb a o s = .next (if (s.me.rd a).toNat % 64 ≠ 0 then s.trapMe 4 6 (s.me.rd a)
      else if 0x200000 < (s.me.rd a).toNat + mxExtent c then s.illOperand (.mxldb a o)
      else s.putIsland (s.islandCmd 1 o (s.me.rd a) 0)) := by
  simp only [execMxldb, issueMem_ready _ hi, hc]

theorem execMxrot_unconfigured (hi : s.readyMem [] o = true) (hc : s.here.island.judged = none) :
    execMxrot o s = .next (s.illOperand (.mxrot o)) := by
  simp only [execMxrot, issueMem_ready _ hi, hc]

theorem execMxrot_configured (hi : s.readyMem [] o = true) (hc : s.here.island.judged = some c) :
    execMxrot o s = .next (s.putIsland (s.islandCmd 2 o (BitVec.ofNat 64 (encode (.mxrot o))) 0)) := by
  simp only [execMxrot, issueMem_ready _ hi, hc]

theorem execMxrd_unconfigured (hi : s.readyCommand [a, b] o = true) (hc : s.here.island.judged = none) :
    execMxrd a b st o s = .next (s.illOperand (.mxrd a b st o)) := by
  simp only [execMxrd, issueCommand_ready _ hi, hc]

theorem execMxrd_configured (hi : s.readyCommand [a, b] o = true) (hc : s.here.island.judged = some c) :
    execMxrd a b st o s = .next (if (s.me.rd a).toNat % 64 ≠ 0 then s.trapMe 4 6 (s.me.rd a)
      else if mxReadBad c (s.me.rd a) (s.me.rd b) st then s.illOperand (.mxrd a b st o)
      else s.putIsland { s.islandCmd 4 o (s.me.rd a) (s.me.rd b) with stoch := st }) := by
  simp only [execMxrd, issueCommand_ready _ hi, hc]

theorem execMxchk_issues (hi : s.me.ready [d] o = true) :
    execMxchk d o s = .next (s.putIsland { s.islandCmd 5 o 0 0 with dst := d }) := issue_ready _ hi

end

/-- Settles O34: each command is checked in the order of its rule, then sent. -/
theorem islandCommandsIssue : Obligations.IslandCommandsIssue := by
  unfold Obligations.IslandCommandsIssue
  intro s d a b st o
  refine ⟨fun hi => ⟨fun h => (execMxcfg_issues hi).trans (congrArg _ ?mxcfg), fun h => (execMxcfg_issues hi).trans (congrArg _ (if_pos h)),
      fun h => (execMxzero_issues hi).trans (congrArg _ ?mxzero), fun h => (execMxzero_issues hi).trans (congrArg _ (if_pos h))⟩,
    fun hi => ⟨execMxldb_unconfigured hi, fun c hc => ?mxldb⟩,
    fun hi => ⟨execMxrot_unconfigured hi, fun c hc => (execMxrot_configured hi hc).trans (congrArg _ (putIsland_eq _ _))⟩,
    fun hi => ⟨execMxrd_unconfigured hi, fun c hc => ?mxrd⟩, fun hi => (execMxchk_issues hi).trans (congrArg _ (putIsland_eq _ _))⟩
  case mxcfg => exact (if_neg (Bool.eq_false_iff.1 h)).trans (putIsland_eq _ _)
  case mxzero => exact (if_neg (Bool.eq_false_iff.1 h)).trans (putIsland_eq _ _)
  case mxldb =>
    have hx := execMxldb_configured hi hc
    exact ⟨fun h64 => hx.trans (congrArg _ (if_pos h64)),
      fun h64 hb => hx.trans (congrArg _ ((if_neg (not_not_intro h64)).trans (if_pos hb))),
      fun h64 hb => hx.trans (congrArg _ ((if_neg (not_not_intro h64)).trans ((if_neg (Nat.not_lt.2 hb)).trans (putIsland_eq _ _))))⟩
  case mxrd =>
    have hx := execMxrd_configured (st := st) hi hc
    exact ⟨fun h64 => hx.trans (congrArg _ (if_pos h64)),
      fun h64 hb => hx.trans (congrArg _ ((if_neg (not_not_intro h64)).trans (if_pos hb))),
      fun h64 hb => hx.trans (congrArg _ ((if_neg (not_not_intro h64)).trans ((if_neg (Bool.eq_false_iff.1 hb)).trans (putIsland_eq _ _))))⟩

end Sys2Proof.Machine
end

section
/-! PROOFS. Barriers and locks of a memory tile (spec 08 R211, R212; 15 R329, R330, R333; 16 R377; 18 R435): which rule performs an operation, and
what each rule does on a word that nobody waits for. -/
namespace Sys2Proof.Machine

/-! ### The rule of an operation -/

theorem op_of_kind {a : Access} {op : Nat} (h : a.kind = .window op) : a.op = op := by rw [Access.op, h]; rfl

section
variable {s : State} {a : Access}

theorem aligned_word {off : Nat} (h : off % 8 = 0) : off / 8 * 8 = off := Nat.div_mul_cancel (Nat.dvd_of_mod_eq_zero h)

theorem windowPerform_bara (h : a.kind = .window opBara) (h8 : (a.va - windowBase) % 8 = 0) : s.windowPerform a = s.arrive a (a.va - windowBase) := by
  simp [State.windowPerform, op_of_kind h, aligned_word h8, isEdge, isPut, isGet, opLoad, opStore, opCas, opBari, opBara, opTlook, opTins, opTevict,
    opEqput, opEqget]

theorem windowPerform_barw (h : a.kind = .window opBarw) (h8 : (a.va - windowBase) % 8 = 0) :
    s.windowPerform a = s.awaitBarrier a (a.va - windowBase) := by
  simp [State.windowPerform, op_of_kind h, aligned_word h8, isEdge, isPut, isGet, opLoad, opStore, opCas, opBari, opBara, opBarw, opTlook, opTins,
    opTevict, opEqput, opEqget]

theorem windowPerform_tsb (h : a.kind = .window opTsb) (h8 : (a.va - windowBase) % 8 = 0) (hl : s.lostWord (a.va - windowBase) = false) :
    s.windowPerform a = s.takeLock a (a.va - windowBase) := by
  simp [State.windowPerform, op_of_kind h, aligned_word h8, hl, isEdge, isPut, isGet, opLoad, opStore, opCas, opBari, opBara, opBarw, opTsb, opTlook,
    opTins, opTevict, opEqput, opEqget]

theorem windowPerform_lrel (h : a.kind = .window opLrel) (h8 : (a.va - windowBase) % 8 = 0) (hl : s.lostWord (a.va - windowBase) = false) :
    s.windowPerform a = s.releaseLock a (a.va - windowBase) := by
  simp [State.windowPerform, op_of_kind h, aligned_word h8, hl, isEdge, isPut, isGet, opLoad, opStore, opCas, opBari, opBara, opBarw, opTsb, opLrel,
    opTlook, opTins, opTevict, opEqput, opEqget]

theorem windowPerform_bari (h : a.kind = .window opBari) (h8 : (a.va - windowBase) % 8 = 0) (hl : s.lostWord (a.va - windowBase) = false) :
    s.windowPerform a = ((s.breakObject (a.va - windowBase)).setWord (a.va - windowBase)
      ⟨BitVec.ofNat 64 (bits a.data.toNat 0 16), .barrier, a.part, false⟩).tileReply a 0 0 0 false := by
  simp [State.windowPerform, op_of_kind h, aligned_word h8, hl, isEdge, isPut, isGet, opLoad, opStore, opCas, opBari, opEqput, opEqget]

/-! ### Barriers -/

variable {off : Nat}

theorem breakObject_plain (h : (s.word off).kind = .plain) : s.breakObject off = s := by rw [State.breakObject, h]

theorem waitersFor_setWord_of_none {op n : Nat} {w : WindowWord} (h : s.waitersOf off = []) : (s.setWord n w).waitersFor off op = [] := by
  have hw : (s.setWord n w).waitersOf off = [] := h
  rw [State.waitersFor, hw, List.filter_nil]

theorem arrive_broken (h : (s.wordFor a.part off).kind ≠ .barrier) : s.arrive a off = s.tileReply a 0 0 1 false :=
  if_pos (bne_iff_ne.2 h)

theorem arrive_counts (h : (s.wordFor a.part off).kind = .barrier)
    (hn : bits (s.wordFor a.part off).bits.toNat 16 16 + 1 ≠ bits (s.wordFor a.part off).bits.toNat 0 16) :
    s.arrive a off = (s.setWord off { s.wordFor a.part off with
      bits := BitVec.ofNat 64 (setBits (s.wordFor a.part off).bits.toNat 16 16 (bits (s.wordFor a.part off).bits.toNat 16 16 + 1)) }).tileReply
        a (BitVec.ofNat 64 (bits (s.wordFor a.part off).bits.toNat 32 16)) 0 0 false :=
  (if_neg (by simp [h])).trans (if_neg hn)

theorem arrive_completes (h : (s.wordFor a.part off).kind = .barrier) (hwait : s.waitersOf off = [])
    (hn : bits (s.wordFor a.part off).bits.toNat 16 16 + 1 = bits (s.wordFor a.part off).bits.toNat 0 16) :
    s.arrive a off = (s.setWord off { s.wordFor a.part off with
      bits := BitVec.ofNat 64 (setBits (setBits (s.wordFor a.part off).bits.toNat 16 16 0) 32 16
        (bits (s.wordFor a.part off).bits.toNat 32 16 + 1)) }).tileReply a (BitVec.ofNat 64 (bits (s.wordFor a.part off).bits.toNat 32 16)) 0 0 false := by
  refine (if_neg (by simp [h])).trans ((if_pos hn).trans ?_)
  simp only [waitersFor_setWord_of_none hwait, List.filter_nil]
  rfl

theorem awaitBarrier_broken (h : (s.wordFor a.part off).kind ≠ .barrier) : s.awaitBarrier a off = s.tileReply a 0 0 1 false :=
  if_pos (bne_iff_ne.2 h)

theorem awaitBarrier_passed (h : (s.wordFor a.part off).kind = .barrier) (hp : bits (s.wordFor a.part off).bits.toNat 32 16 ≠ a.data.toNat) :
    s.awaitBarrier a off = s.tileReply a 0 0 0 false :=
  (if_neg (by simp [h])).trans (if_pos hp)

theorem awaitBarrier_waits (h : (s.wordFor a.part off).kind = .barrier) (hp : bits (s.wordFor a.part off).bits.toNat 32 16 = a.data.toNat) :
    s.awaitBarrier a off = s.list off a .waiter :=
  (if_neg (by simp [h])).trans (if_neg (not_not_intro hp))

/-- An operation that is on no list of its object joins at the end. -/
theorem list_joins {ph : Phase} (h : (off, a.id) ∉ s.windowWait) :
    s.list off a ph = { s.modAccess a.id (fun b => { b with phase := ph }) with windowWait := s.windowWait ++ [(off, a.id)] } :=
  if_neg (by simpa using h)

/-! ### Locks -/

theorem taken_bit (v : Word) : flagOf v.toNat 63 = v.getLsbD 63 := by
  rw [flagOf, BitVec.getLsbD, Nat.testBit_eq_decide_div_mod_eq]
  rfl

theorem top_bit : BitVec.twoPow 64 63 = 9223372036854775808#64 := rfl

theorem takeLock_barrier (h : (s.wordFor a.part off).kind = .barrier) : s.takeLock a off = s.tileReply a (BitVec.allOnes 64) 0 3 false := by
  simp [State.takeLock, h]

theorem takeLock_plain (h : (s.wordFor a.part off).kind = .plain) (hp : (s.wordFor a.part off).psn = false) :
    s.takeLock a off = (s.setWord off { s.wordFor a.part off with kind := .lock, bits := a.data ||| BitVec.twoPow 64 63 }).tileReply a 0 0 0 false := by
  simp [State.takeLock, h, hp, flagOf, bits, top_bit]

theorem takeLock_free (h : (s.wordFor a.part off).kind = .lock) (hp : (s.wordFor a.part off).psn = false)
    (hf : (s.wordFor a.part off).bits.getLsbD 63 = false) :
    s.takeLock a off = (s.setWord off { s.wordFor a.part off with bits := a.data ||| BitVec.twoPow 64 63 }).tileReply a
      (BitVec.ofNat 64 (bits (s.wordFor a.part off).bits.toNat 0 63)) 0 0 false := by
  simp [State.takeLock, h, (taken_bit _).trans hf, hp, top_bit]

theorem takeLock_taken (h : (s.wordFor a.part off).kind = .lock) (hf : (s.wordFor a.part off).bits.getLsbD 63 = true) :
    s.takeLock a off = (s.setWord off (s.wordFor a.part off)).join off a := by
  simp [State.takeLock, h, taken_bit, hf]

theorem releaseLock_frees (h : (s.wordFor a.part off).kind = .lock) (hf : (s.wordFor a.part off).bits.getLsbD 63 = true)
    (hwait : s.waitersOf off = []) :
    s.releaseLock a off = (s.setWord off { s.wordFor a.part off with
      bits := BitVec.ofNat 64 (bits (s.wordFor a.part off).bits.toNat 0 63) }).tileReply a 0 0 0 false := by
  have hw : s.waitersFor off opTsb = [] := waitersFor_setWord_of_none (n := 0) (w := s.word 0) hwait
  simp [State.releaseLock, h, taken_bit, hf, hw]

end

/-- Settles O28: each operation is performed by its rule, on a word that nobody waits for. -/
theorem barriersAndLocks : Obligations.BarriersAndLocks := by
  unfold Obligations.BarriersAndLocks
  intro s a off w h8 hl hwait hp
  exact ⟨fun hd => if_neg (Bool.eq_false_iff.1 hd),
    fun hk hb hn => (windowPerform_bara hk h8).trans (arrive_counts hb hn),
    fun hk hb hn => (windowPerform_bara hk h8).trans (arrive_completes hb hwait hn),
    fun hk hb => (windowPerform_bara hk h8).trans (arrive_broken hb),
    fun hk hb => (windowPerform_barw hk h8).trans (awaitBarrier_broken hb),
    fun hk hb hn => (windowPerform_barw hk h8).trans (awaitBarrier_passed hb hn),
    fun hk hb hn hj => (windowPerform_barw hk h8).trans ((awaitBarrier_waits hb hn).trans (list_joins hj)),
    fun hk hb hf => (windowPerform_tsb hk h8 hl).trans (takeLock_free hb hp hf),
    fun hk hb hf => (windowPerform_tsb hk h8 hl).trans (takeLock_taken hb hf),
    fun hk hb => (windowPerform_tsb hk h8 hl).trans (takeLock_plain hb hp),
    fun hk hb => (windowPerform_tsb hk h8 hl).trans (takeLock_barrier hb),
    fun hk hb hf => (windowPerform_lrel hk h8 hl).trans (releaseLock_frees hb hf hwait),
    fun hk _ hb => (windowPerform_bari hk h8 hl).trans (by rw [breakObject_plain hb, bits_zero_eq_mod]; rfl)⟩

end Sys2Proof.Machine
end

section
/-! PROOFS. Scratchpad loads, stores and atomics (spec 09 R223, R230; 11 R260; 15 R325; 16 R374; 18 R426). -/
namespace Sys2Proof.Machine

/-! ### Readers without races -/

theorem Tile.view_of_no_races {t : Tile} (h : t.races = []) (engine : Bool) (coin : Nat → Nat) : t.view engine coin = t := by
  have hp : pickRaces engine coin 0 [] t.races = ([], []) := by rw [h, pickRaces]
  unfold Tile.view
  rw [hp]
  show { t with races := [] } = t
  rw [← h]

/-- With no race a reader finds a tile that has just been written as it stands, and takes no choice. -/
theorem State.view_of_no_races (s : State) (d y : Nat) (f : Tile → Tile) (h : (f (s.tile d y)).races = []) (engine : Bool) :
    (s.modTile d y f).view d y engine = ((s.modTile d y f).tile d y, s.modTile d y f) := by
  have hv := Tile.view_of_no_races h engine (s.modTile d y f).coin
  have hw := s.modTile_modTile d y f fun t => { t with races := (f (s.tile d y)).races }
  unfold State.view
  simp only [State.tile_modTile_self, hv]
  refine Prod.ext rfl ?_
  simp only [h, List.length_nil, Nat.add_zero] at hw ⊢
  refine hw.trans ?_
  show s.setTile d y { f (s.tile d y) with races := [] } = s.setTile d y (f (s.tile d y))
  rw [← h]

/-! ### One access -/

section
variable {s : State} {i : Instr} {va : Word} {z : Size} {n : Nat} {go : State → State} {d : Reg} {v : Nat → Word}

theorem spadAccess_beyond (h : 0x200000 < va.toNat + z.bytes) : s.spadAccess i va z.log go = s.illOperand i :=
  if_pos (by rwa [size_two_pow_log])

theorem spadAccess_misaligned (h : va.toNat + z.bytes ≤ 0x200000) (hm : va.toNat % z.bytes ≠ 0) :
    s.spadAccess i va z.log go = s.trapMe 4 z.log va :=
  (if_neg (by rw [size_two_pow_log]; exact Nat.not_lt.2 h)).trans (if_pos (by rwa [size_two_pow_log]))

theorem spadAccess_goes (h : va.toNat + z.bytes ≤ 0x200000) (hm : va.toNat % z.bytes = 0) :
    s.spadAccess i va z.log go = go (s.modMe Strand.next) :=
  (if_neg (by rw [size_two_pow_log]; exact Nat.not_lt.2 h)).trans (if_neg (by rw [size_two_pow_log]; exact not_not_intro hm))

/-- The state after a strand's scratchpad read: the choices are taken, and what it has read of other writers races no more with what follows. -/
def State.afterRead (s : State) (va n : Nat) : State :=
  (s.view s.cur.die s.cur.site false).2.modHere fun x => x.observe s.ownStore va n

theorem spadLoad_clean (h : (s.view s.cur.die s.cur.site false).1.spadPoisoned (s.view s.cur.die s.cur.site false).1.part va.toNat n = false) :
    s.spadLoad d va n v = (s.afterRead va.toNat n).modMe fun x =>
      x.wr d (v ((s.view s.cur.die s.cur.site false).1.spadRead (s.view s.cur.die s.cur.site false).1.part va.toNat n)) :=
  if_neg (Bool.eq_false_iff.1 h)

theorem spadLoad_poisoned (h : (s.view s.cur.die s.cur.site false).1.spadPoisoned (s.view s.cur.die s.cur.site false).1.part va.toNat n = true) :
    s.spadLoad d va n v = (s.afterRead va.toNat n).report s.cur.die s.cur.site s.cur.strand
      ⟨8, 1, BitVec.ofNat 64 ((s.view s.cur.die s.cur.site false).1.firstPoison va.toNat n)⟩ :=
  if_pos h

end

/-! ### The instructions -/

section
variable {s : State} {d a : Reg} {l : LoadSize} {z : Size} {e : BitVec 6} {q : Ord} {c : Scp} {wide : Bool} {f : AtomicOp} {o : Order}

theorem execLdl_issues (hi : s.readyMem [d, a] o = true) :
    execLdl d a l e o s = .next (s.spadAccess (.ldl d a l e o) (plainAddress (s.me.rd a) e l.size) l.size.log fun u =>
      u.spadLoad d (plainAddress (s.me.rd a) e l.size) l.size.bytes fun v => extend l.signed l.size.bytes v) := issueMem_ready _ hi

theorem execStl_issues (hi : s.readyCommand [d, a] o = true) :
    execStl d a z e o s = .next (s.spadAccess (.stl d a z e o) (plainAddress (s.me.rd a) e z) z.log fun u =>
      u.spadStore .store (plainAddress (s.me.rd a) e z) (toBytes (u.me.rd d).toNat z.bytes) false o.set.val) := issueCommand_ready _ hi

/-- How an AMOL that has read `u` writes: in flight where nothing in the instruction orders after it, else in its step. -/
def State.amolWrite (u : State) (q : Ord) (f : AtomicOp) (o : Order) (va : Word) (bytes : List Byte) (psn : Bool) : State :=
  if o.set = 0 ∧ q.acquires = false then u.spadStore (.atomic f) va bytes psn 0 else u.spadPerform va bytes psn

theorem execAmol_issues (hi : s.readyCommand [d, a] o = true) (hq : (q.releases && s.unperformed) = false) :
    execAmol d a q c wide f o s = .next (
      if spadSize ≤ (s.me.rd a).toNat then s.illOperand (.amol d a q c wide f o)
      else if (s.me.rd a).toNat % atomicBytes wide ≠ 0 then s.trapMe 4 (if wide then 3 else 2) (s.me.rd a)
      else
        let u := s.modMe Strand.next
        let t := (u.view u.cur.die u.cur.site false).1
        (u.spadLoad d (s.me.rd a) (atomicBytes wide) (BitVec.ofNat 64)).amolWrite q f o (s.me.rd a)
          (toBytes (f.apply (atomicBytes wide) (t.spadRead t.part (s.me.rd a).toNat (atomicBytes wide)) (u.me.rd d).toNat) (atomicBytes wide))
          (t.spadPoisoned t.part (s.me.rd a).toNat (atomicBytes wide) && f != .swap)) := by
  simp only [execAmol, hq, Bool.false_eq_true, if_false, issueCommand_ready _ hi, State.amolWrite, Bool.not_eq_true']

theorem amolWrite_clean {u : State} {va : Word} {n : Nat} {v : Nat → Word} {bytes : List Byte} {b : Bool}
    (h : (u.view u.cur.die u.cur.site false).1.spadPoisoned (u.view u.cur.die u.cur.site false).1.part va.toNat n = false) :
    (u.spadLoad d va n v).amolWrite q f o va bytes
        ((u.view u.cur.die u.cur.site false).1.spadPoisoned (u.view u.cur.die u.cur.site false).1.part va.toNat n && b)
      = ((u.afterRead va.toNat n).modMe fun x =>
        x.wr d (v ((u.view u.cur.die u.cur.site false).1.spadRead (u.view u.cur.die u.cur.site false).1.part va.toNat n))).amolWrite
          q f o va bytes false := by
  rw [spadLoad_clean h, h, Bool.false_and]

theorem amolWrite_poisoned {u : State} {va : Word} {n : Nat} {v : Nat → Word} {bytes : List Byte} {b : Bool}
    (h : (u.view u.cur.die u.cur.site false).1.spadPoisoned (u.view u.cur.die u.cur.site false).1.part va.toNat n = true) :
    (u.spadLoad d va n v).amolWrite q f o va bytes
        ((u.view u.cur.die u.cur.site false).1.spadPoisoned (u.view u.cur.die u.cur.site false).1.part va.toNat n && b)
      = ((u.afterRead va.toNat n).report u.cur.die u.cur.site u.cur.strand
        ⟨8, 1, BitVec.ofNat 64 ((u.view u.cur.die u.cur.site false).1.firstPoison va.toNat n)⟩).amolWrite q f o va bytes b := by
  rw [spadLoad_poisoned h, h, Bool.true_and]

end

/-- Settles O24: the checks of each instruction, then its read or write as the strand finds the scratchpad. -/
theorem scratchpadLoadsAndStores : Obligations.ScratchpadLoadsAndStores := by
  unfold Obligations.ScratchpadLoadsAndStores
  intro s d a l z e q c wide f o
  simp only [← plainAddress_eq]
  refine ⟨fun hr => ?races, fun hi => ?ldl, fun hi => ?stl, fun hi hq => ?amol⟩
  case races =>
    have hv := s.view_of_no_races s.cur.die s.cur.site
      (fun t => t.setStrand s.cur.strand { t.strand s.cur.strand with pc := (t.strand s.cur.strand).pc + 4 }) hr false
    exact ⟨congrArg Prod.fst hv, congrArg Prod.snd hv⟩
  case ldl =>
    have hx := execLdl_issues (l := l) (e := e) hi
    exact ⟨fun h => hx.trans (congrArg _ (spadAccess_beyond h)), fun h hm => hx.trans (congrArg _ (spadAccess_misaligned h hm)),
      fun h hm hp => hx.trans (congrArg _ ((spadAccess_goes h hm).trans (spadLoad_clean hp))),
      fun h hm hp => hx.trans (congrArg _ ((spadAccess_goes h hm).trans (spadLoad_poisoned hp)))⟩
  case stl =>
    have hx := execStl_issues (z := z) (e := e) hi
    refine ⟨fun h => hx.trans (congrArg _ (spadAccess_beyond h)), fun h hm => hx.trans (congrArg _ (spadAccess_misaligned h hm)),
      fun h hm => hx.trans (congrArg _ ((spadAccess_goes h hm).trans ?_))⟩
    rw [State.me_modMe]
    rfl
  case amol =>
    have hx := execAmol_issues (c := c) (wide := wide) (f := f) hi hq
    refine ⟨fun h hm => hx.trans (congrArg _ ((if_neg (Nat.not_le.2 h)).trans (if_pos hm))), fun h => hx.trans (congrArg _ (if_pos h)),
      fun h hm hp => hx.trans (congrArg _ ((if_neg (Nat.not_le.2 h)).trans ((if_neg (not_not_intro hm)).trans ?clean))),
      fun h hm hp => hx.trans (congrArg _ ((if_neg (Nat.not_le.2 h)).trans ((if_neg (not_not_intro hm)).trans ?poisoned)))⟩
    case clean =>
      refine (amolWrite_clean hp).trans ?_
      rw [State.me_modMe]
      rfl
    case poisoned =>
      refine (amolWrite_poisoned hp).trans ?_
      rw [State.me_modMe]
      rfl

end Sys2Proof.Machine
end

section
/-! PROOFS. A load that the tile L1 serves (spec 08 R194, R195; 09 R221; 10 R244, R252; 16 R374). -/
namespace Sys2Proof.Machine

/-! ### A launched access -/

theorem caps_launch (s : State) (a : Access) (d y : Nat) : ((s.launch a).tile d y).caps = (s.tile d y).caps := by
  show ((State.modMe { s with nextId := s.nextId + 1 } fun t => t.issued a).tile d y).caps = _
  rw [State.modMe, State.tile_modStrand]
  split
  · next h => simp only [State.tile, h]; rfl
  · rfl

theorem utlb_launch (s : State) (a : Access) (d y : Nat) : ((s.launch a).tile d y).utlb = (s.tile d y).utlb := by
  show ((State.modMe { s with nextId := s.nextId + 1 } fun t => t.issued a).tile d y).utlb = _
  rw [State.modMe, State.tile_modStrand]
  split
  · next h => simp only [State.tile, h]; rfl
  · rfl

/-- Issue changes no cached translation. -/
theorem tlbFind_launch (s : State) (a : Access) (g : Agent) (part : BitVec 4) (va : Nat) : (s.launch a).tlbFind g part va = s.tlbFind g part va := by
  simp only [State.tlbFind, caps_launch, utlb_launch]
  rfl

theorem here_launch (s : State) (a : Access) : (s.launch a).here = s.here.setStrand s.cur.strand (s.me.issued a) :=
  State.here_modMe { s with nextId := s.nextId + 1 } fun t => t.issued a

/-! ### The end of an access -/

/-- A strand once an access that it issued has ended. -/
def Strand.ended (t : Strand) (a : Access) : Strand :=
  if a.acquires then { ((t.unmark a.dst).unmark a.dst2).lower a.slot with acquires := (((t.unmark a.dst).unmark a.dst2).lower a.slot).acquires - 1 }
  else ((t.unmark a.dst).unmark a.dst2).lower a.slot

section
variable (t : Strand) (a : Access)

@[simp] theorem Strand.unmark_x (r : Reg) : (t.unmark r).x = t.x := rfl
@[simp] theorem Strand.unmark_pc (r : Reg) : (t.unmark r).pc = t.pc := rfl
@[simp] theorem Strand.unmark_acquires (r : Reg) : (t.unmark r).acquires = t.acquires := rfl
@[simp] theorem Strand.lower_acquires (n : Nat) : (t.lower n).acquires = t.acquires := by unfold Strand.lower; split <;> rfl
@[simp] theorem Strand.ended_x : (t.ended a).x = t.x := by unfold Strand.ended; split <;> simp
@[simp] theorem Strand.ended_pc : (t.ended a).pc = t.pc := by unfold Strand.ended; split <;> simp
@[simp] theorem Strand.ended_rd (r : Reg) : (t.ended a).rd r = t.rd r := by simp only [Strand.rd, Strand.ended_x]
@[simp] theorem Strand.issued_rd (r : Reg) : (t.issued a).rd r = t.rd r := by simp only [Strand.rd, Strand.issued_x]
theorem Strand.ended_acquires : (t.ended a).acquires = t.acquires - if a.acquires then 1 else 0 := by unfold Strand.ended; split <;> simp
theorem Strand.ended_sb : (t.ended a).sb = (t.lower a.slot).sb := by
  unfold Strand.ended
  split <;> exact Strand.lower_sb_congr (show ((t.unmark a.dst).unmark a.dst2).sb = t.sb from rfl) _

/-- A slot that rises and falls has the count that it had. -/
theorem Strand.lower_raise_sb (n k : Nat) : vget ((t.raise n).lower n).sb k = vget t.sb k := by
  unfold Strand.raise Strand.lower
  split
  · rfl
  · simp only [vget_vset, if_true, Nat.add_sub_cancel]
    split
    · next h => simp only [vget, h]
    · rfl

end

section
variable {s : State} {a : Access} {d y n : Nat}

theorem endAccess_strand (ha : a.agent = .strand d y n) (hh : (s.tile d y).holds a.gen = true) :
    s.endAccess a = if a.clears then ((s.dropAccess a.id).modStrand d y n fun x => x.ended a).modTile d y fun t => { t with l1 := [] }
      else (s.dropAccess a.id).modStrand d y n fun x => x.ended a := by
  have hd : ((s.dropAccess a.id).tile d y).holds a.gen = true := hh
  simp only [State.endAccess, ha, hd, if_true]
  rfl

theorem endAccess_access (a : Access) : (s.endAccess a).access = s.access.filter fun b => b.id != a.id := by
  cases ha : a.agent with
  | strand d y n =>
    by_cases hh : (s.tile d y).holds a.gen = true
    · rw [endAccess_strand ha hh]
      split <;> rfl
    · have hd : ¬((s.dropAccess a.id).tile d y).holds a.gen = true := hh
      simp only [State.endAccess, ha, if_neg hd]
      rfl
  | _ => simp only [State.endAccess, ha]; rfl

theorem settleStrand_of_none (g : Agent) (h : s.access = []) : s.settleStrand g = s := by
  rw [State.settleStrand, h]
  rfl

theorem kick_of_none (h : s.access = []) : s.kick d = s := by
  rw [State.kick, h]
  rfl

/-- Changing the only access in flight leaves it the only one. -/
theorem modAccess_only {i : Nat} {x : Access} (hx : x.id = i) (h : ∀ b ∈ s.access, b.id = i) : ∀ b ∈ (s.modAccess i fun _ => x).access, b.id = i := by
  intro b hb
  obtain ⟨b', hb', rfl⟩ := List.mem_map.1 hb
  rw [if_pos (h b' hb'), hx]

/-- Nothing follows the end of the last access. -/
theorem finish_last (h : ∀ b ∈ s.access, b.id = a.id) : s.finish a = s.endAccess a := by
  have hx : (s.endAccess a).access = [] := by
    rw [endAccess_access, List.filter_eq_nil_iff]
    exact fun b hb => by simp [h b hb]
  rw [State.finish, settleStrand_of_none _ hx, kick_of_none hx]

end

/-! ### Routing to the L1 -/

section
variable {s : State} {a : Access} {e : TlbEntry} {c : L1Line} {d y n : Nat}

theorem routeFault_local (h : bits (e.pa a.va) 50 2 = 0) (hl : s.lostHome (e.pa a.va / 128) = false) : s.routeFault a e (e.pa a.va) = none := by
  have hown : s.ownPeer (e.pa a.va) = false := by rw [State.ownPeer, h]; rfl
  have hframe : s.frame (e.pa a.va) = e.pa a.va := by rw [State.frame, hown]; rfl
  simp [State.routeFault, h, hown, hframe, hl]

/-- A plain load of a strand that no other access is in flight beside finds its line in the L1. -/
theorem quickLoad_l1 (hk : a.kind = .load) (hp : a.plain = true) (ha : a.agent = .strand d y n) (hx : ∀ b ∈ s.access, b.id = a.id)
    (hc : s.l1Line d y a.pa = some c) :
    s.quickLoad a true = some (s.replyRead a (a.extendValue (if c.part = a.part then bits c.data.toNat (8 * (a.pa % 128)) (8 * a.bytes) else 0)) c.psn) := by
  have holder : s.olderThan a = [] := by
    rw [State.olderThan, List.filter_eq_nil_iff]
    exact fun b hb => by simp [hx b hb]
  have hov : s.olderOverlap a = false := by rw [State.olderOverlap, holder]; rfl
  simp only [State.quickLoad, hk, hp, ha, hov, hc]
  rfl

/-- An access with the physical address that an entry gives, in the phase that it enters. -/
def Access.routed (a : Access) (e : TlbEntry) : Access :=
  { a with pa := e.pa a.va, kidx := e.kidx, cacheable := bits (e.pa a.va) 50 2 == 0 && e.c, phase := a.target (e.pa a.va) e.c }

theorem route_quick {t : State} (hk : a.kind = .load) (hf : s.routeFault a e (e.pa a.va) = none)
    (hq : (s.modAccess a.id fun _ => a.routed e).quickLoad (a.routed e) ((a.routed e).cacheable && a.ord != .sc) = some t) : s.route a e = t := by
  unfold State.route
  split <;> rename_i h <;> cases hk.symm.trans h
  simp only [Access.routed] at hq
  simp only [hf, hq]

/-- A plain load of cacheable local HBM, alone in flight, is answered by the L1 that holds its line clean. -/
theorem route_l1 (hk : a.kind = .load) (hp : a.plain = true) (ho : a.ord = .rlx) (ha : a.agent = .strand d y n) (hx : ∀ b ∈ s.access, b.id = a.id)
    (h : bits (e.pa a.va) 50 2 = 0) (hec : e.c = true) (hl : s.lostHome (e.pa a.va / 128) = false) (hc : s.l1Line d y (e.pa a.va) = some c)
    (hpsn : c.psn = false) :
    s.route a e = (s.modAccess a.id fun _ => a.routed e).reply (a.routed e)
      (a.extendValue (if c.part = a.part then bits c.data.toNat (8 * (e.pa a.va % 128)) (8 * a.bytes) else 0)) := by
  have hcached : ((a.routed e).cacheable && a.ord != .sc) = true := by simp [Access.routed, h, hec, ho]
  have hquick := quickLoad_l1 (a := a.routed e) (s := s.modAccess a.id fun _ => a.routed e) hk hp ha (modAccess_only rfl hx) hc
  refine route_quick hk (routeFault_local h hl) ((congrArg _ hcached).trans (hquick.trans ?_))
  rw [State.replyRead, hpsn]
  rfl

end

/-! ### The whole load -/

section
variable {s : State} {a : Access} {v : Word}

/-- The last access of the strand that has the move brings its value. -/
theorem reply_last (ha : a.agent = .strand s.cur.die s.cur.site s.cur.strand) (hh : s.here.holds a.gen = true) (hc : a.clears = false)
    (hx : ∀ b ∈ s.access, b.id = a.id) :
    s.reply a v = ((s.modMe fun x => x.wr a.dst v).dropAccess a.id).modMe fun x => x.ended a := by
  have hh' : ((s.modMe fun x => x.wr a.dst v).tile s.cur.die s.cur.site).holds a.gen = true := by
    show ((s.modMe fun x => x.wr a.dst v).here).holds a.gen = true
    rw [State.here_modMe]
    exact hh
  have hreply : s.reply a v = (s.modMe fun x => x.wr a.dst v).finish a := by
    simp only [State.reply, ha]
    exact if_pos hh
  rw [hreply, finish_last (s := s.modMe fun x => x.wr a.dst v) hx, endAccess_strand ha hh', hc]
  rfl

/-- What the strand holds once its only access, a load, has issued and been answered. -/
theorem me_after_reply {x : Access} (i : Nat) (f : Access → Access) (j : Nat) :
    (((((s.launch x).modAccess i f).modMe fun t => t.wr a.dst v).dropAccess j).modMe fun t => t.ended a).me
      = ((s.me.issued x).wr a.dst v).ended a := by
  rw [State.me_modMe]
  show ((((s.launch x).modAccess i f).modMe fun t => t.wr a.dst v).me).ended a = _
  rw [State.me_modMe]
  show (((s.launch x).me).wr a.dst v).ended a = _
  rw [State.me_launch]

end

/-- Settles O23: the load starts, passes its checks and is answered by the line that the L1 holds. -/
theorem loadHitsTheL1 : Obligations.LoadHitsTheL1 := by
  unfold Obligations.LoadHitsTheL1
  intro s d a l e o t c n va pa hi hacc hd _ hal hva hw hctx hfind hcheck hloc htc hlost hline hpsn
  let x : Access := { s.newAccess .load (s.me.rd a + BitVec.ofInt 64 (e.toInt * n)) n o.set.val with dst := d, signed := l.signed }
  have hstart : exec (.ldg d a l e o) s = .next ((s.launch x).translate x) :=
    ((globalAccessesIssue s d a e .rlx .tile false .add .b l o).1 hi).1.2.1 hal hw
  have honly : ∀ b ∈ (s.launch x).access, b.id = x.id := by
    intro b hb
    have hb' : b ∈ s.access ++ [x] := hb
    rw [hacc, List.nil_append, List.mem_singleton] at hb'
    rw [hb']
  have hl1 : (s.launch x).l1Line s.cur.die s.cur.site pa = some c := by
    refine Eq.trans ?_ hline
    show tget (s.launch x).here.l1 (pa / 128) = _
    rw [here_launch]
    rfl
  have hroute : (s.launch x).translate x = (s.launch x).route x t :=
    translate_routes hva hctx ((tlbFind_launch s x _ _ _).trans hfind) hcheck
  have hanswer := route_l1 (s := s.launch x) (a := x) rfl rfl rfl rfl honly hloc htc hlost hl1 hpsn
  have hholds : (s.launch x).here.holds x.gen = true := by
    rw [here_launch]
    exact Bool.or_eq_true_iff.2 (.inl (beq_self_eq_true s.here.gen))
  have hdone := reply_last (s := (s.launch x).modAccess x.id fun _ => x.routed t) (a := x.routed t) rfl hholds rfl (modAccess_only rfl honly)
    (v := x.extendValue (if c.part = x.part then bits c.data.toNat (8 * (pa % 128)) (8 * x.bytes) else 0))
  refine ⟨_, hstart.trans (congrArg _ (hroute.trans (hanswer.trans hdone))), ?_⟩
  rw [me_after_reply]
  refine ⟨?value, ?pc, fun k => ?slots, fun r hr => ?others, ?none, rfl, rfl, rfl, rfl, rfl⟩
  case value => rw [Strand.ended_rd]; exact Strand.rd_wr_self hd _ _
  case pc => rw [Strand.ended_pc, Strand.wr_pc, Strand.issued_pc]
  case slots =>
    rw [Strand.ended_sb, Strand.lower_sb_congr ((Strand.wr_sb _ _ _).trans (Strand.issued_sb _ _))]
    exact Strand.lower_raise_sb _ _ _
  case others => rw [Strand.ended_rd, Strand.rd_wr, if_neg fun h => hr h.1, Strand.issued_rd]
  case none => exact List.filter_eq_nil_iff.2 fun b hb => by simp [modAccess_only (x := x.routed t) rfl honly b hb]

end Sys2Proof.Machine
end

section
/-! PROOFS. Fences, line operations and hints (spec 08 R200; 09 R222, R224, R233; 15 R341; 16 R358; 17 R405). -/
namespace Sys2Proof.Machine

/-! ### The smallest free number -/

/-- Of the numbers from 1 to one more than the length of a list, the list misses one. -/
theorem exists_unused (l : List Nat) : ∃ i ∈ List.range (l.length + 1), (!l.contains (i + 1)) = true := by
  by_contra h
  have hsub : (List.range (l.length + 1)).map (· + 1) ⊆ l := by
    intro x hx
    obtain ⟨i, hi, rfl⟩ := List.mem_map.1 hx
    by_contra hc
    exact h ⟨i, hi, by simpa using hc⟩
  have hnodup : ((List.range (l.length + 1)).map (· + 1)).Nodup := List.nodup_range.map fun a b hab => Nat.succ.inj hab
  have hle := (hnodup.subperm hsub).length_le
  rw [List.length_map, List.length_range] at hle
  omega

/-- Zero is no number that is handed out, so a list that holds it too has the same free number. -/
theorem firstFree_cons_zero (l : List Nat) : firstFree (0 :: l) = firstFree l := by
  obtain ⟨i, hi⟩ : ∃ i, (List.range (l.length + 1)).find? (fun i => !l.contains (i + 1)) = some i :=
    Option.isSome_iff_exists.1 (List.find?_isSome.2 (exists_unused l))
  have hi' : (List.range ((0 :: l).length + 1)).find? (fun i => !(0 :: l).contains (i + 1)) = some i := by
    have hp : (fun i : Nat => !(0 :: l).contains (i + 1)) = fun i => !l.contains (i + 1) := by
      funext j
      simp
    rw [hp, List.length_cons, List.range_succ, List.find?_append, hi]
    rfl
  rw [firstFree, firstFree, hi, hi']

/-! ### Fences -/

section
variable {s : State} {x : Access}

/-- Nothing that could hold a fence back is in flight. -/
theorem fenceDone_alone {d y n : Nat} (ha : x.agent = .strand d y n) (hx : ∀ b ∈ s.access, b.id = x.id) (hr : (s.die d).rwb = []) :
    s.fenceDone x = true := by
  have holder : s.olderThan x = [] := by
    rw [State.olderThan, List.filter_eq_nil_iff]
    exact fun b hb => by simp [hx b hb]
  have hdrained : s.rwbDrained x = true := by
    simp only [State.rwbDrained, ha, hr]
    rfl
  simp [State.fenceDone, holder, hdrained]

/-- The fences of a strand whose only access is one that has taken effect. -/
theorem settleStrand_only (hk : x.kind = .fence) (hx : s.access = [x]) (hd : s.fenceDone x = true) :
    s.settleStrand x.agent = if x.ord == .sc then s.serialFence x else s.endAccess x := by
  have hf : (s.access.filter fun a => a.agent == x.agent && a.kind == .fence) = [x] := by
    rw [hx, List.filter_cons_of_pos (by simp [hk]), List.filter_nil]
  simp only [State.settleStrand, hf, List.foldl_cons, List.foldl_nil, hd, if_true]

end

section
variable {s : State} {a : Access} (ha : a.agent = .strand s.cur.die s.cur.site s.cur.strand) (hh : s.here.holds a.gen = true)
include ha hh

theorem me_endAccess : (s.endAccess a).me = s.me.ended a := by
  rw [endAccess_strand ha hh]
  split
  · show (((s.dropAccess a.id).modMe fun x => x.ended a).modHere fun t => { t with l1 := [] }).me = _
    rw [State.me]
    show ((((s.dropAccess a.id).modMe fun x => x.ended a).modHere fun t => { t with l1 := [] }).here).strand s.cur.strand = _
    rw [State.here_modHere]
    exact State.me_modMe (s.dropAccess a.id) _
  · exact State.me_modMe (s.dropAccess a.id) _

theorem l1_endAccess (hc : a.clears = true) : (s.endAccess a).here.l1 = [] := by
  rw [endAccess_strand ha hh, if_pos hc]
  show ((((s.dropAccess a.id).modMe fun x => x.ended a).modHere fun t => { t with l1 := [] }).here).l1 = []
  rw [State.here_modHere]

/-- The end of an access of a strand changes its tile and the accesses in flight. -/
theorem endAccess_keeps : (s.endAccess a).hbm = s.hbm ∧ (s.endAccess a).hostMem = s.hostMem ∧ (s.endAccess a).window = s.window
    ∧ (s.endAccess a).dies = s.dies := by
  rw [endAccess_strand ha hh]
  split <;> exact ⟨rfl, rfl, rfl, rfl⟩

end

/-- The access of a FENCE. -/
def State.fenceAccess (s : State) (q : Ord) (c : Scp) (o : Order) : Access :=
  { s.newAccess .fence 0 0 o.set.val with ord := q, scp := c, plain := false, phase := if q == .sc then .serial else .translate }

theorem execFence_issues {s : State} {q : Ord} {c : Scp} {o : Order} (hi : s.readyMem [] o = true) :
    execFence q c o s = .next ((s.launch (s.fenceAccess q c o)).settleStrand (s.fenceAccess q c o).agent) := issueMem_ready _ hi

theorem launch_access_only {s : State} (x : Access) (hacc : s.access = []) : (s.launch x).access = [x] := by
  show s.access ++ [x] = _
  rw [hacc, List.nil_append]

/-- A fence alone in flight has taken effect as it is launched. -/
theorem settleStrand_fence {s : State} {q : Ord} {c : Scp} {o : Order} (hacc : s.access = []) (hr : (s.die s.cur.die).rwb = []) :
    (s.launch (s.fenceAccess q c o)).settleStrand (s.fenceAccess q c o).agent =
      if q == .sc then (s.launch (s.fenceAccess q c o)).serialFence (s.fenceAccess q c o)
      else (s.launch (s.fenceAccess q c o)).endAccess (s.fenceAccess q c o) := by
  have honly := launch_access_only (s.fenceAccess q c o) hacc
  exact settleStrand_only rfl honly (fenceDone_alone rfl (by simp [honly]) hr)

theorem fence_acquires {s : State} {q : Ord} {c : Scp} {o : Order} : (s.fenceAccess q c o).acquires = q.acquires := Bool.or_false _

theorem fence_clears {s : State} {q : Ord} {c : Scp} {o : Order} (hq : q.acquires = true) (hc : c ≠ .tile) :
    (s.fenceAccess q c o).clears = true := by
  have hw : c.wide = true := by
    cases c with
    | tile => exact absurd rfl hc
    | _ => rfl
  rw [Access.clears, fence_acquires, hq]
  simp [State.fenceAccess, State.newAccess, hw]

section
variable {s : State}

theorem mem_joinSerial (k node txn : Nat) : (k, node, txn) ∈ (s.joinSerial k node txn).scQueue ++ (s.joinSerial k node txn).scInput := by
  unfold State.joinSerial
  split <;> simp

/-- Joining the ring changes nothing but its queues and inputs. -/
theorem joinSerial_keeps (k node txn : Nat) : (s.joinSerial k node txn).access = s.access ∧ (s.joinSerial k node txn).me = s.me := by
  unfold State.joinSerial
  split <;> exact ⟨rfl, rfl⟩

theorem serialFence_joins {a : Access} (hs : a.sent = false) (ht : s.newTxn a.agent.dieNo < 65536) :
    s.serialFence a = (s.modAccess a.id fun b => { b with sent := true, txn := s.newTxn a.agent.dieNo }).joinSerial s.firstNode a.agent.dieNo
      (s.newTxn a.agent.dieNo) :=
  if_neg (by simp [hs, Nat.not_le.2 ht])

end

/-- A launched access of the strand that has the move belongs to the generation that its tile holds. -/
theorem launch_holds (s : State) (k : AccessKind) (va : Word) (n slot : Nat) (x : Access) (h : x.gen = (s.newAccess k va n slot).gen) :
    (s.launch x).here.holds x.gen = true := by
  rw [here_launch, h]
  exact Bool.or_eq_true_iff.2 (.inl (beq_self_eq_true s.here.gen))

/-- With no access in flight, the numbers in use at a die are those of before and the new access's own 0. -/
theorem newTxn_launch {s : State} {x : Access} {d y n : Nat} (ha : x.agent = .strand d y n) (ht : x.txn = 0) (hr : x.ringTxn = 0)
    (hacc : s.access = []) : (s.launch x).newTxn d = s.newTxn d := by
  have hd : x.agent.dieNo = d := by rw [ha]; rfl
  have hx := launch_access_only x hacc
  have hused : (s.launch x).txnsOf d = 0 :: s.txnsOf d := by
    unfold State.txnsOf
    rw [hx, hacc]
    split <;> simp [hd, ht, hr] <;> rfl
  rw [State.newTxn, hused, firstFree_cons_zero, State.newTxn]

/-! ### Line operations and hints -/

theorem lineAddress_eq (base : Word) (e : BitVec 9) : lineAddress base e = base + BitVec.ofInt 64 (e.toInt * 128) := by
  rw [lineAddress, sx_eq_ofInt e (by decide), BitVec.ofInt_mul]
  rfl

/-- An address that no table can translate (15 R341). -/
def State.nowhere (s : State) (va : Nat) : Prop := 2 ^ 57 ≤ va ∨ inWindow va = true ∨ (s.context s.here.part).valid = false

/-- The access of a line operation or hint. -/
def State.lineAccess (s : State) (k : AccessKind) (va slot : Nat) : Access := { s.newAccess k (BitVec.ofNat 64 va) 128 slot with plain := false }

section
variable {s : State} {k : AccessKind} {va slot : Nat}

theorem nowhere_iff : (2 ^ 57 ≤ va ∨ inWindow va = true ∨ (!(s.context (s.lineAccess k va slot).part).valid) = true) ↔ s.nowhere va := by
  rw [State.nowhere, Bool.not_eq_true']
  rfl

theorem startLine_nowhere (h : s.nowhere va) : s.startLine k va slot = s.modMe Strand.next := if_pos (nowhere_iff (k := k) (slot := slot).2 h)

theorem startLine_waits (h : ¬s.nowhere va) (he : s.tlbFind (.strand s.cur.die s.cur.site s.cur.strand) s.here.part va = none) :
    s.startLine k va slot = (s.launch (s.lineAccess k va slot)).waitWalk (s.lineAccess k va slot) := by
  refine (if_neg (mt (nowhere_iff (k := k) (slot := slot)).1 h)).trans ?_
  simp only [State.newAccess, he]
  rfl

theorem startLine_cached {e : TlbEntry} (h : ¬s.nowhere va)
    (he : s.tlbFind (.strand s.cur.die s.cur.site s.cur.strand) s.here.part va = some e) :
    s.startLine k va slot = (s.launch (s.lineAccess k va slot)).translated (s.lineAccess k va slot) e := by
  refine (if_neg (mt (nowhere_iff (k := k) (slot := slot)).1 h)).trans ?_
  simp only [State.newAccess, he]
  rfl

end

section
variable {s : State} {x : Access} {e : TlbEntry} {owner : Bool} {line : Nat}

theorem lineOp_none (h : s.hintLine x e (fun e => e.r || e.w) = none) : s.lineOp x e owner = s := by
  rw [State.lineOp, h]

theorem lineOp_evicts (h : s.hintLine x e (fun e => e.r || e.w) = some line)
    (hc : ((s.modTile x.agent.dieNo x.agent.place.2 fun t => { t with l1 := tdel t.l1 line }).cacheLine x.agent.dieNo line).tok ≠ 0)
    (ho : owner = true
      ∨ ((s.modTile x.agent.dieNo x.agent.place.2 fun t => { t with l1 := tdel t.l1 line }).cacheLine x.agent.dieNo line).own = false) :
    s.lineOp x e owner = (s.modTile x.agent.dieNo x.agent.place.2 fun t => { t with l1 := tdel t.l1 line }).evictLine x.agent.dieNo line := by
  simp only [State.lineOp, h]
  exact if_pos (by simpa using ⟨hc, ho⟩)

theorem lineOp_keeps (h : s.hintLine x e (fun e => e.r || e.w) = some line)
    (hc : ((s.modTile x.agent.dieNo x.agent.place.2 fun t => { t with l1 := tdel t.l1 line }).cacheLine x.agent.dieNo line).tok = 0
      ∨ owner = false
        ∧ ((s.modTile x.agent.dieNo x.agent.place.2 fun t => { t with l1 := tdel t.l1 line }).cacheLine x.agent.dieNo line).own = true) :
    s.lineOp x e owner = s.modTile x.agent.dieNo x.agent.place.2 fun t => { t with l1 := tdel t.l1 line } := by
  simp only [State.lineOp, h]
  exact if_neg (by rcases hc with hc | ⟨ho, hc⟩ <;> simp [*])

theorem hint_none (h : s.hintLine x e (fun e => e.r) = none) : s.hint x e = s.finish x := by
  rw [State.hint, h]

theorem hint_served (h : s.hintLine x e (fun e => e.r) = some line) (hc : (s.cacheLine x.agent.dieNo line).serves false = true) :
    s.hint x e = s.finish x := by
  simp only [State.hint, h, hc, if_true]

theorem hint_asks (h : s.hintLine x e (fun e => e.r) = some line) (hc : (s.cacheLine x.agent.dieNo line).serves false = false) :
    s.hint x e = (s.modAccess x.id fun b => { b with phase := .cache, pa := line * 128 }).openMiss x.agent.dieNo line false x.part true := by
  simp only [State.hint, h, hc, Bool.false_eq_true, if_false]

end

section
variable {s : State} {a : Reg} {e : BitVec 9} {o : Order} {owner : Bool}

/-- CFLUSH and CINV are one operation; CINV leaves the owner token. -/
theorem execLineOp_eq (s : State) (a : Reg) (e : BitVec 9) (o : Order) (owner : Bool) :
    exec (if owner then .cflush a e o else .cinv a e o) s = issueLine s a e o owner := by cases owner <;> rfl

theorem issueLine_waits (h : s.touches ((lineAddress (s.me.rd a) e).toNat / 128 * 128) 128 = true) : issueLine s a e o owner = .next s := if_pos h

theorem issueLine_starts (hi : s.readyMem [a] o = true) (h : s.touches ((lineAddress (s.me.rd a) e).toNat / 128 * 128) 128 = false) :
    issueLine s a e o owner = .next (s.startLine (.flush owner) ((lineAddress (s.me.rd a) e).toNat / 128 * 128) o.set.val) :=
  (if_neg (Bool.eq_false_iff.1 h)).trans (issueMem_ready _ hi)

theorem execPref_starts (hi : s.readyMem [a] o = true) :
    execPref a e o s = .next (s.startLine .pref ((lineAddress (s.me.rd a) e).toNat / 128 * 128) o.set.val) := issueMem_ready _ hi

end

/-- Settles O26: a fence alone in flight has taken effect; a line operation goes on with its line. -/
theorem fencesAndLineOperations : Obligations.FencesAndLineOperations := by
  unfold Obligations.FencesAndLineOperations
  intro s q c a e o
  simp only [← lineAddress_eq]
  refine ⟨fun hi hacc hr hq => ?fence, fun hi hacc hr ht => ?serial, fun hi ht owner => ?lines, fun ht => ⟨issueLine_waits ht, issueLine_waits ht⟩,
    fun hi => ?pref⟩
  case fence =>
    have hx : exec (.fence q c o) s = .next ((s.launch (s.fenceAccess q c o)).endAccess (s.fenceAccess q c o)) :=
      (execFence_issues hi).trans (congrArg _ ((settleStrand_fence hacc hr).trans (if_neg (by simpa using hq))))
    have hh := launch_holds s .fence 0 0 o.set.val (s.fenceAccess q c o) rfl
    have hme := me_endAccess rfl hh
    obtain ⟨hhbm, hhost, hwindow, hdies⟩ := endAccess_keeps rfl hh
    refine ⟨_, hx, ?none, ?pc, ?regs, ?acquires, hhbm, hhost, hwindow, hdies, fun hq hc => l1_endAccess rfl hh (fence_clears hq hc)⟩
    case none => rw [endAccess_access, launch_access_only _ hacc]; simp
    case pc => rw [hme, Strand.ended_pc, State.me_launch, Strand.issued_pc]
    case regs => rw [hme, Strand.ended_x, State.me_launch, Strand.issued_x]
    case acquires =>
      rw [hme, Strand.ended_acquires, State.me_launch, Strand.issued_acquires, Nat.add_sub_cancel]
      exact beq_iff_eq.1 (Bool.and_eq_true_iff.1 hi).2
  case serial =>
    let x := s.fenceAccess .sc c o
    have htxn : (s.launch x).newTxn s.cur.die < 65536 := (newTxn_launch (x := x) rfl rfl rfl hacc).symm ▸ ht
    have hx : exec (.fence .sc c o) s = .next ((s.launch x).serialFence x) := (execFence_issues hi).trans (congrArg _ (settleStrand_fence hacc hr))
    let t := (s.launch x).modAccess x.id fun b => { b with sent := true, txn := (s.launch x).newTxn s.cur.die }
    obtain ⟨haccess, hme⟩ := joinSerial_keeps (s := t) (s.launch x).firstNode s.cur.die ((s.launch x).newTxn s.cur.die)
    refine ⟨_, { x with sent := true, txn := (s.launch x).newTxn s.cur.die }, hx.trans (congrArg _ (serialFence_joins rfl htxn)),
      haccess.trans ?_, rfl, rfl, rfl, ?_, mem_joinSerial _ _ _⟩
    · show (s.launch x).access.map _ = _
      rw [launch_access_only x hacc, List.map_singleton, if_pos rfl]
    · refine (congrArg Strand.pc hme).trans ?_
      show (s.launch x).me.pc = _
      rw [State.me_launch, Strand.issued_pc]
  case lines =>
    have hx := (execLineOp_eq s a e o owner).trans (issueLine_starts hi ht)
    refine ⟨fun h => hx.trans (congrArg _ (startLine_nowhere h)), fun h hf => hx.trans (congrArg _ (startLine_waits h hf)), fun t h hf => ?_⟩
    have hy := hx.trans (congrArg _ (startLine_cached h hf))
    exact ⟨fun hl => hy.trans (congrArg _ (congrArg (State.finish · _) (lineOp_none hl))), fun line hl =>
      ⟨fun hc ho => hy.trans (congrArg _ (congrArg (State.finish · _) (lineOp_evicts hl hc ho))),
        fun hc => hy.trans (congrArg _ (congrArg (State.finish · _) (lineOp_keeps hl hc)))⟩⟩
  case pref =>
    have hx : exec (.pref a e o) s = _ := execPref_starts hi
    refine ⟨fun h => hx.trans (congrArg _ (startLine_nowhere h)), fun h hf => hx.trans (congrArg _ (startLine_waits h hf)), fun t h hf => ?_⟩
    have hy := hx.trans (congrArg _ (startLine_cached h hf))
    exact ⟨fun hl => hy.trans (congrArg _ (hint_none hl)), fun line hl =>
      ⟨fun hc => hy.trans (congrArg _ (hint_served hl hc)), fun hc => hy.trans (congrArg _ (hint_asks hl hc))⟩⟩

end Sys2Proof.Machine
end

section
/-! PROOFS. XLT, TLBI and the ends of walks and waits (spec 10 R240 to R250; 16 R356; 18 R434, R441). -/
namespace Sys2Proof.Machine

/-! ### XLT -/

/-- The access of an XLT. -/
def State.xltAccess (s : State) (d a : Reg) (o : Order) : Access := { s.newAccess .xlt (s.me.rd a) 1 o.set.val with dst := d, data2 := 4 }

section
variable {s : State} {d a : Reg} {o : Order}

theorem execXlt_issues (hi : s.me.ready [d, a] o = true) :
    execXlt d a o s = .next ((s.launch (s.xltAccess d a o)).startXlt (s.xltAccess d a o)) := issue_ready _ hi

variable {t : State}

theorem startXlt_outside (h : 2 ^ 57 ≤ (s.xltAccess d a o).va ∨ inWindow (s.xltAccess d a o).va = true
      ∨ (t.context (s.xltAccess d a o).part).valid = false) :
    t.startXlt (s.xltAccess d a o) = t.reply (s.xltAccess d a o) (faultWord (s.xltAccess d a o).va 5) :=
  if_pos (h.imp_right (Or.imp_right fun hc => by rw [hc]; rfl))

variable (hva : (s.xltAccess d a o).va < 2 ^ 57) (hw : inWindow (s.xltAccess d a o).va = false)
  (hc : (t.context (s.xltAccess d a o).part).valid = true)
include hva hw hc

theorem not_outside : ¬(2 ^ 57 ≤ (s.xltAccess d a o).va ∨ inWindow (s.xltAccess d a o).va = true
    ∨ (!(t.context (s.xltAccess d a o).part).valid) = true) := by
  rw [hw, hc]
  exact not_or.2 ⟨Nat.not_le.2 hva, by simp⟩

theorem startXlt_waits (h : t.tlbFind (s.xltAccess d a o).agent (s.xltAccess d a o).part (s.xltAccess d a o).va = none) :
    t.startXlt (s.xltAccess d a o) = t.waitWalk (s.xltAccess d a o) := by
  rw [State.startXlt, if_neg (not_outside hva hw hc), h]

theorem startXlt_cached {e : TlbEntry} (h : t.tlbFind (s.xltAccess d a o).agent (s.xltAccess d a o).part (s.xltAccess d a o).va = some e) :
    t.startXlt (s.xltAccess d a o) = t.answerXlt (s.xltAccess d a o) e := by
  rw [State.startXlt, if_neg (not_outside hva hw hc), h]

end

theorem answerXlt_faults {t : State} {x : Access} {e : TlbEntry} {r : Report} (hr : checkEntry t e x.part x.gkey .none x.va = some r) :
    t.answerXlt x e = t.answerWord x (faultWord x.va r.cause) := by
  rw [State.answerXlt, hr]

theorem answerXlt_pins {t : State} {x : Access} {e : TlbEntry} (hr : checkEntry t e x.part x.gkey .none x.va = none) :
    t.answerXlt x e = (t.modTile x.agent.place.1 x.agent.place.2 fun y => y.pin e).answerWord x
      (capabilityWord e (t.tile x.agent.place.1 x.agent.place.2).capNext) := by
  rw [State.answerXlt, hr]

/-! ### TLBI -/

theorem encode_tlbi (a b : Reg) : encode (.tlbi a b) = formatA 0x78 0 a.val b.val 0 0 := by
  show 4026531840 + a.val * 32768 + b.val * 1024 = _
  unfold formatA
  omega

section
variable {s : State} {a b : Reg} (hi : s.me.ready [a, b] Order.none = true)
include hi

theorem execTlbi_bad (h : (s.me.rd b).toNat < (s.me.rd a).toNat ∨ 2 ^ 57 ≤ (s.me.rd a).toNat ∨ 2 ^ 57 ≤ (s.me.rd b).toNat) :
    execTlbi a b s = .next (s.illOperand (.tlbi a b)) := by
  rw [execTlbi, issue_ready _ hi]
  exact congrArg _ (if_pos h)

theorem execTlbi_drops (hle : (s.me.rd a).toNat ≤ (s.me.rd b).toNat) (hb : (s.me.rd b).toNat < 2 ^ 57) :
    execTlbi a b s = .next ((s.modMe Strand.next).dropTranslations s.here.part (s.me.rd a).toNat (s.me.rd b).toNat) := by
  rw [execTlbi, issue_ready _ hi]
  exact congrArg _ (if_neg (by omega))

end

/-- Whether a translation of a partition overlaps a range. -/
def TlbEntry.overlaps (e : TlbEntry) (part : BitVec 4) (lo hi : Nat) : Bool := e.part == part && decide (e.vbase ≤ hi) && decide (lo < e.vbase + e.size)

theorem overlaps_iff {e : TlbEntry} {part : BitVec 4} {lo hi : Nat} :
    (!e.overlaps part lo hi) = true ↔ ¬(e.part = part ∧ e.vbase ≤ hi ∧ lo < e.vbase + e.size) := by
  rw [TlbEntry.overlaps, Bool.not_eq_true', Bool.eq_false_iff, ne_eq, Bool.and_eq_true_iff, Bool.and_eq_true_iff, beq_iff_eq, decide_eq_true_iff,
    decide_eq_true_iff, and_assoc]

/-- A tile whose translations of a range are dropped. -/
def Tile.dropped (x : Tile) (part : BitVec 4) (lo hi : Nat) : Tile :=
  { x with utlb := x.utlb.map fun l => l.filter fun e => !e.overlaps part lo hi, caps := x.caps.filter fun c => !c.2.overlaps part lo hi }

section
variable (s : State) (part : BitVec 4) (lo hi : Nat)

theorem readEntry_keeps (w : PageWalk) : (s.readEntry w).tiles = s.tiles ∧ (s.readEntry w).dies = s.dies := by
  unfold State.readEntry
  simp only
  split
  · exact ⟨rfl, rfl⟩
  · split <;> exact ⟨rfl, rfl⟩

/-- Opening a walk changes no tile and no die. -/
theorem openWalk_keeps (a : Access) : (s.openWalk a).tiles = s.tiles ∧ (s.openWalk a).dies = s.dies := by
  unfold State.openWalk
  simp only
  split
  · exact ⟨rfl, rfl⟩
  · exact readEntry_keeps _ _

theorem restartWalks_keeps : s.restartWalks.tiles = s.tiles ∧ s.restartWalks.dies = s.dies :=
  ⟨State.over_keeps State.tiles (fun x u => (openWalk_keeps u x).1) _ _, State.over_keeps State.dies (fun x u => (openWalk_keeps u x).2) _ _⟩

theorem tiles_dropTranslations : (s.dropTranslations part lo hi).tiles = s.tiles.map fun x => (x.1, x.2.dropped part lo hi) :=
  (restartWalks_keeps _).1

theorem dies_dropTranslations :
    (s.dropTranslations part lo hi).dies = s.dies.map fun f => { f with tlb := f.tlb.filter fun e => !e.overlaps part lo hi } :=
  (restartWalks_keeps _).2

theorem tget_map {α β : Type} (f : α → β) (t : Tbl α) (i : Nat) : tget (t.map fun x => (x.1, f x.2)) i = (tget t i).map f := by
  induction t with
  | nil => rfl
  | cons x t ih =>
    rw [List.map_cons, tget, tget, ih]
    split <;> rfl

theorem Tile.dropped_init : Tile.init.dropped part lo hi = Tile.init := by
  have hu : Tile.init.utlb.map (fun l => l.filter fun e => !e.overlaps part lo hi) = Tile.init.utlb := Vector.map_replicate
  rw [Tile.dropped, hu]
  rfl

theorem tile_dropTranslations (d n : Nat) : (s.dropTranslations part lo hi).tile d n = (s.tile d n).dropped part lo hi := by
  rw [State.tile, tiles_dropTranslations, tgetD, tget_map fun x => Tile.dropped x part lo hi, State.tile, tgetD]
  cases tget s.tiles (tileKey d n) with
  | none => exact (Tile.dropped_init part lo hi).symm
  | some x => rfl

theorem die_dropTranslations (d : Nat) :
    ((s.dropTranslations part lo hi).die d).tlb = (s.die d).tlb.filter fun e => !e.overlaps part lo hi := by
  rw [State.die, vget, dies_dropTranslations, State.die, vget]
  simp only [Vector.getElem_map]

end

/-! ### The end of a walk -/

/-- An access that still waits when its walk has ended ends with it. -/
def State.endWaiting (s : State) (b : Access) (r : WalkEnd) : State :=
  match s.access? b.id with
  | some b => if b.phase == .walk then s.endWait b r else s
  | none => s

section
variable {s : State} {k : Nat} {a : Access}

theorem endWaiting_waits {r : WalkEnd} (ha : s.access? a.id = some a) (hp : a.phase = .walk) : s.endWaiting a r = s.endWait a r := by
  simp only [State.endWaiting, ha, hp, beq_self_eq_true, if_true]

theorem access?_id (ha : s.access? k = some a) : a.id = k := by
  rw [State.access?] at ha
  simpa using List.find?_some ha

variable (ha : s.access? k = some a) (hp : a.phase = .walk)
include ha hp

theorem execWalkCompletion_ended {w : PageWalk} {r : WalkEnd} (hw : s.walkOf a = some w) (hr : w.result = some r) :
    execWalkCompletion k s = .next (State.over { s with walks := s.walks.filter fun x => !x.is w.node w.txn } (s.walkWaiters w)
      fun b t => t.endWaiting b r) := by
  simp only [execWalkCompletion, ha, hp, hw, hr, bne_self_eq_false, Bool.false_eq_true, if_false]
  rfl

theorem execWalkCompletion_reads {w : PageWalk} (hw : s.walkOf a = some w) (hr : w.result = none) : execWalkCompletion k s = .next s := by
  simp only [execWalkCompletion, ha, hp, hw, hr, bne_self_eq_false, Bool.false_eq_true, if_false]

variable (hw : s.walkOf a = none)
include hw

theorem execWalkCompletion_context (hc : (s.context a.part).valid = false) : execWalkCompletion k s = .next (s.endWait a .context) := by
  simp only [execWalkCompletion, ha, hp, hw, hc, bne_self_eq_false, Bool.false_eq_true, if_false, Bool.not_false, if_true]

theorem execWalkCompletion_opens (hc : (s.context a.part).valid = true) (he : s.tlbFind a.agent a.part a.walkVa = none) :
    execWalkCompletion k s = .next (s.openWalk a) := by
  simp only [execWalkCompletion, ha, hp, hw, hc, he, bne_self_eq_false, Bool.false_eq_true, if_false, Bool.not_true]

theorem execWalkCompletion_cached {e : TlbEntry} (hc : (s.context a.part).valid = true) (he : s.tlbFind a.agent a.part a.walkVa = some e) :
    execWalkCompletion k s = .next (s.translated a e) := by
  simp only [execWalkCompletion, ha, hp, hw, hc, he, bne_self_eq_false, Bool.false_eq_true, if_false, Bool.not_true]

end

/-! ### The end of a load's wait -/

section
variable {s : State} {a : Access} (hk : a.kind = .load)
include hk

theorem walkVa_load : a.walkVa = a.va := by rw [Access.walkVa, hk]

theorem failAccess_load {d t n : Nat} (ha : a.agent = .strand d t n) (r : Report) : s.failAccess a r = s.faultAccess a r := by
  simp [State.failAccess, State.failWalk, Access.isXlt, Access.quiet, Access.isGinst, hk, ha]

theorem endWait_absent : s.endWait a .notPresent = s.pageRequest a.agent.dieNo a := by
  simp [State.endWait, Access.quiet, hk]

theorem endWait_beyond {e : TlbEntry} (hb : s.beyond e a.va = true) :
    s.endWait a (.leaf e) = s.failAccess a ⟨5, 3, BitVec.ofNat 64 a.va⟩ := by
  simp [State.endWait, walkVa_load hk, hb]

theorem translated_faults {e : TlbEntry} {r : Report} (h : checkEntry s e a.part a.gkey .read a.va = some r) :
    s.translated a e = s.faultAccess a r := by
  simp only [State.translated, hk, AccessKind.need, h]

theorem translated_routes {e : TlbEntry} (h : checkEntry s e a.part a.gkey .read a.va = none) : s.translated a e = s.route a e := by
  simp only [State.translated, hk, AccessKind.need, h]

theorem endWait_leaf {e : TlbEntry} (hb : s.beyond e a.va = false) : s.endWait a (.leaf e) = (s.tlbInstall a.agent e).translated a e := by
  simp [State.endWait, walkVa_load hk, hb]

end

/-! ### Waiters -/

section
variable {s : State} {k : Nat} {a : Access} (ha : s.access? k = some a)
include ha

theorem execWaiterRetry_retries (hp : a.phase = .retry) :
    execWaiterRetry k s = .next ((s.modAccess k fun b => { b with sent := false }).enter { a with sent := false } .window) := by
  simp only [execWaiterRetry, ha]
  exact if_pos (by simp [hp])

theorem execWaiterRetry_held (hp : a.phase = .held) : execWaiterRetry k s = .next (s.serveAll (queueBase (a.va - windowBase))) := by
  simp only [execWaiterRetry, ha]
  exact (if_neg (by simp [hp])).trans (if_pos (by simp [hp]))

theorem execWaiterRetry_waits (hp : a.phase = .waiter) (he : isEdge a.op = false) : execWaiterRetry k s = .next s := by
  simp only [execWaiterRetry, ha]
  exact (if_neg (by simp [hp])).trans (if_neg (by simp [hp, he]))

end

/-- Settles O29: what XLT and TLBI issue, what a dropped range leaves, and what each end of a walk or wait does. -/
theorem xltAndTlbi : Obligations.XltAndTlbi := by
  unfold Obligations.XltAndTlbi
  refine ⟨fun s d a o hi => ?xlt, fun s a b hi => ?tlbi, fun s part lo hi d n e => ?drops, fun s k a w ha hp hw => ?walk,
    fun s k a ha hp hw => ⟨execWalkCompletion_context ha hp hw, execWalkCompletion_opens ha hp hw, fun e hc he =>
      execWalkCompletion_cached ha hp hw hc he⟩, fun s a hk => ?load,
    fun s k a ha => ⟨execWaiterRetry_retries ha, execWaiterRetry_held ha, execWaiterRetry_waits ha⟩⟩
  case xlt =>
    have hx := execXlt_issues hi
    exact ⟨fun h => hx.trans (congrArg _ (startXlt_outside h)), fun hva hw hc => ⟨fun h => hx.trans (congrArg _ (startXlt_waits hva hw hc h)),
      fun e r h hr => hx.trans (congrArg _ ((startXlt_cached hva hw hc h).trans (answerXlt_faults hr))),
      fun e h hr => hx.trans (congrArg _ ((startXlt_cached hva hw hc h).trans (answerXlt_pins hr)))⟩⟩
  case tlbi =>
    refine ⟨fun h => (execTlbi_bad hi h).trans ?_, fun hle hb => execTlbi_drops hi hle hb⟩
    rw [State.illOperand, encode_tlbi]
  case drops =>
    rw [die_dropTranslations, tile_dropTranslations]
    refine ⟨?_, fun g => ?_, fun k => ?_⟩
    · rw [List.mem_filter, overlaps_iff]
    · simp only [Tile.dropped, vget, Vector.getElem_map]
      rw [List.mem_filter, overlaps_iff]
    · simp only [Tile.dropped]
      rw [List.mem_filter, overlaps_iff]
  case walk =>
    refine ⟨fun r hr hx => ?_, fun r hr => (execWalkCompletion_ended ha hp hw hr).trans ?_, execWalkCompletion_reads ha hp hw⟩
    · refine (execWalkCompletion_ended ha hp hw hr).trans ?_
      rw [hx]
      exact congrArg _ (endWaiting_waits (by rw [access?_id ha]; exact ha) hp)
    · refine congrArg _ (congrArg _ ?_)
      funext b t
      cases hb : t.access? b.id with
      | none => simp only [State.endWaiting, hb]
      | some b => simp only [State.endWaiting, hb, beq_iff_eq]
  case load =>
    refine ⟨fun d t n hg => ?faults, endWait_absent hk, fun e => ⟨fun d t n hg hb => (endWait_beyond hk hb).trans (failAccess_load hk hg _), fun hb => ?leaf⟩⟩
    case faults =>
      have hfail := fun r => failAccess_load (s := s) hk hg r
      rw [State.endWait, State.endWait, State.endWait, walkVa_load hk]
      exact ⟨hfail _, hfail _, hfail _⟩
    case leaf =>
      refine (endWait_leaf hk hb).trans ?_
      cases hc : checkEntry (s.tlbInstall a.agent e) e a.part a.gkey .read a.va with
      | none => exact translated_routes hk hc
      | some r => exact translated_faults hk hc

end Sys2Proof.Machine
end

section
/-! PROOFS. The results of firings (spec 05 R117, R119, R124; 15 to 18, the grid's entries): each opcode is a firing whose operation gives its result. -/
namespace Sys2Proof.Machine

/-! ### Firings that only give a result -/

/-- Poison in an operand is poison in the result. -/
theorem Ctx.result_psn_of_flagPoison {c : Ctx} {op : Nat} (h : c.flagPoison op = true) : bothHalves (c.a.psn != 0 || c.b.psn != 0) ≠ 0 := by
  have hbad : (c.a.psn != 0 || c.b.psn != 0) = true := by
    simp only [Ctx.flagPoison, Bool.and_eq_true] at h
    exact h.1.1.1.2
  rw [hbad]
  exact of_decide_eq_true (p := bothHalves true ≠ 0) rfl

/-- Where PACT takes the flag, a firing whose result is then free of poison took none as a flag. -/
theorem Ctx.flagPoison_of_clean {c : Ctx} {op : Nat} {psn : BitVec 2} (hpsn : c.flagPoison op = true → psn ≠ 0)
    (hp : c.f.pact = 3 → psn ≠ 0 → constantFlag op = true) : c.flagPoison op = false := by
  rw [Bool.eq_false_iff]
  intro h
  have hflag := h
  simp only [Ctx.flagPoison, Bool.and_eq_true, beq_iff_eq, Bool.not_eq_true'] at hflag
  have hconst := hp hflag.1.1.1.1 (hpsn h)
  rw [hflag.1.1.2] at hconst
  exact Bool.noConfusion hconst

/-- Poison of an operand is poison of what takes the poison of both operands and of something else. -/
theorem Ctx.bothHalves_of_flagPoison {c : Ctx} {op : Nat} (h : c.flagPoison op = true) (b : Bool) :
    bothHalves (c.a.psn != 0 || c.b.psn != 0 || b) ≠ 0 := by
  have hbad := Ctx.result_psn_of_flagPoison h
  revert hbad
  cases c.a.psn != 0 || c.b.psn != 0 with
  | false => exact fun hbad => absurd rfl hbad
  | true => exact id

/-- An opcode whose flag is a constant consumes no poison by it. -/
theorem Ctx.no_flagPoison {c : Ctx} {op : Nat} (h : constantFlag op = true) {P : Prop} (hf : c.flagPoison op = true) : P :=
  (Bool.false_ne_true ((c.flagPoison_constant h).symm.trans hf)).elim

/-- A firing with a result and what it does beside it. -/
theorem fire_result {s : State} {op : Nat} {f : PeWord} {go : Ctx → Firing} {r : Fired} {after : State → Nat → State}
    (hfire : s.fires op f = true) (ha : (s.firingCtx op f (op == 0x16)).a.ok = true)
    (hb : (s.firingCtx op f (op == 0x16)).b.ok = true) (hgo : go (s.firingCtx op f (op == 0x16)) = .done r after)
    (hpsn : (s.firingCtx op f (op == 0x16)).flagPoison op = true → r.psn ≠ 0) (hp : f.pact = 3 → r.psn ≠ 0 → constantFlag op = true) :
    fire op f s go = .next (after (s.applyFiring (s.firingCtx op f (op == 0x16)) r (if op = 0x16 then [f.sb.val - 8] else [])).1
      (s.applyFiring (s.firingCtx op f (op == 0x16)) r (if op = 0x16 then [f.sb.val - 8] else [])).2) :=
  fire_done op f s go r after hfire ha hb (Ctx.flagPoison_of_clean hpsn hp) hgo hp

section
variable {i : Instr} {op : Nat} {f : PeWord} {go : Ctx → Firing}

/-- An opcode whose operation gives a result `r` that is poisoned where it would take a poisoned flag. -/
theorem firingResult_of {r : Ctx → Fired} (hexec : ∀ s, exec i s = fire op f s go) (hgo : ∀ c, go c = .done (r c) fun s _ => s)
    (hpsn : ∀ s : State, (s.firingCtx op f (op == 0x16)).flagPoison op = true → (r (s.firingCtx op f (op == 0x16))).psn ≠ 0) :
    FiringResult i op f r := fun s hfire ha hb hp => (hexec s).trans (fire_result hfire ha hb (hgo _) (hpsn s) hp)

/-- An opcode whose result has the poison of its operands. -/
theorem firingResult_of_done {word : Ctx → QWord} {flag : Ctx → Bool} (hexec : ∀ s, exec i s = fire op f s go)
    (hgo : ∀ c, go c = c.done (word c) (flag c)) : FiringResult i op f fun c => c.result (word c) (flag c) :=
  firingResult_of hexec hgo fun _ h => Ctx.result_psn_of_flagPoison h

/-- An opcode whose result is a word of lanes. -/
theorem laneResult_of {P : Ctx → Nat → Nat → Prop} {g : Ctx → QWord → Bool} {word : Ctx → QWord} (hop : (op == 0x16) = false)
    (hexec : ∀ s, exec i s = fire op f s go) (hgo : ∀ c, go c = c.done (word c) (g c (word c)))
    (hP : ∀ c, ∀ n < c.fmt.lanes, P c n (lane c.fmt (word c) n)) : LaneResult i op f P g := by
  intro s hfire c ha hb hp
  have hres := firingResult_of_done hexec hgo s hfire
  simp only [hop, if_neg (beq_eq_false_iff_ne.1 hop)] at hres
  exact ⟨word c, hP c, hres ha hb hp⟩

end

/-! ### Moves and logic -/

theorem execSteer_eq (w : PeWord) (s : State) : execSteer w s = fire 0x1F w s fun c =>
    .done { c.result c.a.word (lane c.fmt c.b.word 0 != 0) with dst := if lane c.fmt c.b.word 0 ≠ 0 then 8 else 9 } fun s _ => s := by
  simp only [execSteer, bne_iff_ne]

/-- MERGE of two different queues. -/
theorem execMerge_queues {w : PeWord} (s : State) (ha : isQueue w.sa = true) (hb : isQueue w.sb = true) (hne : w.sa ≠ w.sb) :
    execMerge w s = fire 0x20 w s fun c =>
      let useB := cmpLane c.fmt (lane c.fmt c.a.word 0) (lane c.fmt c.b.word 0) == 2
      .done { c.result (if useB then c.b.word else c.a.word) useB with
        tag := some ((if useB then c.b.tag else c.a.tag).getD 0), keep := [if useB then w.sa.val - 8 else w.sb.val - 8] } fun s _ => s := by
  have htwo : (isQueue w.sa && isQueue w.sb && w.sa != w.sb) = true := by rw [ha, hb, bne_iff_ne.2 hne]; rfl
  have hsame : (isQueue w.sa && w.sa == w.sb) = false := by rw [beq_false_of_ne hne, Bool.and_false]
  simp only [execMerge, htwo, hsame, Bool.not_false, Bool.true_and, if_true]
  congr 1
  funext c
  split <;> rfl

/-- Settles O37: each opcode's word, lane by lane where the statement speaks of lanes. -/
theorem gridMovesAndLogic : Obligations.GridMovesAndLogic := by
  unfold Obligations.GridMovesAndLogic
  intro w
  refine ⟨firingResult_of_done (fun _ => rfl) fun _ => rfl, ?move, ?dup, ?bcst, ?shuf, firingResult_of_done (fun _ => rfl) fun _ => rfl,
    firingResult_of_done (fun _ => rfl) fun _ => rfl, firingResult_of_done (fun _ => rfl) fun _ => rfl,
    firingResult_of_done (fun _ => rfl) fun _ => rfl, ?sel, ?tag, ?steer, ?merge⟩
  case move =>
    refine firingResult_of (fun _ => rfl) (fun _ => rfl) fun s h ha => ?_
    have hb : (s.firingCtx 1 w false).b.psn = 0 := rfl
    exact Bool.false_ne_true ((Ctx.flagPoison_clean _ 1 ha hb).symm.trans h)
  case dup => exact laneResult_of rfl (fun _ => rfl) (fun _ => rfl) fun c n hn => lane_ofRange _ _ n hn
  case bcst => exact laneResult_of rfl (fun _ => rfl) (fun _ => rfl) fun c n hn => lane_ofRange _ _ n hn
  case shuf => exact laneResult_of rfl (fun _ => rfl) (fun _ => rfl) fun c n hn => lane_ofRange _ _ n hn
  case sel => exact firingResult_of (fun _ => rfl) (fun _ => rfl) fun _ h => Ctx.bothHalves_of_flagPoison h _
  case tag =>
    intro s hfire c ha hb hclean
    change execTag w s = _
    exact .trans (fire_result (op := 0x1E) hfire ha hb (if_neg (Bool.eq_false_iff.1 hclean)) (Ctx.no_flagPoison rfl) fun _ _ => rfl) rfl
  case steer => exact firingResult_of (fun s => execSteer_eq w s) (fun _ => rfl) fun _ h => Ctx.result_psn_of_flagPoison h
  case merge =>
    intro ha hb hne
    exact firingResult_of (fun s => execMerge_queues s ha hb hne) (fun _ => rfl) fun _ h => Ctx.result_psn_of_flagPoison h

end Sys2Proof.Machine
end

section
/-! PROOFS. Arithmetic of firings (spec 07 R181, R186; 15 R320, R322, R344; 16 R359; 17 R381, R386, R397, R407; 18 R421, R428). -/
namespace Sys2Proof.Machine

/-! ### Integer lanes -/

section
variable {f : Format} (h : f.isInt = true) (r : Rounding) (a b : Nat)
include h

theorem addLane_int : addLane f r a b = (a + b) % 2 ^ f.width := by
  rw [addLane, if_pos h, wrapLane, laneInt, laneInt, BitVec.ofInt_add, BitVec.ofInt_toInt, BitVec.ofInt_toInt, ← BitVec.ofNat_add,
    BitVec.toNat_ofNat]

theorem mulLane_int : mulLane f r a b = a * b % 2 ^ f.width := by
  rw [mulLane, if_pos h, wrapLane, laneInt, laneInt, BitVec.ofInt_mul, BitVec.ofInt_toInt, BitVec.ofInt_toInt, ← BitVec.ofNat_mul,
    BitVec.toNat_ofNat]

/-- The difference and the subtrahend add up to the minuend. -/
theorem subLane_int : (subLane f r a b + b) % 2 ^ f.width = a % 2 ^ f.width := by
  have hsub : BitVec.ofNat f.width (subLane f r a b) = BitVec.ofNat f.width a - BitVec.ofNat f.width b := by
    rw [subLane, if_pos h, wrapLane, laneInt, laneInt, Int.sub_eq_add_neg, BitVec.ofInt_add, BitVec.ofInt_neg, BitVec.ofInt_toInt,
      BitVec.ofInt_toInt, BitVec.ofNat_toNat, BitVec.setWidth_eq, BitVec.sub_eq_add_neg]
  have hadd : BitVec.ofNat f.width (subLane f r a b + b) = BitVec.ofNat f.width a := by
    rw [BitVec.ofNat_add, hsub, BitVec.sub_add_cancel]
  simpa only [BitVec.toNat_ofNat] using congrArg BitVec.toNat hadd

end

theorem lane_lt (f : Format) (w : QWord) (n : Nat) : lane f w n < 2 ^ f.width := bits_lt _ _ _

/-! ### Opcodes of one shape -/

section
variable {i : Instr} {op : Nat} {w : PeWord} (hop : (op == 0x16) = false)
include hop

theorem laneResult_pair {g : Format → Rounding → Nat → Nat → Nat} {P : Ctx → Nat → Nat → Prop} (hexec : ∀ s, exec i s = firePair op w s g)
    (hP : ∀ c : Ctx, ∀ n, P c n (g c.fmt c.mode (lane c.fmt c.a.word n) (lane c.fmt c.b.word n) % 2 ^ c.fmt.width)) :
    LaneResult i op w P fun c r => laneZero c.fmt (lane c.fmt r 0) :=
  laneResult_of hop hexec (fun _ => rfl) fun c n hn => by rw [lane_zipLanes _ _ _ _ n hn]; exact hP c n

theorem laneResult_minMax {max : Bool} (hexec : ∀ s, exec i s = fireMinMax op w s max) :
    LaneResult i op w (fun c n v => v = minMaxLane c.fmt max (lane c.fmt c.a.word n) (lane c.fmt c.b.word n) % 2 ^ c.fmt.width)
      fun c _ => takesB c.fmt max (lane c.fmt c.a.word 0) (lane c.fmt c.b.word 0) :=
  laneResult_of hop hexec (fun _ => rfl) fun _ n hn => lane_zipLanes _ _ _ _ n hn

theorem laneResult_shift {g : Nat → Nat → Nat → Nat} {P : Ctx → Nat → Nat → Prop} (hexec : ∀ s, exec i s = fireShift op w s g)
    (hP : ∀ c : Ctx, ∀ n, P c n (g c.fmt.width (lane c.fmt c.a.word n) (lane c.fmt c.b.word n % c.fmt.width) % 2 ^ c.fmt.width)) :
    LaneResult i op w P fun c r => lane c.fmt r 0 == 0 :=
  laneResult_of hop hexec (fun _ => rfl) fun c n hn => by rw [lane_zipLanes _ _ _ _ n hn]; exact hP c n

end

/-- FMA and FMS: the result has the poison of the third operand too. -/
theorem firingResult_fused {i : Instr} {op : Nat} {w : PeWord} {neg : Bool} (hexec : ∀ s, exec i s = fireFused op w s neg) :
    FiringResult i op w fun c =>
      let r := ofLanes c.fmt ((List.range c.fmt.lanes).map fun n =>
        fmaLane c.fmt c.mode neg (lane c.fmt c.a.word n) (lane c.fmt c.b.word n) (lane c.fmt c.c n))
      { c.result r (laneZero c.fmt (lane c.fmt r 0)) with psn := bothHalves (c.a.psn != 0 || c.b.psn != 0 || c.cPsn) } :=
  firingResult_of hexec (fun _ => rfl) fun _ h => Ctx.bothHalves_of_flagPoison h _

theorem firingResult_sign {i : Instr} {op : Nat} {w : PeWord} {g : Format → Nat → Nat × Bool} {ofResult : Bool}
    (hexec : ∀ s, exec i s = fireSign op w s g ofResult) :
    FiringResult i op w fun c =>
      let r := ofLanes c.fmt ((List.range c.fmt.lanes).map fun n => (g c.fmt (lane c.fmt c.a.word n)).1)
      { c.result r ((lane c.fmt (if ofResult then r else c.a.word) 0).testBit (c.fmt.width - 1)) with
        sat := (List.range c.fmt.lanes).any fun n => (g c.fmt (lane c.fmt c.a.word n)).2 } :=
  firingResult_of hexec (fun c => by simp only [List.map_map, List.any_map]; rfl) fun _ h => Ctx.result_psn_of_flagPoison h

/-- Settles O38: the lanes of each opcode, integer lanes modulo 2^width. -/
theorem gridArithmetic : Obligations.GridArithmetic := by
  unfold Obligations.GridArithmetic
  intro w
  refine ⟨?add, ?sub, ?mul, laneResult_minMax rfl fun _ => rfl, laneResult_minMax rfl fun _ => rfl, ?cmp, ?shl, ?shr, ?sra, ?fused,
    firingResult_sign (g := absLane) (ofResult := false) fun _ => rfl, firingResult_sign (g := negLane) (ofResult := true) fun _ => rfl, ?red⟩
  case add => exact laneResult_pair (g := addLane) rfl (fun _ => rfl) fun c n => ⟨rfl, fun h => by rw [addLane_int h, Nat.mod_mod]⟩
  case sub => exact laneResult_pair (g := subLane) rfl (fun _ => rfl) fun c n => ⟨rfl, fun h => by rw [Nat.mod_add_mod, subLane_int h]⟩
  case mul => exact laneResult_pair (g := mulLane) rfl (fun _ => rfl) fun c n => ⟨rfl, fun h => by rw [mulLane_int h, Nat.mod_mod]⟩
  case cmp => exact laneResult_of rfl (fun _ => rfl) (fun _ => rfl) fun _ n hn => lane_zipLanes _ _ _ _ n hn
  case shl => exact laneResult_shift (g := fun _ a k => a * 2 ^ k) rfl (fun _ => rfl) fun _ _ => rfl
  case shr =>
    exact laneResult_shift (g := fun _ a k => a / 2 ^ k) rfl (fun _ => rfl) fun _ _ =>
      Nat.mod_eq_of_lt ((Nat.div_le_self _ _).trans_lt (lane_lt _ _ _))
  case sra =>
    exact laneResult_shift (g := fun n a k => ((BitVec.ofNat n a).sshiftRight k).toNat) rfl (fun _ => rfl) fun _ _ =>
      Nat.mod_eq_of_lt (BitVec.isLt _)
  case fused =>
    intro neg
    cases neg <;> exact firingResult_fused fun _ => rfl
  case red =>
    intro s hfire c k r ha hb hk hp
    change execRed w s = _
    exact .trans (fire_result (op := 0x1B) hfire ha hb (if_neg (Nat.not_lt.2 hk)) Ctx.result_psn_of_flagPoison fun h3 hr => absurd (hp h3) hr) rfl

end Sys2Proof.Machine
end

section
/-! PROOFS. Conversions and functions of firings (spec 15 R350, R351; 16 R357; 05 R119, R124). -/
namespace Sys2Proof.Machine

/-! ### CVT and CVTS (15 R350, R351) -/

/-- The lanes that CVT converts into `t`: those of the part that the control word names. -/
def Ctx.converted (c : Ctx) (t : Format) : List (Nat × Bool) :=
  (List.range (min c.fmt.lanes t.lanes)).map fun j =>
    let i := bits (bits c.b.word.toNat 0 32) 4 2 * min c.fmt.lanes t.lanes + j
    if i < c.fmt.lanes then convert c.fmt t c.mode (lane c.fmt c.a.word i) else (0, false)

/-- The lanes that CVTS rounds into format `tf`, each with a random lane of b. -/
def Ctx.rounded (c : Ctx) (tf : Nat) : List (Nat × Bool) :=
  (List.range c.fmt.lanes).map fun i =>
    let r := if c.fmt.lanes = 4 then bits c.b.word.toNat (32 * i) 32 else bits c.b.word.toNat (16 * i) 16 * 2 ^ 16
    toFormat (laneFormat tf) (.stochastic r) (decodeVal c.fmt (lane c.fmt c.a.word i))

/-- The result of a conversion: its lanes in the target format, the flag and SAT where one saturated or overflowed. -/
def Ctx.conversion (c : Ctx) (t : Format) (l : List (Nat × Bool)) : Fired :=
  { c.result (ofLanes t (l.map (·.1))) (l.any (·.2)) with sat := l.any (·.2) }

/-- CVT as a firing: what it does with a good control word and with a bad one. -/
theorem execCvt_eq_fire (w : PeWord) (s : State) : ∃ go, execCvt w s = fire 0x15 w s go
    ∧ (∀ (c : Ctx) (t : Format), Format.ofCode (bits (bits c.b.word.toNat 0 32) 0 4) = some t → bits (bits c.b.word.toNat 0 32) 6 26 = 0 →
      go c = .done (c.conversion t (c.converted t)) fun s _ => s)
    ∧ ∀ c : Ctx, Format.ofCode (bits (bits c.b.word.toNat 0 32) 0 4) = none ∨ bits (bits c.b.word.toNat 0 32) 6 26 ≠ 0 → go c = .pairing := by
  refine ⟨_, rfl, fun c t hcode hzero => ?_, fun c hbad => ?_⟩
  · simp only [hcode, hzero, ne_eq, not_true_eq_false, if_false]
    rfl
  · rcases hbad with hcode | hone
    · simp only [hcode]
    · simp only [if_pos hone]
      split <;> rfl

/-- CVTS as a firing, into a narrower float format that is not the operand's own. -/
theorem execCvts_eq_fire (w : PeWord) (s : State) : ∃ go, execCvts w s = fire 0x16 w s go
    ∧ ∀ c : Ctx, bits (c.p.vcEntry (c.b.tag.getD 0)) 12 4 ∈ [1, 2, 7, 8, 9] → bits (c.p.vcEntry (c.b.tag.getD 0)) 12 4 ≠ w.lt.val →
      go c = .done (c.conversion (laneFormat (bits (c.p.vcEntry (c.b.tag.getD 0)) 12 4)) (c.rounded (bits (c.p.vcEntry (c.b.tag.getD 0)) 12 4)))
        fun s _ => s := by
  refine ⟨_, rfl, fun c hmem hne => if_neg ?_⟩
  simp only [List.mem_cons, List.not_mem_nil, or_false] at hmem
  simp only [Bool.or_eq_true, Bool.not_eq_true', beq_eq_false_iff_ne, beq_iff_eq, Bool.or_eq_false_iff, hne, or_false]
  tauto

/-- Where PACT takes the flag of an opcode that computes it, a result free of poison says that the operands are. -/
theorem Ctx.flagPoison_of_result {c : Ctx} {op : Nat} {w : QWord} {flag : Bool} (h : c.f.pact = 3 → (c.result w flag).psn = 0) :
    c.flagPoison op = false :=
  Ctx.flagPoison_of_clean Ctx.result_psn_of_flagPoison fun h3 hr => absurd (h h3) hr

/-- Settles O39: a conversion that its control word or tag admits, one that CVT's control word refuses, and the functions. -/
theorem gridConversionsAndFunctions : Obligations.GridConversionsAndFunctions := by
  unfold Obligations.GridConversionsAndFunctions
  intro w
  refine ⟨?converts, ?refuses, ?rounds, ?functions⟩
  case converts =>
    intro s t hfire c k l ha hb hcode hzero hp
    obtain ⟨go, he, hgo, -⟩ := execCvt_eq_fire w s
    exact .trans he (fire_result (op := 0x15) hfire ha hb (hgo c t hcode hzero) Ctx.result_psn_of_flagPoison fun h3 hr => absurd (hp h3) hr)
  case refuses =>
    intro s hfire c k ha hb hbad hp
    obtain ⟨go, he, -, hgo⟩ := execCvt_eq_fire w s
    have hpoison : c.badPoison 0x15 (go c) = false := by
      rw [hgo c hbad, Ctx.badPoison, Ctx.flagPoison_of_result (c := c) hp]
      rfl
    have hpair : c.badPair (go c) = true := by
      rw [hgo c hbad]
      exact Bool.or_true _
    exact .trans he (fire_pairing 0x15 w s go hfire hpair hpoison)
  case rounds =>
    intro s hfire c tf l ha hb hmem hne hp
    obtain ⟨go, he, hgo⟩ := execCvts_eq_fire w s
    exact .trans he (fire_result (op := 0x16) hfire ha hb (hgo c hmem hne) Ctx.result_psn_of_flagPoison fun h3 hr => absurd (hp h3) hr)
  case functions =>
    intro x hx
    fin_cases hx <;> exact firingResult_of (fun _ => rfl) (fun _ => rfl) fun _ h => Ctx.result_psn_of_flagPoison h

end Sys2Proof.Machine
end

section
/-! PROOFS. Memory nodes of the grid (spec 17 R378, R379, R383; 18 R442; 16 R354; 11 R230, R260). -/
namespace Sys2Proof.Machine

/-- The flags of MAMO and MTAS are no poison of their operands. -/
theorem Ctx.flagPoison_of_atomic {c : Ctx} {op : Nat} (h : op = 0x26 ∨ op = 0x27) : c.flagPoison op = false := by
  rw [Bool.eq_false_iff]
  intro hf
  simp only [Ctx.flagPoison, Bool.and_eq_true, bne_iff_ne] at hf
  obtain ⟨⟨-, hmamo⟩, hmtas⟩ := hf
  exact h.elim hmamo hmtas

/-- A poison bit for both halves stands where the bit does. -/
theorem eq_true_of_bothHalves {b : Bool} (h : bothHalves b ≠ 0) : b = true := by
  cases b with
  | false => exact absurd rfl h
  | true => rfl

section
variable {op : Nat} {w : PeWord} {s : State} {bytes : QWord → Nat} {malformed : QWord → Bool} {o : QWord → AtomicOp} {data : Ctx → Word}
  {kind : Nat} {failFlag : Bool} (hop : op = 0x26 ∨ op = 0x27) (hfire : s.fires op w = true) (ha : (s.firingCtx op w false).a.ok = true)
  (hb : (s.firingCtx op w false).b.ok = true) (hlow : (s.firingCtx op w false).a.psn.getLsbD 0 = false)
  (hp : w.pact = 3 → (s.firingCtx op w false).a.psn.getLsbD 1 = false)
include hop hfire ha hb hlow hp

/-- A status other than 0 is the result. -/
theorem fireAtomic_status {st : Nat}
    (hst : s.windowStatus (s.firingCtx op w false).tile.part (bits (s.firingCtx op w false).a.word.toNat 0 64)
      (bytes (s.firingCtx op w false).a.word) (malformed (s.firingCtx op w false).a.word) = st) (hne : st ≠ 0) :
    let c := s.firingCtx op w false
    fireAtomic op w s bytes malformed o data kind failFlag = .next (s.applyFiring c
      { c.result (BitVec.ofNat 128 (st * 2 ^ 64)) failFlag with psn := bothHalves (c.a.psn.getLsbD 1), delay := some 0 } []).1 := by
  subst hst
  have hflag := Ctx.flagPoison_of_atomic (c := s.firingCtx op w false) hop
  rcases hop with rfl | rfl <;>
    exact .trans (fire_done _ w s _ _ _ hfire ha hb hflag ((if_neg (Bool.eq_false_iff.1 hlow)).trans (if_pos hne)) fun h3 hr =>
      absurd (eq_true_of_bothHalves hr) (Bool.eq_false_iff.1 (hp h3))) rfl

/-- Otherwise the operation is sent and its result is reserved. -/
theorem fireAtomic_sent 
    (hst : s.windowStatus (s.firingCtx op w false).tile.part (bits (s.firingCtx op w false).a.word.toNat 0 64)
      (bytes (s.firingCtx op w false).a.word) (malformed (s.firingCtx op w false).a.word) = 0) :
    let c := s.firingCtx op w false
    let r := s.applyFiring c { c.result 0 false with psn := bothHalves (c.a.psn.getLsbD 1), delay := some kind } []
    fireAtomic op w s bytes malformed o data kind failFlag = .next (r.1.gridWindow c r.2 (bits c.a.word.toNat 0 64) (bytes c.a.word)
      (o c.a.word) (data c) (c.b.psn.getLsbD 0 || c.a.psn.getLsbD 1)) := by
  have hflag := Ctx.flagPoison_of_atomic (c := s.firingCtx op w false) hop
  rcases hop with rfl | rfl <;>
    exact .trans (fire_done _ w s _ _ _ hfire ha hb hflag ((if_neg (Bool.eq_false_iff.1 hlow)).trans (if_neg (not_not.2 hst))) fun h3 hr =>
      absurd (eq_true_of_bothHalves hr) (Bool.eq_false_iff.1 (hp h3))) rfl

end

/-- Settles O41: each memory node as a firing with an address that is not poisoned, and ENDK. -/
theorem gridMemoryNodes : Obligations.GridMemoryNodes := by
  unfold Obligations.GridMemoryNodes
  intro s w
  refine ⟨?mld, ?mst, ?mamo, ?mtas, ?xltn, ?endk⟩
  case mld =>
    intro hfire c t o v p ha hb hlow hp u
    have hflag : c.flagPoison 0x24 = false := Ctx.flagPoison_of_result (w := 0) (flag := false) fun h3 => Ctx.result_psn_of_clean _ _ _ (hp h3).1 rfl
    change execMld w s = _
    exact .trans (fire_done 0x24 w s _ _ _ hfire ha hb hflag (if_neg (Bool.eq_false_iff.1 hlow)) fun h3 hr => absurd (hp h3).2 hr) rfl
  case mst =>
    intro hfire c o b ha hb hlow
    exact execMst_writes hfire ha hb hlow
  case mamo =>
    intro hfire c a va bytes st bad ha hb hlow hp
    exact ⟨fun hst => .trans (b := execMamo w s) rfl (fireAtomic_status (.inl rfl) hfire ha hb hlow hp rfl hst),
      fun hst => .trans (b := execMamo w s) rfl (fireAtomic_sent (.inl rfl) hfire ha hb hlow hp hst)⟩
  case mtas =>
    intro hfire c a va st bad ha hb hlow hp
    exact ⟨fun hst => .trans (b := execMtas w s) rfl (fireAtomic_status (.inr rfl) hfire ha hb hlow hp rfl hst),
      fun hst => .trans (b := execMtas w s) rfl (fireAtomic_sent (.inr rfl) hfire ha hb hlow hp hst)⟩
  case xltn =>
    intro hfire c r ha hb hlow hp
    have hclean : w.pact = 3 → (c.result 0 false).psn = 0 := fun h3 => Ctx.result_psn_of_clean _ _ _ (hp h3) rfl
    change ∃ x : Access, _ ∧ _ ∧ _ ∧ _ ∧ _ ∧ _ ∧ _ ∧ execXltn w s = _
    refine ⟨_, ?_, ?_, ?_, ?_, ?_, ?_, ?_, .trans (fire_done 0x28 w s _ _ _ hfire ha hb (Ctx.flagPoison_of_result hclean)
      (if_neg (Bool.eq_false_iff.1 hlow)) fun h3 hr => absurd (hclean h3) hr) rfl⟩ <;> rfl
  case endk =>
    intro hfire c t u ha hb
    have hexec : exec (.endk w) s = .next (if c.p.switched then u else match c.tile.succ with
        | some n => u.startSuccessor u.cur.die n
        | none => u) := by
      change execEndk w s = _
      exact .trans (fire_done 0x2A w s _ _ _ hfire ha hb (c.flagPoison_constant rfl) rfl fun _ _ => rfl) rfl
    rw [hexec]
    refine ⟨?alone, ?succeeds⟩
    case alone =>
      intro h
      cases hs : c.p.switched with
      | true => rfl
      | false =>
        rcases h with h | h
        · cases hs.symm.trans h
        · simp only [h, Bool.false_eq_true, if_false]
    case succeeds =>
      intro n hs hn
      simp only [hs, hn, Bool.false_eq_true, if_false]

end Sys2Proof.Machine
end

section
/-! PROOFS. Sensors, accounts, checkpoints, bundles, boot, power, memory errors, lost dies and sites (spec 11 R261, R262, R269; 12 R280; 13 R281
to R289; 03 R61; 01 R12, R23). -/
namespace Sys2Proof.Machine

theorem lget_eq_getElem? {α : Type} (l : List α) (i : Nat) : lget l i = l[i]? := by
  induction l generalizing i with
  | nil => rfl
  | cons x l ih =>
    cases i with
    | zero => rfl
    | succ i => rw [lget, ih, List.getElem?_cons_succ]

/-! ### What static energy is divided by (13 R285, R286) -/

/-- On the Plinth's node the house account pays alone. -/
theorem staticShares_plinth (s : State) {r : RailInput} (h : r.node = 16) : s.staticShares r = List.replicate 16 0 ++ [1] := by
  have hfabric : ¬r.node < 8 := by omega
  simp only [State.staticShares, if_neg hfabric, if_pos h]
  rfl

/-- On a memory die a partition pays by the pages that it owns. -/
theorem staticShares_memory (s : State) {r : RailInput} (hfabric : 8 ≤ r.node) (hplinth : r.node ≠ 16) {a : Nat} (ha : a < 16) :
    lget (s.staticShares r) a = some ((s.ownedPages (BitVec.ofNat 4 a) : Nat) : Rat) := by
  simp only [State.staticShares, if_neg (Nat.not_lt.2 hfabric), if_neg hplinth, lget_eq_getElem?, List.getElem?_map,
    List.getElem?_range (Nat.lt_succ_of_lt ha), Option.map_some, if_pos ha]

/-! ### Checkpoints (13 R289) -/

/-- The records of a checkpoint after `n` always-on cycles are made. -/
def State.recordsMade (s : State) (n : Nat) : State :=
  s.modPlinth fun p => { p with
    records := p.records ++ p.accounts.mapIdx fun a c => c.record a n p.lastTs
    accounts := p.accounts.mapIdx fun a c => c.recorded (c.record a n p.lastTs), unrecorded := none }

theorem makeRecords_none {s : State} (h : s.plinth.unrecorded = none) : s.makeRecords = s := by
  rw [State.makeRecords, h]

/-- What is due is recorded. -/
theorem makeRecords_some {s : State} {n : Nat} (h : s.plinth.unrecorded = some n) : s.makeRecords = s.recordsMade n := by
  simp only [State.makeRecords, h, State.recordsMade]

/-- A checkpoint stores what the records that were due leave, and then its own are due or made. -/
theorem execCheckpoint_eq {s u : State} (h : s.makeRecords = u) (cycles : Nat) : execCheckpoint false cycles s = .next (u.storeAccounts cycles)
    ∧ execCheckpoint true cycles s = .next ((u.storeAccounts cycles).recordsMade cycles) := by
  subst h
  have hstored : (s.makeRecords.storeAccounts cycles).plinth.unrecorded = some cycles := rfl
  exact ⟨rfl, .trans rfl (congrArg Host.Outcome.next (makeRecords_some hstored))⟩

/-! ### Records of the scheduler (11 R262) -/

theorem State.setRecord_setRecord (s : State) (d n : Nat) (x y : Record) : (s.setRecord d n x).setRecord d n y = s.setRecord d n y := by
  simp only [State.setRecord, State.modDie, State.die, vget_vset_self, tput_tput]
  rw [vset, vset, vset, Vector.set_set]

/-- Settles O53: each event's branch under the conditions that its clause names. -/
theorem plinthAndErrorEvents : Obligations.PlinthAndErrorEvents := by
  unfold Obligations.PlinthAndErrorEvents
  intro s x y rails cyc d n line place
  refine ⟨?trips, ?samples, rfl, fun r => staticShares_plinth s, fun r hf hp a => staticShares_memory s hf hp, ?checkpoint, ?unsigned, ?signed, rfl, rfl, rfl, rfl,
    ?record, ?reserved, fun p q => rfl, ?maquette, ?core, ?die, ?site, ?boot⟩
  case trips =>
    intro h
    refine if_pos ?_
    rw [Bool.or_eq_true, decide_eq_true_eq]
    exact h
  case samples =>
    intro hcool hflow
    refine if_neg ?_
    rw [hcool, Bool.false_or, decide_eq_true_eq]
    exact Nat.not_lt.2 hflow
  case checkpoint => exact ⟨fun h => execCheckpoint_eq (makeRecords_none h) cyc, fun n h => execCheckpoint_eq (makeRecords_some h) cyc⟩
  case unsigned => exact fun h => if_pos h
  case signed => exact fun h => if_neg (Nat.not_lt.2 h)
  case record =>
    intro r hr hres
    simp only [exec, execSchedulerStateError, hr, hres, Bool.false_eq_true, if_false]
  case reserved =>
    intro r hr hres
    simp only [exec, execSchedulerStateError, hr, hres, if_true, State.modRecord, State.record_setRecord_self, State.setRecord_setRecord]
  case maquette =>
    intro h
    exact congrArg Host.Outcome.next (if_neg (mt Option.isNone_iff_eq_none.1 h))
  case core => exact fun h => congrArg Host.Outcome.next (if_pos h)
  case die =>
    intro hbooted hn hstate
    refine if_neg ?_
    simp only [hbooted, Bool.not_true, Bool.false_or, Bool.or_eq_true, decide_eq_true_eq, beq_iff_eq, not_or]
    exact ⟨Nat.not_lt.2 hn, hstate⟩
  case site => exact fun h => if_neg (not_not.2 h)
  case boot =>
    change (_ → execBoot y s = _) ∧ ∀ k, _ → (_ → execBoot y s = _) ∧ (_ → _ → execBoot y s = _)
    refine ⟨fun h => ?noBank, fun k hk => ?bank⟩
    case noBank =>
      have hk : s.plinth.bankOrder.find? (fun k => s.plinth.bankRuns y k) = none :=
        List.find?_eq_none.2 fun k hk => Bool.eq_false_iff.1 (h k hk)
      simp only [execBoot, hk]
      rfl
    case bank =>
      simp only [execBoot, hk]
      refine ⟨fun h => if_pos ?_, fun hok hc => if_neg ?_⟩
      · simpa only [Bool.or_eq_true, Bool.not_eq_true'] using h
      · simp only [hok, hc, Bool.not_true, Bool.or_self, Bool.false_eq_true, not_false_eq_true]

end Sys2Proof.Machine
end

section
/-! PROOFS. The events of a tile's grid and island that no strand commands (spec 05 R119, R121, R129, R134 to R137; 15 R331; 03 R72; 17 R387 to R395). -/
namespace Sys2Proof.Machine

section
variable {s : State} {d y : Nat}

/-! ### The grid -/

/-- A BARN slot without an arrival, whose trigger holds, registers one. -/
theorem execBarnArrival_registers {pe slot r : Nat} {w : BitVec 64} (hslot : tget ((s.tile d y).pe pe).plane.slots slot = some w)
    (htask : (s.tile d y).planeTask ((s.tile d y).pe pe) = some r) (hop : bits w.toNat 25 7 = 0x29) (hfire : s.mayFire d y pe = true)
    (hnew : tget ((s.tile d y).pe pe).arrivals slot = none) (htrigger : ((s.tile d y).pe pe).trigger 0x29 (peFields w.toNat) = true) :
    let c := (vget ((s.tile d y).pe pe).plane.consts ((peFields w.toNat).sb.val - 12)).toNat
    execBarnArrival d y pe slot s = .next (s.barrierArrive d y pe slot r (bits c 0 3) (bits c 32 16)) := by
  simp only [execBarnArrival, State.registerArrival, hslot, htask, hop, hfire, hnew, htrigger, Option.isNone_none, and_self, if_true]

/-- A delayed result that waits for nothing is delivered. -/
theorem execDelayedResult_delivers {k pe : Nat} {p : Pe} {r : Delayed}
    (hpe : (s.tile d y).pes.find? (fun e => e.2.delayed.any fun x => x.id == k && x.kind == 0) = some (pe, p))
    (hr : p.delayed.find? (fun x => x.id == k) = some r) :
    execDelayedResult d y k s = .next (((s.modTile d y fun t => t.modPe pe fun p => p.settle r).departPe d y pe).settleGrid d y) := by
  simp only [execDelayedResult, hpe, hr]

/-- The oldest word of its route goes by whether its destination takes it. -/
theorem execRouteWordArrival_oldest {k : Nat} {x : InFlight} (hx : lget (s.tile d y).routes k = some x)
    (hold : ∀ z ∈ (s.tile d y).routes.take k, z.pe ≠ x.pe ∨ z.q ≠ x.q) {u : Option State}
    (hu : (s.modTile d y fun t => { t with routes := ldel t.routes k }).landWord d y x = u) :
    (∀ v, u = some v → execRouteWordArrival d y k s = .next (v.settleGrid d y)) ∧ (u = none → execRouteWordArrival d y k s = .next s) := by
  have hfirst : ((s.tile d y).routes.take k).any (fun z => z.pe == x.pe && z.q == x.q) = false := by
    rw [List.any_eq_false]
    intro z hz
    rw [Bool.and_eq_true, beq_iff_eq, beq_iff_eq, not_and_or]
    exact hold z hz
  simp only [execRouteWordArrival, hx, hfirst, Bool.false_eq_true, if_false, hu]
  refine ⟨fun v hv => ?_, fun hn => ?_⟩
  · simp only [hv]
  · simp only [hn]

/-- A PE of a splicing tile that may switch turns to its other plane. -/
theorem execPePlaneSwitch_turns {pe : Nat} (hpe : pe < 128) (hsplice : (s.tile d y).splicing = true) (hswitch : ((s.tile d y).pe pe).maySwitch = true) :
    execPePlaneSwitch d y pe s = .next ((((s.modTile d y fun t => if t.succ.isSome then t.markOld y pe else t).takeEndTokens d y pe).modTile d y
      fun t => t.modPe pe fun p => { p.turn with switched := true }).modTile d y Tile.endBoundary) := by
  simp only [execPePlaneSwitch, hsplice, hswitch, Bool.not_true, Bool.false_or, Bool.or_false, decide_eq_true_eq, if_neg (Nat.not_le.2 hpe)]

/-! ### The latches of the island (05 R137, 17 R391, R394, R395) -/

section
variable {c : IslandCmd} (hfirm : (s.tile d y).firmware = none)
include hfirm

/-- An MXLDB that alone may start fills the back latch from the scratchpad. -/
theorem execLatchFillStart_load (hload : (s.tile d y).island.loadReady = some c)
    (hrot : (s.tile d y).island.rotReady (s.tile d ((s.tile d y).ringNext y)).island = none) :
    execLatchFillStart d y s = .next ((s.view d y true).2.modIsland d y fun x =>
      { x.filling c with back := (s.view d y true).1.readLatch x.config c.arg.toNat }) := by
  simp only [execLatchFillStart, hfirm, hload, hrot, Option.isSome_none, Bool.false_eq_true, if_false]

/-- An MXROT that alone may start goes by whether the next tile's island is configured alike. -/
theorem execLatchFillStart_rotate (hload : (s.tile d y).island.loadReady = none)
    (hrot : (s.tile d y).island.rotReady (s.tile d ((s.tile d y).ringNext y)).island = some c) :
    let x := (s.tile d y).island
    let next := (s.tile d y).ringNext y
    let far := (s.tile d next).island
    (far.configured = true ∧ mxFmt far.config = mxFmt x.config ∧ mxScaled far.config = mxScaled x.config → execLatchFillStart d y s =
      .next ((s.modIsland d y fun x => x.filling c).modIsland d next fun z => { z with back := { x.front with state := 1 } }))
    ∧ (far.configured = false ∨ mxFmt far.config ≠ mxFmt x.config ∨ mxScaled far.config ≠ mxScaled x.config →
      execLatchFillStart d y s = .next ((s.endIsland d y c).report d y c.strand ⟨1, 5, c.arg⟩)) := by
  simp only [execLatchFillStart, hfirm, hload, hrot, Option.isSome_none, Bool.false_eq_true, if_false]
  refine ⟨fun h => if_neg ?_, fun h => if_pos ?_⟩
  · obtain ⟨hconfigured, hfmt, hscaled⟩ := h
    simp only [hconfigured, hfmt, hscaled, Bool.not_true, bne_self_eq_false, Bool.or_self, Bool.false_eq_true, not_false_eq_true]
  · simpa only [Bool.or_eq_true, Bool.not_eq_true', bne_iff_ne, or_assoc] using h

/-- The MXLDB that fills the latch ends, and the latch is FULL. -/
theorem execLatchFillComplete_load (hstate : (s.tile d y).island.back.state = 1)
    (hfill : (s.tile d y).island.cmds.find? (fun c => c.kind == 1 && c.fill) = some c) :
    execLatchFillComplete d y s = .next ((s.modIsland d y fun x => { x with back := { x.back with state := 2 } }).endIsland d y c) := by
  simp only [execLatchFillComplete, hfirm, hstate, hfill, ne_eq, not_true_eq_false, Option.isSome_none, Bool.false_eq_true, or_self, if_false]

end

/-! ### Beats (05 R134 to R136) -/

/-- At a row boundary the command that is due comes before any beat. -/
theorem execIslandBeat_due {c : IslandCmd} {u : Nat} (hfirm : (s.tile d y).firmware = none) (hdue : (s.tile d y).island.dueCmd = some c) :
    execIslandBeat d y u s = .next (s.performIsland d y c) := by
  simp only [execIslandBeat, hfirm, hdue, Option.isSome_none, Bool.false_eq_true, if_false]

section
variable {u : Nat} (hdue : (s.tile d y).island.dueCmd = none) (hconfigured : (s.tile d y).island.configured = true)
  (hclock : (s.die d).withheld = false) (hfirm : (s.tile d y).firmware = none)
include hdue hconfigured hclock hfirm

section
variable {w : GWord} {lanes : List GWord} (hhalf : (s.tile d y).island.half = none)
  (hnext : (s.tile d y).island.nextBeat = some (w :: lanes)) (htakes : (s.tile d y).takesBeat (some w) = true)
include hhalf hnext htakes

/-- A beat of a narrow format is its rows. -/
theorem execIslandBeat_narrow (hwide : mxWide (s.tile d y).island.config = false) :
    let v := s.takeBeat d y
    let v := if w.bits.getLsbD 9 then v.modIsland d y Island.swap else v
    execIslandBeat d y u s = .next (v.over ((islandRows (s.tile d y).island.config w lanes).zip [u % 3, u / 3 % 3]) fun r v =>
      v.islandApply d y r.1 r.2) := by
  simp only [execIslandBeat, hfirm, hdue, hconfigured, hclock, hnext, hhalf, htakes, hwide, Option.isSome_none, Option.isNone_none, List.head?_cons,
    Option.any_some, Bool.not_true, Bool.or_self, Bool.false_eq_true, if_false, if_true]

/-- The first beat of a row of a wide format waits for the second. -/
theorem execIslandBeat_first (hwide : mxWide (s.tile d y).island.config = true) :
    let v := s.takeBeat d y
    let v := if w.bits.getLsbD 9 then v.modIsland d y Island.swap else v
    execIslandBeat d y u s = .next (v.modIsland d y fun x => { x with half := some (w :: lanes) }) := by
  simp only [execIslandBeat, hfirm, hdue, hconfigured, hclock, hnext, hhalf, htakes, hwide, Option.isSome_none, Option.isNone_none, List.head?_cons,
    Option.any_some, Bool.not_true, Bool.or_self, Bool.false_eq_true, if_false, if_true]

end

/-- The second beat completes its row. -/
theorem execIslandBeat_second {w : GWord} {first lanes : List GWord} (hhalf : (s.tile d y).island.half = some (w :: first))
    (hnext : (s.tile d y).island.nextBeat = some lanes) (htakes : (s.tile d y).takesBeat none = true) :
    execIslandBeat d y u s = .next (((s.takeBeat d y).modIsland d y fun x => { x with half := none }).islandApply d y
      (islandRow (s.tile d y).island.config w 0 32 (first ++ lanes)) (u % 3)) := by
  simp only [execIslandBeat, hfirm, hdue, hconfigured, hclock, hnext, hhalf, htakes, Option.isSome_none, Option.isNone_some, Option.any_none,
    Bool.not_true, Bool.or_self, Bool.false_eq_true, if_false]

end

end

/-- Settles O43: each event by the condition under which it does what it is for. -/
theorem gridAndIslandEvents : Obligations.GridAndIslandEvents := by
  unfold Obligations.GridAndIslandEvents
  intro s d y t
  refine ⟨fun pe slot r w => execBarnArrival_registers, fun k pe p r => execDelayedResult_delivers,
    fun k x hx hold => execRouteWordArrival_oldest hx hold rfl, fun pe => execPePlaneSwitch_turns, ?loaded, ?island⟩
  case loaded => exact fun hload => if_neg (by rw [hload]; exact Bool.false_ne_true)
  case island =>
    intro x next far
    refine ⟨?idle, fun c => execLatchFillStart_load, fun c => execLatchFillStart_rotate, fun c => execLatchFillComplete_load,
      fun c u => execIslandBeat_due, ?narrow, ?first, ?second⟩
    case idle =>
      intro h
      have hidle : t.firmware.isSome = true := Option.isSome_iff_ne_none.2 h
      exact ⟨if_pos hidle, if_pos (.inr hidle), fun u => if_pos hidle⟩
    case narrow =>
      intro u w lanes hdue hconfigured hclock hfirm hhalf hwide hnext htakes
      exact execIslandBeat_narrow hdue hconfigured hclock hfirm hhalf hnext htakes hwide
    case first =>
      intro u w lanes hdue hconfigured hclock hfirm hhalf hwide hnext htakes
      exact execIslandBeat_first hdue hconfigured hclock hfirm hhalf hnext htakes hwide
    case second =>
      intro u w first lanes hdue hconfigured hclock hfirm hhalf hnext htakes
      exact execIslandBeat_second hdue hconfigured hclock hfirm hhalf hnext htakes

end Sys2Proof.Machine
end
